-- ==== Sys2Proof/Word.lean ====
section
/-! DEFINITION. Sys2Proof/Word.lean: the word types of the RV5000 (spec/00_scope.md R11, spec/30_encoding.md R220). -/

namespace Sys2Proof

/-- A byte, the unit of memory. -/
abbrev Byte := BitVec 8
/-- A word of 32 bits: an instruction, a 32-bit operand, a CP0 register of 32 bits. -/
abbrev Word := BitVec 32
/-- A doubleword of 64 bits: a general register, a virtual address. -/
abbrev Dword := BitVec 64
/-- A physical address of 36 bits (spec/20_memory.md R140). -/
abbrev PAddr := BitVec 36
/-- A register number in an instruction. -/
abbrev RegNum := BitVec 5

end Sys2Proof
end

