-- ==== Sys2Proof/Syntax.lean ====
section
/-! DEFINITION. Sys2Proof/Syntax.lean: the instructions of the RV5000, one constructor for each row of spec/opcode_table.json.
The operands are the fields of that row, in its order; the meanings are in Sys2Proof/Machine. -/

namespace Sys2Proof

/-- An instruction of the RV5000 with the operand fields of its encoding (spec/30_encoding.md R220 to R233). -/
inductive Instr where
  -- Loads, stores, linked accesses and prefetch (spec/40_loads_stores.md)
  | lb (rt : BitVec 5) (offset : BitVec 16) (base : BitVec 5)
  | lbu (rt : BitVec 5) (offset : BitVec 16) (base : BitVec 5)
  | lh (rt : BitVec 5) (offset : BitVec 16) (base : BitVec 5)
  | lhu (rt : BitVec 5) (offset : BitVec 16) (base : BitVec 5)
  | lw (rt : BitVec 5) (offset : BitVec 16) (base : BitVec 5)
  | lwu (rt : BitVec 5) (offset : BitVec 16) (base : BitVec 5)
  | ld (rt : BitVec 5) (offset : BitVec 16) (base : BitVec 5)
  | sb (rt : BitVec 5) (offset : BitVec 16) (base : BitVec 5)
  | sh (rt : BitVec 5) (offset : BitVec 16) (base : BitVec 5)
  | sw (rt : BitVec 5) (offset : BitVec 16) (base : BitVec 5)
  | sd (rt : BitVec 5) (offset : BitVec 16) (base : BitVec 5)
  | lwl (rt : BitVec 5) (offset : BitVec 16) (base : BitVec 5)
  | lwr (rt : BitVec 5) (offset : BitVec 16) (base : BitVec 5)
  | ldl (rt : BitVec 5) (offset : BitVec 16) (base : BitVec 5)
  | ldr (rt : BitVec 5) (offset : BitVec 16) (base : BitVec 5)
  | swl (rt : BitVec 5) (offset : BitVec 16) (base : BitVec 5)
  | swr (rt : BitVec 5) (offset : BitVec 16) (base : BitVec 5)
  | sdl (rt : BitVec 5) (offset : BitVec 16) (base : BitVec 5)
  | sdr (rt : BitVec 5) (offset : BitVec 16) (base : BitVec 5)
  | ll (rt : BitVec 5) (offset : BitVec 16) (base : BitVec 5)
  | lld (rt : BitVec 5) (offset : BitVec 16) (base : BitVec 5)
  | sc (rt : BitVec 5) (offset : BitVec 16) (base : BitVec 5)
  | scd (rt : BitVec 5) (offset : BitVec 16) (base : BitVec 5)
  | pref (hint : BitVec 5) (offset : BitVec 16) (base : BitVec 5)
  -- Integer immediate and three-operand instructions (spec/41_alu.md)
  | addi (rt : BitVec 5) (rs : BitVec 5) (imm : BitVec 16)
  | addiu (rt : BitVec 5) (rs : BitVec 5) (imm : BitVec 16)
  | slti (rt : BitVec 5) (rs : BitVec 5) (imm : BitVec 16)
  | sltiu (rt : BitVec 5) (rs : BitVec 5) (imm : BitVec 16)
  | andi (rt : BitVec 5) (rs : BitVec 5) (imm : BitVec 16)
  | ori (rt : BitVec 5) (rs : BitVec 5) (imm : BitVec 16)
  | xori (rt : BitVec 5) (rs : BitVec 5) (imm : BitVec 16)
  | daddi (rt : BitVec 5) (rs : BitVec 5) (imm : BitVec 16)
  | daddiu (rt : BitVec 5) (rs : BitVec 5) (imm : BitVec 16)
  | lui (rt : BitVec 5) (imm : BitVec 16)
  | add (rd : BitVec 5) (rs : BitVec 5) (rt : BitVec 5)
  | addu (rd : BitVec 5) (rs : BitVec 5) (rt : BitVec 5)
  | sub (rd : BitVec 5) (rs : BitVec 5) (rt : BitVec 5)
  | subu (rd : BitVec 5) (rs : BitVec 5) (rt : BitVec 5)
  | and (rd : BitVec 5) (rs : BitVec 5) (rt : BitVec 5)
  | or (rd : BitVec 5) (rs : BitVec 5) (rt : BitVec 5)
  | xor (rd : BitVec 5) (rs : BitVec 5) (rt : BitVec 5)
  | nor (rd : BitVec 5) (rs : BitVec 5) (rt : BitVec 5)
  | slt (rd : BitVec 5) (rs : BitVec 5) (rt : BitVec 5)
  | sltu (rd : BitVec 5) (rs : BitVec 5) (rt : BitVec 5)
  | dadd (rd : BitVec 5) (rs : BitVec 5) (rt : BitVec 5)
  | daddu (rd : BitVec 5) (rs : BitVec 5) (rt : BitVec 5)
  | dsub (rd : BitVec 5) (rs : BitVec 5) (rt : BitVec 5)
  | dsubu (rd : BitVec 5) (rs : BitVec 5) (rt : BitVec 5)
  -- Shifts (spec/41_alu.md)
  | sll (rd : BitVec 5) (rt : BitVec 5) (sa : BitVec 5)
  | srl (rd : BitVec 5) (rt : BitVec 5) (sa : BitVec 5)
  | sra (rd : BitVec 5) (rt : BitVec 5) (sa : BitVec 5)
  | dsll (rd : BitVec 5) (rt : BitVec 5) (sa : BitVec 5)
  | dsrl (rd : BitVec 5) (rt : BitVec 5) (sa : BitVec 5)
  | dsra (rd : BitVec 5) (rt : BitVec 5) (sa : BitVec 5)
  | dsll32 (rd : BitVec 5) (rt : BitVec 5) (sa : BitVec 5)
  | dsrl32 (rd : BitVec 5) (rt : BitVec 5) (sa : BitVec 5)
  | dsra32 (rd : BitVec 5) (rt : BitVec 5) (sa : BitVec 5)
  | sllv (rd : BitVec 5) (rt : BitVec 5) (rs : BitVec 5)
  | srlv (rd : BitVec 5) (rt : BitVec 5) (rs : BitVec 5)
  | srav (rd : BitVec 5) (rt : BitVec 5) (rs : BitVec 5)
  | dsllv (rd : BitVec 5) (rt : BitVec 5) (rs : BitVec 5)
  | dsrlv (rd : BitVec 5) (rt : BitVec 5) (rs : BitVec 5)
  | dsrav (rd : BitVec 5) (rt : BitVec 5) (rs : BitVec 5)
  -- Multiply, divide, HI/LO and conditional moves (spec/42_muldiv_moves.md)
  | mult (rs : BitVec 5) (rt : BitVec 5)
  | multu (rs : BitVec 5) (rt : BitVec 5)
  | dmult (rs : BitVec 5) (rt : BitVec 5)
  | dmultu (rs : BitVec 5) (rt : BitVec 5)
  | div (rs : BitVec 5) (rt : BitVec 5)
  | divu (rs : BitVec 5) (rt : BitVec 5)
  | ddiv (rs : BitVec 5) (rt : BitVec 5)
  | ddivu (rs : BitVec 5) (rt : BitVec 5)
  | mfhi (rd : BitVec 5)
  | mthi (rs : BitVec 5)
  | mflo (rd : BitVec 5)
  | mtlo (rs : BitVec 5)
  | movn (rd : BitVec 5) (rs : BitVec 5) (rt : BitVec 5)
  | movz (rd : BitVec 5) (rs : BitVec 5) (rt : BitVec 5)
  | movf (rd : BitVec 5) (rs : BitVec 5) (cc : BitVec 3)
  | movt (rd : BitVec 5) (rs : BitVec 5) (cc : BitVec 3)
  -- Jumps and branches (spec/43_jumps_branches.md)
  | j (target : BitVec 26)
  | jal (target : BitVec 26)
  | jr (rs : BitVec 5)
  | jalr (rd : BitVec 5) (rs : BitVec 5)
  | beq (rs : BitVec 5) (rt : BitVec 5) (offset : BitVec 16)
  | bne (rs : BitVec 5) (rt : BitVec 5) (offset : BitVec 16)
  | blez (rs : BitVec 5) (offset : BitVec 16)
  | bgtz (rs : BitVec 5) (offset : BitVec 16)
  | bltz (rs : BitVec 5) (offset : BitVec 16)
  | bgez (rs : BitVec 5) (offset : BitVec 16)
  | bltzal (rs : BitVec 5) (offset : BitVec 16)
  | bgezal (rs : BitVec 5) (offset : BitVec 16)
  | bltzl (rs : BitVec 5) (offset : BitVec 16)
  | bgezl (rs : BitVec 5) (offset : BitVec 16)
  | bltzall (rs : BitVec 5) (offset : BitVec 16)
  | bgezall (rs : BitVec 5) (offset : BitVec 16)
  | beql (rs : BitVec 5) (rt : BitVec 5) (offset : BitVec 16)
  | bnel (rs : BitVec 5) (rt : BitVec 5) (offset : BitVec 16)
  | blezl (rs : BitVec 5) (offset : BitVec 16)
  | bgtzl (rs : BitVec 5) (offset : BitVec 16)
  -- Traps (spec/44_special_traps.md)
  | tge (rs : BitVec 5) (rt : BitVec 5) (code : BitVec 10)
  | tgeu (rs : BitVec 5) (rt : BitVec 5) (code : BitVec 10)
  | tlt (rs : BitVec 5) (rt : BitVec 5) (code : BitVec 10)
  | tltu (rs : BitVec 5) (rt : BitVec 5) (code : BitVec 10)
  | teq (rs : BitVec 5) (rt : BitVec 5) (code : BitVec 10)
  | tne (rs : BitVec 5) (rt : BitVec 5) (code : BitVec 10)
  | tgei (rs : BitVec 5) (imm : BitVec 16)
  | tgeiu (rs : BitVec 5) (imm : BitVec 16)
  | tlti (rs : BitVec 5) (imm : BitVec 16)
  | tltiu (rs : BitVec 5) (imm : BitVec 16)
  | teqi (rs : BitVec 5) (imm : BitVec 16)
  | tnei (rs : BitVec 5) (imm : BitVec 16)
  -- System control coprocessor (spec/45_cp0_system.md)
  | mfc0 (rt : BitVec 5) (rd : BitVec 5)
  | mtc0 (rt : BitVec 5) (rd : BitVec 5)
  | dmfc0 (rt : BitVec 5) (rd : BitVec 5)
  | dmtc0 (rt : BitVec 5) (rd : BitVec 5)
  -- CACHE operations (spec/45_cp0_system.md)
  | cacheIIndexInvalidate (offset : BitVec 16) (base : BitVec 5)
  | cacheIIndexLoadTag (offset : BitVec 16) (base : BitVec 5)
  | cacheIIndexStoreTag (offset : BitVec 16) (base : BitVec 5)
  | cacheIHitInvalidate (offset : BitVec 16) (base : BitVec 5)
  | cacheIFill (offset : BitVec 16) (base : BitVec 5)
  | cacheIHitWriteback (offset : BitVec 16) (base : BitVec 5)
  | cacheDIndexWritebackInvalidate (offset : BitVec 16) (base : BitVec 5)
  | cacheDIndexLoadTag (offset : BitVec 16) (base : BitVec 5)
  | cacheDIndexStoreTag (offset : BitVec 16) (base : BitVec 5)
  | cacheDCreateDirtyExclusive (offset : BitVec 16) (base : BitVec 5)
  | cacheDHitInvalidate (offset : BitVec 16) (base : BitVec 5)
  | cacheDHitWritebackInvalidate (offset : BitVec 16) (base : BitVec 5)
  | cacheDHitWriteback (offset : BitVec 16) (base : BitVec 5)
  | cacheSValidClear (offset : BitVec 16) (base : BitVec 5)
  | cacheSIndexLoadTag (offset : BitVec 16) (base : BitVec 5)
  | cacheSIndexStoreTag (offset : BitVec 16) (base : BitVec 5)
  | cacheSCachePageInvalidate (offset : BitVec 16) (base : BitVec 5)
  -- Floating-point loads, stores and moves (spec/46_fpu_moves.md)
  | lwc1 (ft : BitVec 5) (offset : BitVec 16) (base : BitVec 5)
  | ldc1 (ft : BitVec 5) (offset : BitVec 16) (base : BitVec 5)
  | swc1 (ft : BitVec 5) (offset : BitVec 16) (base : BitVec 5)
  | sdc1 (ft : BitVec 5) (offset : BitVec 16) (base : BitVec 5)
  | lwxc1 (fd : BitVec 5) (index : BitVec 5) (base : BitVec 5)
  | ldxc1 (fd : BitVec 5) (index : BitVec 5) (base : BitVec 5)
  | swxc1 (fs : BitVec 5) (index : BitVec 5) (base : BitVec 5)
  | sdxc1 (fs : BitVec 5) (index : BitVec 5) (base : BitVec 5)
  | mfc1 (rt : BitVec 5) (fs : BitVec 5)
  | mtc1 (rt : BitVec 5) (fs : BitVec 5)
  | dmfc1 (rt : BitVec 5) (fs : BitVec 5)
  | dmtc1 (rt : BitVec 5) (fs : BitVec 5)
  | cfc1 (rt : BitVec 5) (fs : BitVec 5)
  | ctc1 (rt : BitVec 5) (fs : BitVec 5)
  | movS (fd : BitVec 5) (fs : BitVec 5)
  | movD (fd : BitVec 5) (fs : BitVec 5)
  | movfS (fd : BitVec 5) (fs : BitVec 5) (cc : BitVec 3)
  | movtS (fd : BitVec 5) (fs : BitVec 5) (cc : BitVec 3)
  | movzS (fd : BitVec 5) (fs : BitVec 5) (rt : BitVec 5)
  | movnS (fd : BitVec 5) (fs : BitVec 5) (rt : BitVec 5)
  | movfD (fd : BitVec 5) (fs : BitVec 5) (cc : BitVec 3)
  | movtD (fd : BitVec 5) (fs : BitVec 5) (cc : BitVec 3)
  | movzD (fd : BitVec 5) (fs : BitVec 5) (rt : BitVec 5)
  | movnD (fd : BitVec 5) (fs : BitVec 5) (rt : BitVec 5)
  -- Floating-point arithmetic and conversions (spec/47_fpu_arith.md)
  | addS (fd : BitVec 5) (fs : BitVec 5) (ft : BitVec 5)
  | addD (fd : BitVec 5) (fs : BitVec 5) (ft : BitVec 5)
  | subS (fd : BitVec 5) (fs : BitVec 5) (ft : BitVec 5)
  | subD (fd : BitVec 5) (fs : BitVec 5) (ft : BitVec 5)
  | mulS (fd : BitVec 5) (fs : BitVec 5) (ft : BitVec 5)
  | mulD (fd : BitVec 5) (fs : BitVec 5) (ft : BitVec 5)
  | divS (fd : BitVec 5) (fs : BitVec 5) (ft : BitVec 5)
  | divD (fd : BitVec 5) (fs : BitVec 5) (ft : BitVec 5)
  | sqrtS (fd : BitVec 5) (fs : BitVec 5)
  | sqrtD (fd : BitVec 5) (fs : BitVec 5)
  | absS (fd : BitVec 5) (fs : BitVec 5)
  | absD (fd : BitVec 5) (fs : BitVec 5)
  | negS (fd : BitVec 5) (fs : BitVec 5)
  | negD (fd : BitVec 5) (fs : BitVec 5)
  | recipS (fd : BitVec 5) (fs : BitVec 5)
  | recipD (fd : BitVec 5) (fs : BitVec 5)
  | rsqrtS (fd : BitVec 5) (fs : BitVec 5)
  | rsqrtD (fd : BitVec 5) (fs : BitVec 5)
  | maddS (fd : BitVec 5) (fr : BitVec 5) (fs : BitVec 5) (ft : BitVec 5)
  | maddD (fd : BitVec 5) (fr : BitVec 5) (fs : BitVec 5) (ft : BitVec 5)
  | msubS (fd : BitVec 5) (fr : BitVec 5) (fs : BitVec 5) (ft : BitVec 5)
  | msubD (fd : BitVec 5) (fr : BitVec 5) (fs : BitVec 5) (ft : BitVec 5)
  | nmaddS (fd : BitVec 5) (fr : BitVec 5) (fs : BitVec 5) (ft : BitVec 5)
  | nmaddD (fd : BitVec 5) (fr : BitVec 5) (fs : BitVec 5) (ft : BitVec 5)
  | nmsubS (fd : BitVec 5) (fr : BitVec 5) (fs : BitVec 5) (ft : BitVec 5)
  | nmsubD (fd : BitVec 5) (fr : BitVec 5) (fs : BitVec 5) (ft : BitVec 5)
  | roundWS (fd : BitVec 5) (fs : BitVec 5)
  | roundWD (fd : BitVec 5) (fs : BitVec 5)
  | truncWS (fd : BitVec 5) (fs : BitVec 5)
  | truncWD (fd : BitVec 5) (fs : BitVec 5)
  | ceilWS (fd : BitVec 5) (fs : BitVec 5)
  | ceilWD (fd : BitVec 5) (fs : BitVec 5)
  | floorWS (fd : BitVec 5) (fs : BitVec 5)
  | floorWD (fd : BitVec 5) (fs : BitVec 5)
  | cvtWS (fd : BitVec 5) (fs : BitVec 5)
  | cvtWD (fd : BitVec 5) (fs : BitVec 5)
  | roundLS (fd : BitVec 5) (fs : BitVec 5)
  | roundLD (fd : BitVec 5) (fs : BitVec 5)
  | truncLS (fd : BitVec 5) (fs : BitVec 5)
  | truncLD (fd : BitVec 5) (fs : BitVec 5)
  | ceilLS (fd : BitVec 5) (fs : BitVec 5)
  | ceilLD (fd : BitVec 5) (fs : BitVec 5)
  | floorLS (fd : BitVec 5) (fs : BitVec 5)
  | floorLD (fd : BitVec 5) (fs : BitVec 5)
  | cvtLS (fd : BitVec 5) (fs : BitVec 5)
  | cvtLD (fd : BitVec 5) (fs : BitVec 5)
  | cvtSD (fd : BitVec 5) (fs : BitVec 5)
  | cvtSW (fd : BitVec 5) (fs : BitVec 5)
  | cvtSL (fd : BitVec 5) (fs : BitVec 5)
  | cvtDS (fd : BitVec 5) (fs : BitVec 5)
  | cvtDW (fd : BitVec 5) (fs : BitVec 5)
  | cvtDL (fd : BitVec 5) (fs : BitVec 5)
  -- Floating-point compares and branches (spec/47_fpu_arith.md)
  | cFS (cc : BitVec 3) (fs : BitVec 5) (ft : BitVec 5)
  | cFD (cc : BitVec 3) (fs : BitVec 5) (ft : BitVec 5)
  | cUnS (cc : BitVec 3) (fs : BitVec 5) (ft : BitVec 5)
  | cUnD (cc : BitVec 3) (fs : BitVec 5) (ft : BitVec 5)
  | cEqS (cc : BitVec 3) (fs : BitVec 5) (ft : BitVec 5)
  | cEqD (cc : BitVec 3) (fs : BitVec 5) (ft : BitVec 5)
  | cUeqS (cc : BitVec 3) (fs : BitVec 5) (ft : BitVec 5)
  | cUeqD (cc : BitVec 3) (fs : BitVec 5) (ft : BitVec 5)
  | cOltS (cc : BitVec 3) (fs : BitVec 5) (ft : BitVec 5)
  | cOltD (cc : BitVec 3) (fs : BitVec 5) (ft : BitVec 5)
  | cUltS (cc : BitVec 3) (fs : BitVec 5) (ft : BitVec 5)
  | cUltD (cc : BitVec 3) (fs : BitVec 5) (ft : BitVec 5)
  | cOleS (cc : BitVec 3) (fs : BitVec 5) (ft : BitVec 5)
  | cOleD (cc : BitVec 3) (fs : BitVec 5) (ft : BitVec 5)
  | cUleS (cc : BitVec 3) (fs : BitVec 5) (ft : BitVec 5)
  | cUleD (cc : BitVec 3) (fs : BitVec 5) (ft : BitVec 5)
  | cSfS (cc : BitVec 3) (fs : BitVec 5) (ft : BitVec 5)
  | cSfD (cc : BitVec 3) (fs : BitVec 5) (ft : BitVec 5)
  | cNgleS (cc : BitVec 3) (fs : BitVec 5) (ft : BitVec 5)
  | cNgleD (cc : BitVec 3) (fs : BitVec 5) (ft : BitVec 5)
  | cSeqS (cc : BitVec 3) (fs : BitVec 5) (ft : BitVec 5)
  | cSeqD (cc : BitVec 3) (fs : BitVec 5) (ft : BitVec 5)
  | cNglS (cc : BitVec 3) (fs : BitVec 5) (ft : BitVec 5)
  | cNglD (cc : BitVec 3) (fs : BitVec 5) (ft : BitVec 5)
  | cLtS (cc : BitVec 3) (fs : BitVec 5) (ft : BitVec 5)
  | cLtD (cc : BitVec 3) (fs : BitVec 5) (ft : BitVec 5)
  | cNgeS (cc : BitVec 3) (fs : BitVec 5) (ft : BitVec 5)
  | cNgeD (cc : BitVec 3) (fs : BitVec 5) (ft : BitVec 5)
  | cLeS (cc : BitVec 3) (fs : BitVec 5) (ft : BitVec 5)
  | cLeD (cc : BitVec 3) (fs : BitVec 5) (ft : BitVec 5)
  | cNgtS (cc : BitVec 3) (fs : BitVec 5) (ft : BitVec 5)
  | cNgtD (cc : BitVec 3) (fs : BitVec 5) (ft : BitVec 5)
  | bc1f (cc : BitVec 3) (offset : BitVec 16)
  | bc1t (cc : BitVec 3) (offset : BitVec 16)
  | bc1fl (cc : BitVec 3) (offset : BitVec 16)
  | bc1tl (cc : BitVec 3) (offset : BitVec 16)
  -- Instructions without operands (spec/44_special_traps.md, spec/45_cp0_system.md); the hardware ignores the code of SYSCALL and BREAK (R441) and every operand of PREFX (R534)
  | syscall
  | brk
  | sync
  | tlbr
  | tlbwi
  | tlbwr
  | tlbp
  | eret
  | wait
  | prefx
  deriving DecidableEq, Repr

end Sys2Proof
end

