-- ==== Sys2Proof/Decode.lean ====
section
/-! DEFINITION. Sys2Proof/Decode.lean: from an instruction word to an instruction or a named rejection, and back
(spec/30_encoding.md R220 to R240). Decoding is total. -/

namespace Sys2Proof

/-- The coprocessor class of a word, for the usable check that comes before its bits are looked at (R236, R239). -/
inductive CopClass where
  | none
  | cop0
  | cop1
  deriving DecidableEq, Repr

/-- Why a word is no instruction. Sys2Proof/Machine/Step.lean turns each into the effect the spec gives it. -/
inductive DecodeError where
  /-- Fewer or more than four bytes were given: no instruction word at all. -/
  | notOneWord
  /-- An undefined major opcode, SPECIAL function or REGIMM code: Reserved Instruction (R234). -/
  | reserved
  /-- A COP0 word that R230 does not list: Reserved Instruction after the CP0 usable check (R235 (a)). -/
  | cop0Undefined
  /-- A COP1 or COP1X word of an undefined format or function: Unimplemented Operation after the CP1 check (R235 (c)). -/
  | cop1Undefined
  /-- A word of coprocessor 2 (R238). -/
  | cop2
  /-- A listed word with a nonzero field that must be zero: no behaviour is defined (R235 (b)), once its coprocessor is usable. -/
  | mustBeZero (unit : CopClass)
  /-- A CACHE word whose operation is none of the seventeen (spec/45_cp0_system.md R491), once CP0 is usable. -/
  | cacheUndefined
  deriving DecidableEq, Repr

/-- Major opcode, bits 31:26 (R221). -/
def opOf (w : Word) : BitVec 6 := w.extractLsb' 26 6
/-- Bits 25:21 (rs, base, fmt). -/
def rsOf (w : Word) : BitVec 5 := w.extractLsb' 21 5
/-- Bits 20:16 (rt, ft, index, hint, REGIMM code, CACHE operation). -/
def rtOf (w : Word) : BitVec 5 := w.extractLsb' 16 5
/-- Bits 15:11 (rd, fs, hint of PREFX). -/
def rdOf (w : Word) : BitVec 5 := w.extractLsb' 11 5
/-- Bits 10:6 (shift amount, fd). -/
def saOf (w : Word) : BitVec 5 := w.extractLsb' 6 5
/-- Bits 5:0, the function. -/
def fnOf (w : Word) : BitVec 6 := w.extractLsb' 0 6
/-- Bits 15:0, the immediate or offset. -/
def immOf (w : Word) : BitVec 16 := w.extractLsb' 0 16
/-- Bits 25:0, the target of J and JAL. -/
def targetOf (w : Word) : BitVec 26 := w.extractLsb' 0 26
/-- Bits 15:6, the code of the register traps. -/
def code10Of (w : Word) : BitVec 10 := w.extractLsb' 6 10
/-- The condition-code number in the upper three bits of a five-bit field. -/
def ccOf (f : BitVec 5) : BitVec 3 := f.extractLsb' 2 3

/-- The instruction, if the fields that must be zero are (`zero`); else the rejection that names its class. -/
def mustBeZero (unit : CopClass) (zero : Bool) (i : Instr) : Except DecodeError Instr :=
  if zero then .ok i else .error (.mustBeZero unit)

/-- The class SPECIAL, by bits 5:0 (R228); MOVCI takes its sense from bit 16. -/
def decodeSpecial (w : Word) : Except DecodeError Instr :=
  if fnOf w = 0#6 then mustBeZero .none (rsOf w == 0) (.sll (rdOf w) (rtOf w) (saOf w))
  else if fnOf w = 1#6 then (if (rtOf w).getLsbD 0 then mustBeZero .cop1 (!(rtOf w).getLsbD 1 && saOf w == 0) (.movt (rdOf w) (rsOf w) (ccOf (rtOf w)))
      else mustBeZero .cop1 (!(rtOf w).getLsbD 1 && saOf w == 0) (.movf (rdOf w) (rsOf w) (ccOf (rtOf w))))
  else if fnOf w = 2#6 then mustBeZero .none (rsOf w == 0) (.srl (rdOf w) (rtOf w) (saOf w))
  else if fnOf w = 3#6 then mustBeZero .none (rsOf w == 0) (.sra (rdOf w) (rtOf w) (saOf w))
  else if fnOf w = 4#6 then mustBeZero .none (saOf w == 0) (.sllv (rdOf w) (rtOf w) (rsOf w))
  else if fnOf w = 6#6 then mustBeZero .none (saOf w == 0) (.srlv (rdOf w) (rtOf w) (rsOf w))
  else if fnOf w = 7#6 then mustBeZero .none (saOf w == 0) (.srav (rdOf w) (rtOf w) (rsOf w))
  else if fnOf w = 8#6 then mustBeZero .none (rtOf w == 0 && rdOf w == 0 && saOf w == 0) (.jr (rsOf w))
  else if fnOf w = 9#6 then mustBeZero .none (rtOf w == 0 && saOf w == 0) (.jalr (rdOf w) (rsOf w))
  else if fnOf w = 10#6 then mustBeZero .none (saOf w == 0) (.movz (rdOf w) (rsOf w) (rtOf w))
  else if fnOf w = 11#6 then mustBeZero .none (saOf w == 0) (.movn (rdOf w) (rsOf w) (rtOf w))
  else if fnOf w = 12#6 then .ok (.syscall)
  else if fnOf w = 13#6 then .ok (.brk)
  else if fnOf w = 15#6 then mustBeZero .none (rsOf w == 0 && rtOf w == 0 && rdOf w == 0 && saOf w == 0) (.sync)
  else if fnOf w = 16#6 then mustBeZero .none (rsOf w == 0 && rtOf w == 0 && saOf w == 0) (.mfhi (rdOf w))
  else if fnOf w = 17#6 then mustBeZero .none (rtOf w == 0 && rdOf w == 0 && saOf w == 0) (.mthi (rsOf w))
  else if fnOf w = 18#6 then mustBeZero .none (rsOf w == 0 && rtOf w == 0 && saOf w == 0) (.mflo (rdOf w))
  else if fnOf w = 19#6 then mustBeZero .none (rtOf w == 0 && rdOf w == 0 && saOf w == 0) (.mtlo (rsOf w))
  else if fnOf w = 20#6 then mustBeZero .none (saOf w == 0) (.dsllv (rdOf w) (rtOf w) (rsOf w))
  else if fnOf w = 22#6 then mustBeZero .none (saOf w == 0) (.dsrlv (rdOf w) (rtOf w) (rsOf w))
  else if fnOf w = 23#6 then mustBeZero .none (saOf w == 0) (.dsrav (rdOf w) (rtOf w) (rsOf w))
  else if fnOf w = 24#6 then mustBeZero .none (rdOf w == 0 && saOf w == 0) (.mult (rsOf w) (rtOf w))
  else if fnOf w = 25#6 then mustBeZero .none (rdOf w == 0 && saOf w == 0) (.multu (rsOf w) (rtOf w))
  else if fnOf w = 26#6 then mustBeZero .none (rdOf w == 0 && saOf w == 0) (.div (rsOf w) (rtOf w))
  else if fnOf w = 27#6 then mustBeZero .none (rdOf w == 0 && saOf w == 0) (.divu (rsOf w) (rtOf w))
  else if fnOf w = 28#6 then mustBeZero .none (rdOf w == 0 && saOf w == 0) (.dmult (rsOf w) (rtOf w))
  else if fnOf w = 29#6 then mustBeZero .none (rdOf w == 0 && saOf w == 0) (.dmultu (rsOf w) (rtOf w))
  else if fnOf w = 30#6 then mustBeZero .none (rdOf w == 0 && saOf w == 0) (.ddiv (rsOf w) (rtOf w))
  else if fnOf w = 31#6 then mustBeZero .none (rdOf w == 0 && saOf w == 0) (.ddivu (rsOf w) (rtOf w))
  else if fnOf w = 32#6 then mustBeZero .none (saOf w == 0) (.add (rdOf w) (rsOf w) (rtOf w))
  else if fnOf w = 33#6 then mustBeZero .none (saOf w == 0) (.addu (rdOf w) (rsOf w) (rtOf w))
  else if fnOf w = 34#6 then mustBeZero .none (saOf w == 0) (.sub (rdOf w) (rsOf w) (rtOf w))
  else if fnOf w = 35#6 then mustBeZero .none (saOf w == 0) (.subu (rdOf w) (rsOf w) (rtOf w))
  else if fnOf w = 36#6 then mustBeZero .none (saOf w == 0) (.and (rdOf w) (rsOf w) (rtOf w))
  else if fnOf w = 37#6 then mustBeZero .none (saOf w == 0) (.or (rdOf w) (rsOf w) (rtOf w))
  else if fnOf w = 38#6 then mustBeZero .none (saOf w == 0) (.xor (rdOf w) (rsOf w) (rtOf w))
  else if fnOf w = 39#6 then mustBeZero .none (saOf w == 0) (.nor (rdOf w) (rsOf w) (rtOf w))
  else if fnOf w = 42#6 then mustBeZero .none (saOf w == 0) (.slt (rdOf w) (rsOf w) (rtOf w))
  else if fnOf w = 43#6 then mustBeZero .none (saOf w == 0) (.sltu (rdOf w) (rsOf w) (rtOf w))
  else if fnOf w = 44#6 then mustBeZero .none (saOf w == 0) (.dadd (rdOf w) (rsOf w) (rtOf w))
  else if fnOf w = 45#6 then mustBeZero .none (saOf w == 0) (.daddu (rdOf w) (rsOf w) (rtOf w))
  else if fnOf w = 46#6 then mustBeZero .none (saOf w == 0) (.dsub (rdOf w) (rsOf w) (rtOf w))
  else if fnOf w = 47#6 then mustBeZero .none (saOf w == 0) (.dsubu (rdOf w) (rsOf w) (rtOf w))
  else if fnOf w = 48#6 then .ok (.tge (rsOf w) (rtOf w) (code10Of w))
  else if fnOf w = 49#6 then .ok (.tgeu (rsOf w) (rtOf w) (code10Of w))
  else if fnOf w = 50#6 then .ok (.tlt (rsOf w) (rtOf w) (code10Of w))
  else if fnOf w = 51#6 then .ok (.tltu (rsOf w) (rtOf w) (code10Of w))
  else if fnOf w = 52#6 then .ok (.teq (rsOf w) (rtOf w) (code10Of w))
  else if fnOf w = 54#6 then .ok (.tne (rsOf w) (rtOf w) (code10Of w))
  else if fnOf w = 56#6 then mustBeZero .none (rsOf w == 0) (.dsll (rdOf w) (rtOf w) (saOf w))
  else if fnOf w = 58#6 then mustBeZero .none (rsOf w == 0) (.dsrl (rdOf w) (rtOf w) (saOf w))
  else if fnOf w = 59#6 then mustBeZero .none (rsOf w == 0) (.dsra (rdOf w) (rtOf w) (saOf w))
  else if fnOf w = 60#6 then mustBeZero .none (rsOf w == 0) (.dsll32 (rdOf w) (rtOf w) (saOf w))
  else if fnOf w = 62#6 then mustBeZero .none (rsOf w == 0) (.dsrl32 (rdOf w) (rtOf w) (saOf w))
  else if fnOf w = 63#6 then mustBeZero .none (rsOf w == 0) (.dsra32 (rdOf w) (rtOf w) (saOf w))
  else .error .reserved

/-- The class REGIMM, by bits 20:16 (R229). -/
def decodeRegimm (w : Word) : Except DecodeError Instr :=
  if rtOf w = 0#5 then .ok (.bltz (rsOf w) (immOf w))
  else if rtOf w = 1#5 then .ok (.bgez (rsOf w) (immOf w))
  else if rtOf w = 2#5 then .ok (.bltzl (rsOf w) (immOf w))
  else if rtOf w = 3#5 then .ok (.bgezl (rsOf w) (immOf w))
  else if rtOf w = 8#5 then .ok (.tgei (rsOf w) (immOf w))
  else if rtOf w = 9#5 then .ok (.tgeiu (rsOf w) (immOf w))
  else if rtOf w = 10#5 then .ok (.tlti (rsOf w) (immOf w))
  else if rtOf w = 11#5 then .ok (.tltiu (rsOf w) (immOf w))
  else if rtOf w = 12#5 then .ok (.teqi (rsOf w) (immOf w))
  else if rtOf w = 14#5 then .ok (.tnei (rsOf w) (immOf w))
  else if rtOf w = 16#5 then .ok (.bltzal (rsOf w) (immOf w))
  else if rtOf w = 17#5 then .ok (.bgezal (rsOf w) (immOf w))
  else if rtOf w = 18#5 then .ok (.bltzall (rsOf w) (immOf w))
  else if rtOf w = 19#5 then .ok (.bgezall (rsOf w) (immOf w))
  else .error .reserved

/-- A COP0 word with bit 25 set, by bits 5:0 (R230). -/
def decodeCop0Operation (w : Word) : Except DecodeError Instr :=
  if fnOf w = 1#6 then mustBeZero .cop0 (rsOf w == 16#5 && rtOf w == 0 && rdOf w == 0 && saOf w == 0) (.tlbr)
  else if fnOf w = 2#6 then mustBeZero .cop0 (rsOf w == 16#5 && rtOf w == 0 && rdOf w == 0 && saOf w == 0) (.tlbwi)
  else if fnOf w = 6#6 then mustBeZero .cop0 (rsOf w == 16#5 && rtOf w == 0 && rdOf w == 0 && saOf w == 0) (.tlbwr)
  else if fnOf w = 8#6 then mustBeZero .cop0 (rsOf w == 16#5 && rtOf w == 0 && rdOf w == 0 && saOf w == 0) (.tlbp)
  else if fnOf w = 24#6 then mustBeZero .cop0 (rsOf w == 16#5 && rtOf w == 0 && rdOf w == 0 && saOf w == 0) (.eret)
  else if fnOf w = 32#6 then mustBeZero .cop0 (rsOf w == 16#5 && rtOf w == 0 && rdOf w == 0 && saOf w == 0) (.wait)
  else .error .cop0Undefined

/-- The class COP0 (R230, R235 (a)). -/
def decodeCop0 (w : Word) : Except DecodeError Instr :=
  if (rsOf w).getLsbD 4 then decodeCop0Operation w
  else if rsOf w = 0#5 then mustBeZero .cop0 (saOf w == 0 && fnOf w == 0) (.mfc0 (rtOf w) (rdOf w))
  else if rsOf w = 4#5 then mustBeZero .cop0 (saOf w == 0 && fnOf w == 0) (.mtc0 (rtOf w) (rdOf w))
  else if rsOf w = 1#5 then mustBeZero .cop0 (saOf w == 0 && fnOf w == 0) (.dmfc0 (rtOf w) (rdOf w))
  else if rsOf w = 5#5 then mustBeZero .cop0 (saOf w == 0 && fnOf w == 0) (.dmtc0 (rtOf w) (rdOf w))
  else .error .cop0Undefined

/-- BC1, by bits 17:16 (R231). -/
def decodeBc1 (w : Word) : Except DecodeError Instr :=
  if (rtOf w).extractLsb' 0 2 = 0#2 then .ok (.bc1f (ccOf (rtOf w)) (immOf w))
  else if (rtOf w).extractLsb' 0 2 = 1#2 then .ok (.bc1t (ccOf (rtOf w)) (immOf w))
  else if (rtOf w).extractLsb' 0 2 = 2#2 then .ok (.bc1fl (ccOf (rtOf w)) (immOf w))
  else .ok (.bc1tl (ccOf (rtOf w)) (immOf w))

/-- The format S of the class COP1, by bits 5:0 (R231, R232). -/
def decodeCop1S (w : Word) : Except DecodeError Instr :=
  if fnOf w = 0#6 then .ok (.addS (saOf w) (rdOf w) (rtOf w))
  else if fnOf w = 1#6 then .ok (.subS (saOf w) (rdOf w) (rtOf w))
  else if fnOf w = 2#6 then .ok (.mulS (saOf w) (rdOf w) (rtOf w))
  else if fnOf w = 3#6 then .ok (.divS (saOf w) (rdOf w) (rtOf w))
  else if fnOf w = 4#6 then mustBeZero .cop1 (rtOf w == 0) (.sqrtS (saOf w) (rdOf w))
  else if fnOf w = 5#6 then mustBeZero .cop1 (rtOf w == 0) (.absS (saOf w) (rdOf w))
  else if fnOf w = 6#6 then mustBeZero .cop1 (rtOf w == 0) (.movS (saOf w) (rdOf w))
  else if fnOf w = 7#6 then mustBeZero .cop1 (rtOf w == 0) (.negS (saOf w) (rdOf w))
  else if fnOf w = 8#6 then mustBeZero .cop1 (rtOf w == 0) (.roundLS (saOf w) (rdOf w))
  else if fnOf w = 9#6 then mustBeZero .cop1 (rtOf w == 0) (.truncLS (saOf w) (rdOf w))
  else if fnOf w = 10#6 then mustBeZero .cop1 (rtOf w == 0) (.ceilLS (saOf w) (rdOf w))
  else if fnOf w = 11#6 then mustBeZero .cop1 (rtOf w == 0) (.floorLS (saOf w) (rdOf w))
  else if fnOf w = 12#6 then mustBeZero .cop1 (rtOf w == 0) (.roundWS (saOf w) (rdOf w))
  else if fnOf w = 13#6 then mustBeZero .cop1 (rtOf w == 0) (.truncWS (saOf w) (rdOf w))
  else if fnOf w = 14#6 then mustBeZero .cop1 (rtOf w == 0) (.ceilWS (saOf w) (rdOf w))
  else if fnOf w = 15#6 then mustBeZero .cop1 (rtOf w == 0) (.floorWS (saOf w) (rdOf w))
  else if fnOf w = 17#6 then (if (rtOf w).getLsbD 0 then mustBeZero .cop1 (!(rtOf w).getLsbD 1) (.movtS (saOf w) (rdOf w) (ccOf (rtOf w)))
      else mustBeZero .cop1 (!(rtOf w).getLsbD 1) (.movfS (saOf w) (rdOf w) (ccOf (rtOf w))))
  else if fnOf w = 18#6 then .ok (.movzS (saOf w) (rdOf w) (rtOf w))
  else if fnOf w = 19#6 then .ok (.movnS (saOf w) (rdOf w) (rtOf w))
  else if fnOf w = 21#6 then mustBeZero .cop1 (rtOf w == 0) (.recipS (saOf w) (rdOf w))
  else if fnOf w = 22#6 then mustBeZero .cop1 (rtOf w == 0) (.rsqrtS (saOf w) (rdOf w))
  else if fnOf w = 33#6 then mustBeZero .cop1 (rtOf w == 0) (.cvtDS (saOf w) (rdOf w))
  else if fnOf w = 36#6 then mustBeZero .cop1 (rtOf w == 0) (.cvtWS (saOf w) (rdOf w))
  else if fnOf w = 37#6 then mustBeZero .cop1 (rtOf w == 0) (.cvtLS (saOf w) (rdOf w))
  else if fnOf w = 48#6 then mustBeZero .cop1 ((saOf w).extractLsb' 0 2 == 0) (.cFS (ccOf (saOf w)) (rdOf w) (rtOf w))
  else if fnOf w = 49#6 then mustBeZero .cop1 ((saOf w).extractLsb' 0 2 == 0) (.cUnS (ccOf (saOf w)) (rdOf w) (rtOf w))
  else if fnOf w = 50#6 then mustBeZero .cop1 ((saOf w).extractLsb' 0 2 == 0) (.cEqS (ccOf (saOf w)) (rdOf w) (rtOf w))
  else if fnOf w = 51#6 then mustBeZero .cop1 ((saOf w).extractLsb' 0 2 == 0) (.cUeqS (ccOf (saOf w)) (rdOf w) (rtOf w))
  else if fnOf w = 52#6 then mustBeZero .cop1 ((saOf w).extractLsb' 0 2 == 0) (.cOltS (ccOf (saOf w)) (rdOf w) (rtOf w))
  else if fnOf w = 53#6 then mustBeZero .cop1 ((saOf w).extractLsb' 0 2 == 0) (.cUltS (ccOf (saOf w)) (rdOf w) (rtOf w))
  else if fnOf w = 54#6 then mustBeZero .cop1 ((saOf w).extractLsb' 0 2 == 0) (.cOleS (ccOf (saOf w)) (rdOf w) (rtOf w))
  else if fnOf w = 55#6 then mustBeZero .cop1 ((saOf w).extractLsb' 0 2 == 0) (.cUleS (ccOf (saOf w)) (rdOf w) (rtOf w))
  else if fnOf w = 56#6 then mustBeZero .cop1 ((saOf w).extractLsb' 0 2 == 0) (.cSfS (ccOf (saOf w)) (rdOf w) (rtOf w))
  else if fnOf w = 57#6 then mustBeZero .cop1 ((saOf w).extractLsb' 0 2 == 0) (.cNgleS (ccOf (saOf w)) (rdOf w) (rtOf w))
  else if fnOf w = 58#6 then mustBeZero .cop1 ((saOf w).extractLsb' 0 2 == 0) (.cSeqS (ccOf (saOf w)) (rdOf w) (rtOf w))
  else if fnOf w = 59#6 then mustBeZero .cop1 ((saOf w).extractLsb' 0 2 == 0) (.cNglS (ccOf (saOf w)) (rdOf w) (rtOf w))
  else if fnOf w = 60#6 then mustBeZero .cop1 ((saOf w).extractLsb' 0 2 == 0) (.cLtS (ccOf (saOf w)) (rdOf w) (rtOf w))
  else if fnOf w = 61#6 then mustBeZero .cop1 ((saOf w).extractLsb' 0 2 == 0) (.cNgeS (ccOf (saOf w)) (rdOf w) (rtOf w))
  else if fnOf w = 62#6 then mustBeZero .cop1 ((saOf w).extractLsb' 0 2 == 0) (.cLeS (ccOf (saOf w)) (rdOf w) (rtOf w))
  else if fnOf w = 63#6 then mustBeZero .cop1 ((saOf w).extractLsb' 0 2 == 0) (.cNgtS (ccOf (saOf w)) (rdOf w) (rtOf w))
  else .error .cop1Undefined

/-- The format D of the class COP1, by bits 5:0 (R231, R232). -/
def decodeCop1D (w : Word) : Except DecodeError Instr :=
  if fnOf w = 0#6 then .ok (.addD (saOf w) (rdOf w) (rtOf w))
  else if fnOf w = 1#6 then .ok (.subD (saOf w) (rdOf w) (rtOf w))
  else if fnOf w = 2#6 then .ok (.mulD (saOf w) (rdOf w) (rtOf w))
  else if fnOf w = 3#6 then .ok (.divD (saOf w) (rdOf w) (rtOf w))
  else if fnOf w = 4#6 then mustBeZero .cop1 (rtOf w == 0) (.sqrtD (saOf w) (rdOf w))
  else if fnOf w = 5#6 then mustBeZero .cop1 (rtOf w == 0) (.absD (saOf w) (rdOf w))
  else if fnOf w = 6#6 then mustBeZero .cop1 (rtOf w == 0) (.movD (saOf w) (rdOf w))
  else if fnOf w = 7#6 then mustBeZero .cop1 (rtOf w == 0) (.negD (saOf w) (rdOf w))
  else if fnOf w = 8#6 then mustBeZero .cop1 (rtOf w == 0) (.roundLD (saOf w) (rdOf w))
  else if fnOf w = 9#6 then mustBeZero .cop1 (rtOf w == 0) (.truncLD (saOf w) (rdOf w))
  else if fnOf w = 10#6 then mustBeZero .cop1 (rtOf w == 0) (.ceilLD (saOf w) (rdOf w))
  else if fnOf w = 11#6 then mustBeZero .cop1 (rtOf w == 0) (.floorLD (saOf w) (rdOf w))
  else if fnOf w = 12#6 then mustBeZero .cop1 (rtOf w == 0) (.roundWD (saOf w) (rdOf w))
  else if fnOf w = 13#6 then mustBeZero .cop1 (rtOf w == 0) (.truncWD (saOf w) (rdOf w))
  else if fnOf w = 14#6 then mustBeZero .cop1 (rtOf w == 0) (.ceilWD (saOf w) (rdOf w))
  else if fnOf w = 15#6 then mustBeZero .cop1 (rtOf w == 0) (.floorWD (saOf w) (rdOf w))
  else if fnOf w = 17#6 then (if (rtOf w).getLsbD 0 then mustBeZero .cop1 (!(rtOf w).getLsbD 1) (.movtD (saOf w) (rdOf w) (ccOf (rtOf w)))
      else mustBeZero .cop1 (!(rtOf w).getLsbD 1) (.movfD (saOf w) (rdOf w) (ccOf (rtOf w))))
  else if fnOf w = 18#6 then .ok (.movzD (saOf w) (rdOf w) (rtOf w))
  else if fnOf w = 19#6 then .ok (.movnD (saOf w) (rdOf w) (rtOf w))
  else if fnOf w = 21#6 then mustBeZero .cop1 (rtOf w == 0) (.recipD (saOf w) (rdOf w))
  else if fnOf w = 22#6 then mustBeZero .cop1 (rtOf w == 0) (.rsqrtD (saOf w) (rdOf w))
  else if fnOf w = 32#6 then mustBeZero .cop1 (rtOf w == 0) (.cvtSD (saOf w) (rdOf w))
  else if fnOf w = 36#6 then mustBeZero .cop1 (rtOf w == 0) (.cvtWD (saOf w) (rdOf w))
  else if fnOf w = 37#6 then mustBeZero .cop1 (rtOf w == 0) (.cvtLD (saOf w) (rdOf w))
  else if fnOf w = 48#6 then mustBeZero .cop1 ((saOf w).extractLsb' 0 2 == 0) (.cFD (ccOf (saOf w)) (rdOf w) (rtOf w))
  else if fnOf w = 49#6 then mustBeZero .cop1 ((saOf w).extractLsb' 0 2 == 0) (.cUnD (ccOf (saOf w)) (rdOf w) (rtOf w))
  else if fnOf w = 50#6 then mustBeZero .cop1 ((saOf w).extractLsb' 0 2 == 0) (.cEqD (ccOf (saOf w)) (rdOf w) (rtOf w))
  else if fnOf w = 51#6 then mustBeZero .cop1 ((saOf w).extractLsb' 0 2 == 0) (.cUeqD (ccOf (saOf w)) (rdOf w) (rtOf w))
  else if fnOf w = 52#6 then mustBeZero .cop1 ((saOf w).extractLsb' 0 2 == 0) (.cOltD (ccOf (saOf w)) (rdOf w) (rtOf w))
  else if fnOf w = 53#6 then mustBeZero .cop1 ((saOf w).extractLsb' 0 2 == 0) (.cUltD (ccOf (saOf w)) (rdOf w) (rtOf w))
  else if fnOf w = 54#6 then mustBeZero .cop1 ((saOf w).extractLsb' 0 2 == 0) (.cOleD (ccOf (saOf w)) (rdOf w) (rtOf w))
  else if fnOf w = 55#6 then mustBeZero .cop1 ((saOf w).extractLsb' 0 2 == 0) (.cUleD (ccOf (saOf w)) (rdOf w) (rtOf w))
  else if fnOf w = 56#6 then mustBeZero .cop1 ((saOf w).extractLsb' 0 2 == 0) (.cSfD (ccOf (saOf w)) (rdOf w) (rtOf w))
  else if fnOf w = 57#6 then mustBeZero .cop1 ((saOf w).extractLsb' 0 2 == 0) (.cNgleD (ccOf (saOf w)) (rdOf w) (rtOf w))
  else if fnOf w = 58#6 then mustBeZero .cop1 ((saOf w).extractLsb' 0 2 == 0) (.cSeqD (ccOf (saOf w)) (rdOf w) (rtOf w))
  else if fnOf w = 59#6 then mustBeZero .cop1 ((saOf w).extractLsb' 0 2 == 0) (.cNglD (ccOf (saOf w)) (rdOf w) (rtOf w))
  else if fnOf w = 60#6 then mustBeZero .cop1 ((saOf w).extractLsb' 0 2 == 0) (.cLtD (ccOf (saOf w)) (rdOf w) (rtOf w))
  else if fnOf w = 61#6 then mustBeZero .cop1 ((saOf w).extractLsb' 0 2 == 0) (.cNgeD (ccOf (saOf w)) (rdOf w) (rtOf w))
  else if fnOf w = 62#6 then mustBeZero .cop1 ((saOf w).extractLsb' 0 2 == 0) (.cLeD (ccOf (saOf w)) (rdOf w) (rtOf w))
  else if fnOf w = 63#6 then mustBeZero .cop1 ((saOf w).extractLsb' 0 2 == 0) (.cNgtD (ccOf (saOf w)) (rdOf w) (rtOf w))
  else .error .cop1Undefined

/-- The format W of the class COP1, by bits 5:0 (R231, R232). -/
def decodeCop1W (w : Word) : Except DecodeError Instr :=
  if fnOf w = 32#6 then mustBeZero .cop1 (rtOf w == 0) (.cvtSW (saOf w) (rdOf w))
  else if fnOf w = 33#6 then mustBeZero .cop1 (rtOf w == 0) (.cvtDW (saOf w) (rdOf w))
  else .error .cop1Undefined

/-- The format L of the class COP1, by bits 5:0 (R231, R232). -/
def decodeCop1L (w : Word) : Except DecodeError Instr :=
  if fnOf w = 32#6 then mustBeZero .cop1 (rtOf w == 0) (.cvtSL (saOf w) (rdOf w))
  else if fnOf w = 33#6 then mustBeZero .cop1 (rtOf w == 0) (.cvtDL (saOf w) (rdOf w))
  else .error .cop1Undefined

/-- The class COP1, by bits 25:21 (R231, R235 (c)). -/
def decodeCop1 (w : Word) : Except DecodeError Instr :=
  if rsOf w = 0#5 then mustBeZero .cop1 (saOf w == 0 && fnOf w == 0) (.mfc1 (rtOf w) (rdOf w))
  else if rsOf w = 4#5 then mustBeZero .cop1 (saOf w == 0 && fnOf w == 0) (.mtc1 (rtOf w) (rdOf w))
  else if rsOf w = 1#5 then mustBeZero .cop1 (saOf w == 0 && fnOf w == 0) (.dmfc1 (rtOf w) (rdOf w))
  else if rsOf w = 5#5 then mustBeZero .cop1 (saOf w == 0 && fnOf w == 0) (.dmtc1 (rtOf w) (rdOf w))
  else if rsOf w = 2#5 then mustBeZero .cop1 (saOf w == 0 && fnOf w == 0) (.cfc1 (rtOf w) (rdOf w))
  else if rsOf w = 6#5 then mustBeZero .cop1 (saOf w == 0 && fnOf w == 0) (.ctc1 (rtOf w) (rdOf w))
  else if rsOf w = 8#5 then decodeBc1 w
  else if rsOf w = 16#5 then decodeCop1S w
  else if rsOf w = 17#5 then decodeCop1D w
  else if rsOf w = 20#5 then decodeCop1W w
  else if rsOf w = 21#5 then decodeCop1L w
  else .error .cop1Undefined

/-- The class COP1X, by bits 5:0 (R233). -/
def decodeCop1x (w : Word) : Except DecodeError Instr :=
  if fnOf w = 0#6 then mustBeZero .cop1 (rdOf w == 0) (.lwxc1 (saOf w) (rtOf w) (rsOf w))
  else if fnOf w = 1#6 then mustBeZero .cop1 (rdOf w == 0) (.ldxc1 (saOf w) (rtOf w) (rsOf w))
  else if fnOf w = 8#6 then mustBeZero .cop1 (saOf w == 0) (.swxc1 (rdOf w) (rtOf w) (rsOf w))
  else if fnOf w = 9#6 then mustBeZero .cop1 (saOf w == 0) (.sdxc1 (rdOf w) (rtOf w) (rsOf w))
  else if fnOf w = 32#6 then .ok (.maddS (saOf w) (rsOf w) (rdOf w) (rtOf w))
  else if fnOf w = 33#6 then .ok (.maddD (saOf w) (rsOf w) (rdOf w) (rtOf w))
  else if fnOf w = 40#6 then .ok (.msubS (saOf w) (rsOf w) (rdOf w) (rtOf w))
  else if fnOf w = 41#6 then .ok (.msubD (saOf w) (rsOf w) (rdOf w) (rtOf w))
  else if fnOf w = 48#6 then .ok (.nmaddS (saOf w) (rsOf w) (rdOf w) (rtOf w))
  else if fnOf w = 49#6 then .ok (.nmaddD (saOf w) (rsOf w) (rdOf w) (rtOf w))
  else if fnOf w = 56#6 then .ok (.nmsubS (saOf w) (rsOf w) (rdOf w) (rtOf w))
  else if fnOf w = 57#6 then .ok (.nmsubD (saOf w) (rsOf w) (rdOf w) (rtOf w))
  else if fnOf w = 15#6 then mustBeZero .cop1 (saOf w == 0) (.prefx)
  else .error .cop1Undefined

/-- CACHE, by the operation in bits 20:16 (spec/45_cp0_system.md R491). -/
def decodeCache (w : Word) : Except DecodeError Instr :=
  if rtOf w = 0#5 then .ok (.cacheIIndexInvalidate (immOf w) (rsOf w))
  else if rtOf w = 4#5 then .ok (.cacheIIndexLoadTag (immOf w) (rsOf w))
  else if rtOf w = 8#5 then .ok (.cacheIIndexStoreTag (immOf w) (rsOf w))
  else if rtOf w = 16#5 then .ok (.cacheIHitInvalidate (immOf w) (rsOf w))
  else if rtOf w = 20#5 then .ok (.cacheIFill (immOf w) (rsOf w))
  else if rtOf w = 24#5 then .ok (.cacheIHitWriteback (immOf w) (rsOf w))
  else if rtOf w = 1#5 then .ok (.cacheDIndexWritebackInvalidate (immOf w) (rsOf w))
  else if rtOf w = 5#5 then .ok (.cacheDIndexLoadTag (immOf w) (rsOf w))
  else if rtOf w = 9#5 then .ok (.cacheDIndexStoreTag (immOf w) (rsOf w))
  else if rtOf w = 13#5 then .ok (.cacheDCreateDirtyExclusive (immOf w) (rsOf w))
  else if rtOf w = 17#5 then .ok (.cacheDHitInvalidate (immOf w) (rsOf w))
  else if rtOf w = 21#5 then .ok (.cacheDHitWritebackInvalidate (immOf w) (rsOf w))
  else if rtOf w = 25#5 then .ok (.cacheDHitWriteback (immOf w) (rsOf w))
  else if rtOf w = 3#5 then .ok (.cacheSValidClear (immOf w) (rsOf w))
  else if rtOf w = 7#5 then .ok (.cacheSIndexLoadTag (immOf w) (rsOf w))
  else if rtOf w = 11#5 then .ok (.cacheSIndexStoreTag (immOf w) (rsOf w))
  else if rtOf w = 23#5 then .ok (.cacheSCachePageInvalidate (immOf w) (rsOf w))
  else .error .cacheUndefined

/-- The instruction a word stands for: the class by bits 31:26, then the class's own selector (R225, R227). -/
def decodeWord (w : Word) : Except DecodeError Instr :=
  if opOf w = 0#6 then decodeSpecial w
  else if opOf w = 1#6 then decodeRegimm w
  else if opOf w = 2#6 then .ok (.j (targetOf w))
  else if opOf w = 3#6 then .ok (.jal (targetOf w))
  else if opOf w = 4#6 then .ok (.beq (rsOf w) (rtOf w) (immOf w))
  else if opOf w = 5#6 then .ok (.bne (rsOf w) (rtOf w) (immOf w))
  else if opOf w = 6#6 then mustBeZero .none (rtOf w == 0) (.blez (rsOf w) (immOf w))
  else if opOf w = 7#6 then mustBeZero .none (rtOf w == 0) (.bgtz (rsOf w) (immOf w))
  else if opOf w = 8#6 then .ok (.addi (rtOf w) (rsOf w) (immOf w))
  else if opOf w = 9#6 then .ok (.addiu (rtOf w) (rsOf w) (immOf w))
  else if opOf w = 10#6 then .ok (.slti (rtOf w) (rsOf w) (immOf w))
  else if opOf w = 11#6 then .ok (.sltiu (rtOf w) (rsOf w) (immOf w))
  else if opOf w = 12#6 then .ok (.andi (rtOf w) (rsOf w) (immOf w))
  else if opOf w = 13#6 then .ok (.ori (rtOf w) (rsOf w) (immOf w))
  else if opOf w = 14#6 then .ok (.xori (rtOf w) (rsOf w) (immOf w))
  else if opOf w = 15#6 then mustBeZero .none (rsOf w == 0) (.lui (rtOf w) (immOf w))
  else if opOf w = 16#6 then decodeCop0 w
  else if opOf w = 17#6 then decodeCop1 w
  else if opOf w = 18#6 then .error .cop2
  else if opOf w = 19#6 then decodeCop1x w
  else if opOf w = 20#6 then .ok (.beql (rsOf w) (rtOf w) (immOf w))
  else if opOf w = 21#6 then .ok (.bnel (rsOf w) (rtOf w) (immOf w))
  else if opOf w = 22#6 then mustBeZero .none (rtOf w == 0) (.blezl (rsOf w) (immOf w))
  else if opOf w = 23#6 then mustBeZero .none (rtOf w == 0) (.bgtzl (rsOf w) (immOf w))
  else if opOf w = 24#6 then .ok (.daddi (rtOf w) (rsOf w) (immOf w))
  else if opOf w = 25#6 then .ok (.daddiu (rtOf w) (rsOf w) (immOf w))
  else if opOf w = 26#6 then .ok (.ldl (rtOf w) (immOf w) (rsOf w))
  else if opOf w = 27#6 then .ok (.ldr (rtOf w) (immOf w) (rsOf w))
  else if opOf w = 32#6 then .ok (.lb (rtOf w) (immOf w) (rsOf w))
  else if opOf w = 33#6 then .ok (.lh (rtOf w) (immOf w) (rsOf w))
  else if opOf w = 34#6 then .ok (.lwl (rtOf w) (immOf w) (rsOf w))
  else if opOf w = 35#6 then .ok (.lw (rtOf w) (immOf w) (rsOf w))
  else if opOf w = 36#6 then .ok (.lbu (rtOf w) (immOf w) (rsOf w))
  else if opOf w = 37#6 then .ok (.lhu (rtOf w) (immOf w) (rsOf w))
  else if opOf w = 38#6 then .ok (.lwr (rtOf w) (immOf w) (rsOf w))
  else if opOf w = 39#6 then .ok (.lwu (rtOf w) (immOf w) (rsOf w))
  else if opOf w = 40#6 then .ok (.sb (rtOf w) (immOf w) (rsOf w))
  else if opOf w = 41#6 then .ok (.sh (rtOf w) (immOf w) (rsOf w))
  else if opOf w = 42#6 then .ok (.swl (rtOf w) (immOf w) (rsOf w))
  else if opOf w = 43#6 then .ok (.sw (rtOf w) (immOf w) (rsOf w))
  else if opOf w = 44#6 then .ok (.sdl (rtOf w) (immOf w) (rsOf w))
  else if opOf w = 45#6 then .ok (.sdr (rtOf w) (immOf w) (rsOf w))
  else if opOf w = 46#6 then .ok (.swr (rtOf w) (immOf w) (rsOf w))
  else if opOf w = 47#6 then decodeCache w
  else if opOf w = 48#6 then .ok (.ll (rtOf w) (immOf w) (rsOf w))
  else if opOf w = 49#6 then .ok (.lwc1 (rtOf w) (immOf w) (rsOf w))
  else if opOf w = 50#6 then .error .cop2
  else if opOf w = 51#6 then .ok (.pref (rtOf w) (immOf w) (rsOf w))
  else if opOf w = 52#6 then .ok (.lld (rtOf w) (immOf w) (rsOf w))
  else if opOf w = 53#6 then .ok (.ldc1 (rtOf w) (immOf w) (rsOf w))
  else if opOf w = 54#6 then .error .cop2
  else if opOf w = 55#6 then .ok (.ld (rtOf w) (immOf w) (rsOf w))
  else if opOf w = 56#6 then .ok (.sc (rtOf w) (immOf w) (rsOf w))
  else if opOf w = 57#6 then .ok (.swc1 (rtOf w) (immOf w) (rsOf w))
  else if opOf w = 58#6 then .error .cop2
  else if opOf w = 60#6 then .ok (.scd (rtOf w) (immOf w) (rsOf w))
  else if opOf w = 61#6 then .ok (.sdc1 (rtOf w) (immOf w) (rsOf w))
  else if opOf w = 62#6 then .error .cop2
  else if opOf w = 63#6 then .ok (.sd (rtOf w) (immOf w) (rsOf w))
  else .error .reserved

/-- The word held by four bytes of memory, lowest address first, in the given byte order (spec/20_memory.md R130, R132). -/
def wordOfBytes (bigEndian : Bool) : List Byte → Option Word
  | [b0, b1, b2, b3] => some (if bigEndian then b0 ++ b1 ++ b2 ++ b3 else b3 ++ b2 ++ b1 ++ b0)
  | _ => none

/-- The four bytes of a word, lowest address first. -/
def bytesOfWord (bigEndian : Bool) (w : Word) : List Byte :=
  let be := [w.extractLsb' 24 8, w.extractLsb' 16 8, w.extractLsb' 8 8, w.extractLsb' 0 8]
  if bigEndian then be else be.reverse

/-- The decoder, total on any bytes. -/
def decode (bigEndian : Bool) (bytes : List Byte) : Except DecodeError Instr :=
  match wordOfBytes bigEndian bytes with
  | some w => decodeWord w
  | none => .error .notOneWord

/-- The instruction the decoder reads from a word of the opcode table: an instruction is one word of 32 bits
(R220), laid out here as a big-endian machine stores it. -/
def decodeTableWord (nbits w : Nat) : Option Instr :=
  match decode true (bytesOfWord true (BitVec.ofNat 32 (w % 2 ^ nbits))) with
  | .ok i => some i
  | .error _ => none

/-- An I-type word (R221). -/
def mkI (op : BitVec 6) (rs rt : BitVec 5) (imm : BitVec 16) : Word := op ++ rs ++ rt ++ imm
/-- An R-type word (R221). -/
def mkR (op : BitVec 6) (rs rt rd sa : BitVec 5) (fn : BitVec 6) : Word := op ++ rs ++ rt ++ rd ++ sa ++ fn
/-- A J-type word (R221). -/
def mkJ (op : BitVec 6) (target : BitVec 26) : Word := op ++ target
/-- A word with a 20-bit code, which the hardware ignores (R441). -/
def mkCode20 (op : BitVec 6) (code : BitVec 20) (fn : BitVec 6) : Word := op ++ code ++ fn
/-- A word with a 10-bit code (R224). -/
def mkCode10 (op : BitVec 6) (rs rt : BitVec 5) (code : BitVec 10) (fn : BitVec 6) : Word := op ++ rs ++ rt ++ code ++ fn

/-- The word of an instruction, from the encodings of R227 to R233. -/
def encode : Instr → Word
  | .lb rt offset base => mkI 32#6 base rt offset
  | .lbu rt offset base => mkI 36#6 base rt offset
  | .lh rt offset base => mkI 33#6 base rt offset
  | .lhu rt offset base => mkI 37#6 base rt offset
  | .lw rt offset base => mkI 35#6 base rt offset
  | .lwu rt offset base => mkI 39#6 base rt offset
  | .ld rt offset base => mkI 55#6 base rt offset
  | .sb rt offset base => mkI 40#6 base rt offset
  | .sh rt offset base => mkI 41#6 base rt offset
  | .sw rt offset base => mkI 43#6 base rt offset
  | .sd rt offset base => mkI 63#6 base rt offset
  | .lwl rt offset base => mkI 34#6 base rt offset
  | .lwr rt offset base => mkI 38#6 base rt offset
  | .ldl rt offset base => mkI 26#6 base rt offset
  | .ldr rt offset base => mkI 27#6 base rt offset
  | .swl rt offset base => mkI 42#6 base rt offset
  | .swr rt offset base => mkI 46#6 base rt offset
  | .sdl rt offset base => mkI 44#6 base rt offset
  | .sdr rt offset base => mkI 45#6 base rt offset
  | .ll rt offset base => mkI 48#6 base rt offset
  | .lld rt offset base => mkI 52#6 base rt offset
  | .sc rt offset base => mkI 56#6 base rt offset
  | .scd rt offset base => mkI 60#6 base rt offset
  | .pref hint offset base => mkI 51#6 base hint offset
  | .addi rt rs imm => mkI 8#6 rs rt imm
  | .addiu rt rs imm => mkI 9#6 rs rt imm
  | .slti rt rs imm => mkI 10#6 rs rt imm
  | .sltiu rt rs imm => mkI 11#6 rs rt imm
  | .andi rt rs imm => mkI 12#6 rs rt imm
  | .ori rt rs imm => mkI 13#6 rs rt imm
  | .xori rt rs imm => mkI 14#6 rs rt imm
  | .daddi rt rs imm => mkI 24#6 rs rt imm
  | .daddiu rt rs imm => mkI 25#6 rs rt imm
  | .lui rt imm => mkI 15#6 0#5 rt imm
  | .add rd rs rt => mkR 0#6 rs rt rd 0#5 32#6
  | .addu rd rs rt => mkR 0#6 rs rt rd 0#5 33#6
  | .sub rd rs rt => mkR 0#6 rs rt rd 0#5 34#6
  | .subu rd rs rt => mkR 0#6 rs rt rd 0#5 35#6
  | .and rd rs rt => mkR 0#6 rs rt rd 0#5 36#6
  | .or rd rs rt => mkR 0#6 rs rt rd 0#5 37#6
  | .xor rd rs rt => mkR 0#6 rs rt rd 0#5 38#6
  | .nor rd rs rt => mkR 0#6 rs rt rd 0#5 39#6
  | .slt rd rs rt => mkR 0#6 rs rt rd 0#5 42#6
  | .sltu rd rs rt => mkR 0#6 rs rt rd 0#5 43#6
  | .dadd rd rs rt => mkR 0#6 rs rt rd 0#5 44#6
  | .daddu rd rs rt => mkR 0#6 rs rt rd 0#5 45#6
  | .dsub rd rs rt => mkR 0#6 rs rt rd 0#5 46#6
  | .dsubu rd rs rt => mkR 0#6 rs rt rd 0#5 47#6
  | .sll rd rt sa => mkR 0#6 0#5 rt rd sa 0#6
  | .srl rd rt sa => mkR 0#6 0#5 rt rd sa 2#6
  | .sra rd rt sa => mkR 0#6 0#5 rt rd sa 3#6
  | .dsll rd rt sa => mkR 0#6 0#5 rt rd sa 56#6
  | .dsrl rd rt sa => mkR 0#6 0#5 rt rd sa 58#6
  | .dsra rd rt sa => mkR 0#6 0#5 rt rd sa 59#6
  | .dsll32 rd rt sa => mkR 0#6 0#5 rt rd sa 60#6
  | .dsrl32 rd rt sa => mkR 0#6 0#5 rt rd sa 62#6
  | .dsra32 rd rt sa => mkR 0#6 0#5 rt rd sa 63#6
  | .sllv rd rt rs => mkR 0#6 rs rt rd 0#5 4#6
  | .srlv rd rt rs => mkR 0#6 rs rt rd 0#5 6#6
  | .srav rd rt rs => mkR 0#6 rs rt rd 0#5 7#6
  | .dsllv rd rt rs => mkR 0#6 rs rt rd 0#5 20#6
  | .dsrlv rd rt rs => mkR 0#6 rs rt rd 0#5 22#6
  | .dsrav rd rt rs => mkR 0#6 rs rt rd 0#5 23#6
  | .mult rs rt => mkR 0#6 rs rt 0#5 0#5 24#6
  | .multu rs rt => mkR 0#6 rs rt 0#5 0#5 25#6
  | .dmult rs rt => mkR 0#6 rs rt 0#5 0#5 28#6
  | .dmultu rs rt => mkR 0#6 rs rt 0#5 0#5 29#6
  | .div rs rt => mkR 0#6 rs rt 0#5 0#5 26#6
  | .divu rs rt => mkR 0#6 rs rt 0#5 0#5 27#6
  | .ddiv rs rt => mkR 0#6 rs rt 0#5 0#5 30#6
  | .ddivu rs rt => mkR 0#6 rs rt 0#5 0#5 31#6
  | .mfhi rd => mkR 0#6 0#5 0#5 rd 0#5 16#6
  | .mthi rs => mkR 0#6 rs 0#5 0#5 0#5 17#6
  | .mflo rd => mkR 0#6 0#5 0#5 rd 0#5 18#6
  | .mtlo rs => mkR 0#6 rs 0#5 0#5 0#5 19#6
  | .movn rd rs rt => mkR 0#6 rs rt rd 0#5 11#6
  | .movz rd rs rt => mkR 0#6 rs rt rd 0#5 10#6
  | .movf rd rs cc => mkR 0#6 rs (cc ++ 0#2) rd 0#5 1#6
  | .movt rd rs cc => mkR 0#6 rs (cc ++ 1#2) rd 0#5 1#6
  | .j target => mkJ 2#6 target
  | .jal target => mkJ 3#6 target
  | .jr rs => mkR 0#6 rs 0#5 0#5 0#5 8#6
  | .jalr rd rs => mkR 0#6 rs 0#5 rd 0#5 9#6
  | .beq rs rt offset => mkI 4#6 rs rt offset
  | .bne rs rt offset => mkI 5#6 rs rt offset
  | .blez rs offset => mkI 6#6 rs 0#5 offset
  | .bgtz rs offset => mkI 7#6 rs 0#5 offset
  | .bltz rs offset => mkI 1#6 rs 0#5 offset
  | .bgez rs offset => mkI 1#6 rs 1#5 offset
  | .bltzal rs offset => mkI 1#6 rs 16#5 offset
  | .bgezal rs offset => mkI 1#6 rs 17#5 offset
  | .bltzl rs offset => mkI 1#6 rs 2#5 offset
  | .bgezl rs offset => mkI 1#6 rs 3#5 offset
  | .bltzall rs offset => mkI 1#6 rs 18#5 offset
  | .bgezall rs offset => mkI 1#6 rs 19#5 offset
  | .beql rs rt offset => mkI 20#6 rs rt offset
  | .bnel rs rt offset => mkI 21#6 rs rt offset
  | .blezl rs offset => mkI 22#6 rs 0#5 offset
  | .bgtzl rs offset => mkI 23#6 rs 0#5 offset
  | .tge rs rt code => mkCode10 0#6 rs rt code 48#6
  | .tgeu rs rt code => mkCode10 0#6 rs rt code 49#6
  | .tlt rs rt code => mkCode10 0#6 rs rt code 50#6
  | .tltu rs rt code => mkCode10 0#6 rs rt code 51#6
  | .teq rs rt code => mkCode10 0#6 rs rt code 52#6
  | .tne rs rt code => mkCode10 0#6 rs rt code 54#6
  | .tgei rs imm => mkI 1#6 rs 8#5 imm
  | .tgeiu rs imm => mkI 1#6 rs 9#5 imm
  | .tlti rs imm => mkI 1#6 rs 10#5 imm
  | .tltiu rs imm => mkI 1#6 rs 11#5 imm
  | .teqi rs imm => mkI 1#6 rs 12#5 imm
  | .tnei rs imm => mkI 1#6 rs 14#5 imm
  | .mfc0 rt rd => mkR 16#6 0#5 rt rd 0#5 0#6
  | .mtc0 rt rd => mkR 16#6 4#5 rt rd 0#5 0#6
  | .dmfc0 rt rd => mkR 16#6 1#5 rt rd 0#5 0#6
  | .dmtc0 rt rd => mkR 16#6 5#5 rt rd 0#5 0#6
  | .cacheIIndexInvalidate offset base => mkI 47#6 base 0#5 offset
  | .cacheIIndexLoadTag offset base => mkI 47#6 base 4#5 offset
  | .cacheIIndexStoreTag offset base => mkI 47#6 base 8#5 offset
  | .cacheIHitInvalidate offset base => mkI 47#6 base 16#5 offset
  | .cacheIFill offset base => mkI 47#6 base 20#5 offset
  | .cacheIHitWriteback offset base => mkI 47#6 base 24#5 offset
  | .cacheDIndexWritebackInvalidate offset base => mkI 47#6 base 1#5 offset
  | .cacheDIndexLoadTag offset base => mkI 47#6 base 5#5 offset
  | .cacheDIndexStoreTag offset base => mkI 47#6 base 9#5 offset
  | .cacheDCreateDirtyExclusive offset base => mkI 47#6 base 13#5 offset
  | .cacheDHitInvalidate offset base => mkI 47#6 base 17#5 offset
  | .cacheDHitWritebackInvalidate offset base => mkI 47#6 base 21#5 offset
  | .cacheDHitWriteback offset base => mkI 47#6 base 25#5 offset
  | .cacheSValidClear offset base => mkI 47#6 base 3#5 offset
  | .cacheSIndexLoadTag offset base => mkI 47#6 base 7#5 offset
  | .cacheSIndexStoreTag offset base => mkI 47#6 base 11#5 offset
  | .cacheSCachePageInvalidate offset base => mkI 47#6 base 23#5 offset
  | .lwc1 ft offset base => mkI 49#6 base ft offset
  | .ldc1 ft offset base => mkI 53#6 base ft offset
  | .swc1 ft offset base => mkI 57#6 base ft offset
  | .sdc1 ft offset base => mkI 61#6 base ft offset
  | .lwxc1 fd index base => mkR 19#6 base index 0#5 fd 0#6
  | .ldxc1 fd index base => mkR 19#6 base index 0#5 fd 1#6
  | .swxc1 fs index base => mkR 19#6 base index fs 0#5 8#6
  | .sdxc1 fs index base => mkR 19#6 base index fs 0#5 9#6
  | .mfc1 rt fs => mkR 17#6 0#5 rt fs 0#5 0#6
  | .mtc1 rt fs => mkR 17#6 4#5 rt fs 0#5 0#6
  | .dmfc1 rt fs => mkR 17#6 1#5 rt fs 0#5 0#6
  | .dmtc1 rt fs => mkR 17#6 5#5 rt fs 0#5 0#6
  | .cfc1 rt fs => mkR 17#6 2#5 rt fs 0#5 0#6
  | .ctc1 rt fs => mkR 17#6 6#5 rt fs 0#5 0#6
  | .movS fd fs => mkR 17#6 16#5 0#5 fs fd 6#6
  | .movD fd fs => mkR 17#6 17#5 0#5 fs fd 6#6
  | .movfS fd fs cc => mkR 17#6 16#5 (cc ++ 0#2) fs fd 17#6
  | .movtS fd fs cc => mkR 17#6 16#5 (cc ++ 1#2) fs fd 17#6
  | .movzS fd fs rt => mkR 17#6 16#5 rt fs fd 18#6
  | .movnS fd fs rt => mkR 17#6 16#5 rt fs fd 19#6
  | .movfD fd fs cc => mkR 17#6 17#5 (cc ++ 0#2) fs fd 17#6
  | .movtD fd fs cc => mkR 17#6 17#5 (cc ++ 1#2) fs fd 17#6
  | .movzD fd fs rt => mkR 17#6 17#5 rt fs fd 18#6
  | .movnD fd fs rt => mkR 17#6 17#5 rt fs fd 19#6
  | .addS fd fs ft => mkR 17#6 16#5 ft fs fd 0#6
  | .addD fd fs ft => mkR 17#6 17#5 ft fs fd 0#6
  | .subS fd fs ft => mkR 17#6 16#5 ft fs fd 1#6
  | .subD fd fs ft => mkR 17#6 17#5 ft fs fd 1#6
  | .mulS fd fs ft => mkR 17#6 16#5 ft fs fd 2#6
  | .mulD fd fs ft => mkR 17#6 17#5 ft fs fd 2#6
  | .divS fd fs ft => mkR 17#6 16#5 ft fs fd 3#6
  | .divD fd fs ft => mkR 17#6 17#5 ft fs fd 3#6
  | .sqrtS fd fs => mkR 17#6 16#5 0#5 fs fd 4#6
  | .sqrtD fd fs => mkR 17#6 17#5 0#5 fs fd 4#6
  | .absS fd fs => mkR 17#6 16#5 0#5 fs fd 5#6
  | .absD fd fs => mkR 17#6 17#5 0#5 fs fd 5#6
  | .negS fd fs => mkR 17#6 16#5 0#5 fs fd 7#6
  | .negD fd fs => mkR 17#6 17#5 0#5 fs fd 7#6
  | .recipS fd fs => mkR 17#6 16#5 0#5 fs fd 21#6
  | .recipD fd fs => mkR 17#6 17#5 0#5 fs fd 21#6
  | .rsqrtS fd fs => mkR 17#6 16#5 0#5 fs fd 22#6
  | .rsqrtD fd fs => mkR 17#6 17#5 0#5 fs fd 22#6
  | .maddS fd fr fs ft => mkR 19#6 fr ft fs fd 32#6
  | .maddD fd fr fs ft => mkR 19#6 fr ft fs fd 33#6
  | .msubS fd fr fs ft => mkR 19#6 fr ft fs fd 40#6
  | .msubD fd fr fs ft => mkR 19#6 fr ft fs fd 41#6
  | .nmaddS fd fr fs ft => mkR 19#6 fr ft fs fd 48#6
  | .nmaddD fd fr fs ft => mkR 19#6 fr ft fs fd 49#6
  | .nmsubS fd fr fs ft => mkR 19#6 fr ft fs fd 56#6
  | .nmsubD fd fr fs ft => mkR 19#6 fr ft fs fd 57#6
  | .roundWS fd fs => mkR 17#6 16#5 0#5 fs fd 12#6
  | .roundWD fd fs => mkR 17#6 17#5 0#5 fs fd 12#6
  | .truncWS fd fs => mkR 17#6 16#5 0#5 fs fd 13#6
  | .truncWD fd fs => mkR 17#6 17#5 0#5 fs fd 13#6
  | .ceilWS fd fs => mkR 17#6 16#5 0#5 fs fd 14#6
  | .ceilWD fd fs => mkR 17#6 17#5 0#5 fs fd 14#6
  | .floorWS fd fs => mkR 17#6 16#5 0#5 fs fd 15#6
  | .floorWD fd fs => mkR 17#6 17#5 0#5 fs fd 15#6
  | .cvtWS fd fs => mkR 17#6 16#5 0#5 fs fd 36#6
  | .cvtWD fd fs => mkR 17#6 17#5 0#5 fs fd 36#6
  | .roundLS fd fs => mkR 17#6 16#5 0#5 fs fd 8#6
  | .roundLD fd fs => mkR 17#6 17#5 0#5 fs fd 8#6
  | .truncLS fd fs => mkR 17#6 16#5 0#5 fs fd 9#6
  | .truncLD fd fs => mkR 17#6 17#5 0#5 fs fd 9#6
  | .ceilLS fd fs => mkR 17#6 16#5 0#5 fs fd 10#6
  | .ceilLD fd fs => mkR 17#6 17#5 0#5 fs fd 10#6
  | .floorLS fd fs => mkR 17#6 16#5 0#5 fs fd 11#6
  | .floorLD fd fs => mkR 17#6 17#5 0#5 fs fd 11#6
  | .cvtLS fd fs => mkR 17#6 16#5 0#5 fs fd 37#6
  | .cvtLD fd fs => mkR 17#6 17#5 0#5 fs fd 37#6
  | .cvtSD fd fs => mkR 17#6 17#5 0#5 fs fd 32#6
  | .cvtSW fd fs => mkR 17#6 20#5 0#5 fs fd 32#6
  | .cvtSL fd fs => mkR 17#6 21#5 0#5 fs fd 32#6
  | .cvtDS fd fs => mkR 17#6 16#5 0#5 fs fd 33#6
  | .cvtDW fd fs => mkR 17#6 20#5 0#5 fs fd 33#6
  | .cvtDL fd fs => mkR 17#6 21#5 0#5 fs fd 33#6
  | .cFS cc fs ft => mkR 17#6 16#5 ft fs (cc ++ 0#2) 48#6
  | .cFD cc fs ft => mkR 17#6 17#5 ft fs (cc ++ 0#2) 48#6
  | .cUnS cc fs ft => mkR 17#6 16#5 ft fs (cc ++ 0#2) 49#6
  | .cUnD cc fs ft => mkR 17#6 17#5 ft fs (cc ++ 0#2) 49#6
  | .cEqS cc fs ft => mkR 17#6 16#5 ft fs (cc ++ 0#2) 50#6
  | .cEqD cc fs ft => mkR 17#6 17#5 ft fs (cc ++ 0#2) 50#6
  | .cUeqS cc fs ft => mkR 17#6 16#5 ft fs (cc ++ 0#2) 51#6
  | .cUeqD cc fs ft => mkR 17#6 17#5 ft fs (cc ++ 0#2) 51#6
  | .cOltS cc fs ft => mkR 17#6 16#5 ft fs (cc ++ 0#2) 52#6
  | .cOltD cc fs ft => mkR 17#6 17#5 ft fs (cc ++ 0#2) 52#6
  | .cUltS cc fs ft => mkR 17#6 16#5 ft fs (cc ++ 0#2) 53#6
  | .cUltD cc fs ft => mkR 17#6 17#5 ft fs (cc ++ 0#2) 53#6
  | .cOleS cc fs ft => mkR 17#6 16#5 ft fs (cc ++ 0#2) 54#6
  | .cOleD cc fs ft => mkR 17#6 17#5 ft fs (cc ++ 0#2) 54#6
  | .cUleS cc fs ft => mkR 17#6 16#5 ft fs (cc ++ 0#2) 55#6
  | .cUleD cc fs ft => mkR 17#6 17#5 ft fs (cc ++ 0#2) 55#6
  | .cSfS cc fs ft => mkR 17#6 16#5 ft fs (cc ++ 0#2) 56#6
  | .cSfD cc fs ft => mkR 17#6 17#5 ft fs (cc ++ 0#2) 56#6
  | .cNgleS cc fs ft => mkR 17#6 16#5 ft fs (cc ++ 0#2) 57#6
  | .cNgleD cc fs ft => mkR 17#6 17#5 ft fs (cc ++ 0#2) 57#6
  | .cSeqS cc fs ft => mkR 17#6 16#5 ft fs (cc ++ 0#2) 58#6
  | .cSeqD cc fs ft => mkR 17#6 17#5 ft fs (cc ++ 0#2) 58#6
  | .cNglS cc fs ft => mkR 17#6 16#5 ft fs (cc ++ 0#2) 59#6
  | .cNglD cc fs ft => mkR 17#6 17#5 ft fs (cc ++ 0#2) 59#6
  | .cLtS cc fs ft => mkR 17#6 16#5 ft fs (cc ++ 0#2) 60#6
  | .cLtD cc fs ft => mkR 17#6 17#5 ft fs (cc ++ 0#2) 60#6
  | .cNgeS cc fs ft => mkR 17#6 16#5 ft fs (cc ++ 0#2) 61#6
  | .cNgeD cc fs ft => mkR 17#6 17#5 ft fs (cc ++ 0#2) 61#6
  | .cLeS cc fs ft => mkR 17#6 16#5 ft fs (cc ++ 0#2) 62#6
  | .cLeD cc fs ft => mkR 17#6 17#5 ft fs (cc ++ 0#2) 62#6
  | .cNgtS cc fs ft => mkR 17#6 16#5 ft fs (cc ++ 0#2) 63#6
  | .cNgtD cc fs ft => mkR 17#6 17#5 ft fs (cc ++ 0#2) 63#6
  | .bc1f cc offset => mkI 17#6 8#5 (cc ++ 0#2) offset
  | .bc1t cc offset => mkI 17#6 8#5 (cc ++ 1#2) offset
  | .bc1fl cc offset => mkI 17#6 8#5 (cc ++ 2#2) offset
  | .bc1tl cc offset => mkI 17#6 8#5 (cc ++ 3#2) offset
  | .syscall => mkCode20 0#6 0#20 12#6
  | .brk => mkCode20 0#6 0#20 13#6
  | .sync => mkR 0#6 0#5 0#5 0#5 0#5 15#6
  | .tlbr => mkR 16#6 16#5 0#5 0#5 0#5 1#6
  | .tlbwi => mkR 16#6 16#5 0#5 0#5 0#5 2#6
  | .tlbwr => mkR 16#6 16#5 0#5 0#5 0#5 6#6
  | .tlbp => mkR 16#6 16#5 0#5 0#5 0#5 8#6
  | .eret => mkR 16#6 16#5 0#5 0#5 0#5 24#6
  | .wait => mkR 16#6 16#5 0#5 0#5 0#5 32#6
  | .prefx => mkR 19#6 0#5 0#5 0#5 0#5 15#6

end Sys2Proof
end

