-- ==== Sys2Proof/Config.lean ====
section
/-! DEFINITION. Sys2Proof/Config.lean: what an implementation fixes (spec/93_implementation_defined.md Part B) and the free
values: constants without a body, of which nothing can be proved (log entry 2). -/

namespace Sys2Proof.Config

/-- The free values, one for each draw: what the spec leaves open, the machine goes on with (log entry 2). -/
opaque freeBits : Nat → BitVec 64

/-- The contents of cache lines the spec leaves unspecified, by generation of the cache and place in it (log entry 2). -/
opaque freeLine : Nat → Nat → BitVec 640

/-- `PRID_REV`, the revision byte of PRId (spec/10_state.md R75). -/
opaque pridRev : BitVec 8

/-- `FCR0_REV`, the revision byte of FCR0 (spec/10_state.md R112). -/
opaque fcr0Rev : BitVec 8

/-- `CP0_HAZARD_WINDOW` (spec/70_reset_and_hazards.md R870): for how many instructions a CP0 write may be unseen. -/
opaque hazardWindow : Nat

/-- `RECIP_ULP` (spec/47_fpu_arith.md R587). -/
opaque recipUlp : Nat

/-- `RSQRT_ULP` (spec/47_fpu_arith.md R588). -/
opaque rsqrtUlp : Nat

/-- `IntRegInit` (spec/10_state.md R123): the Interrupt register after a power-on or cold reset. -/
def intRegInit : BitVec 7 := 0

/-- `ReadsDrainWriteBuffer` (spec/20_memory.md R173): every read waits for the buffered writes before it. -/
def readsDrainWriteBuffer : Bool := true

/-- `IndexWayBit` (spec/45_cp0_system.md R489): the address bit that selects the way in an Index operation. PRESUMED (log entry 30). -/
def indexWayBit : Nat := 14

/-- `DefaultQNaN(S)` (spec/47_fpu_arith.md R572). PRESUMED (log entry 40). -/
def defaultQNaN32 : Word := 0x7FBFFFFF

/-- `DefaultQNaN(D)` (spec/47_fpu_arith.md R572). PRESUMED (log entry 40). -/
def defaultQNaN64 : Dword := 0x7FF7FFFFFFFFFFFF

/-- `DefaultFixed(W)` (spec/47_fpu_arith.md R600). PRESUMED (log entry 40). -/
def defaultFixed32 : Word := 0x7FFFFFFF

/-- `DefaultFixed(L)` (spec/47_fpu_arith.md R600). PRESUMED (log entry 40). -/
def defaultFixed64 : Dword := 0x7FFFFFFFFFFFFFFF

end Sys2Proof.Config
end

