-- ==== Sys2Proof/Machine/State.lean ====
section
/-! DEFINITION. Sys2Proof/Machine/State.lean: the state of the RV5000 as plain data (spec/10_state.md R20 to R128), its reset
state, the exceptions it can take, and the reasons a step can stop. What each field is and its reset value are listed in INVENTORY.md. -/

namespace Sys2Proof.Machine

/-! ## Registers of CP0 -/

/-- One half of a TLB entry as EntryLo0 and EntryLo1 hold it (R44). -/
structure EntryLo where
  pfn : BitVec 24
  c : BitVec 3
  d : Bool
  v : Bool
  g : Bool
  deriving DecidableEq, Repr

/-- EntryHi (R70): region, virtual page number of the pair, address-space identifier. -/
structure EntryHi where
  r : BitVec 2
  vpn2 : BitVec 27
  asid : BitVec 8
  deriving DecidableEq, Repr

/-- Status (R50 to R58); TS and the reserved bits always read 0 and are not stored. -/
structure StatusReg where
  cu : BitVec 4
  fr : Bool
  re : Bool
  bev : Bool
  sr : Bool
  ch : Bool
  ce : Bool
  de : Bool
  im : BitVec 8
  kx : Bool
  sx : Bool
  ux : Bool
  ksu : BitVec 2
  erl : Bool
  exl : Bool
  ie : Bool
  deriving DecidableEq, Repr

/-- The stored fields of Cause (R63 to R65); IP7:2 are live inputs and not stored here. -/
structure CauseReg where
  bd : Bool
  ce : BitVec 2
  excCode : BitVec 5
  ipSw : BitVec 2
  deriving DecidableEq, Repr

/-- CacheErr (R81): what a Cache Error exception reports. -/
structure CacheErrReg where
  er : Bool
  ec : Bool
  ed : Bool
  et : Bool
  ee : Bool
  eb : Bool
  deriving DecidableEq, Repr

/-- The registers of the system control coprocessor (R40): every one that is not constant. PRId is constant; the read-only
fields of Config come from `BootMode`. -/
structure Cp0 where
  indexP : Bool
  index : BitVec 6
  random : BitVec 6
  entryLo0 : EntryLo
  entryLo1 : EntryLo
  contextPTEBase : BitVec 41
  contextBadVPN2 : BitVec 19
  pageMask : BitVec 12
  wired : BitVec 6
  badVAddr : Dword
  count : Word
  entryHi : EntryHi
  compare : Word
  status : StatusReg
  cause : CauseReg
  epc : Dword
  configSE : Bool
  configK0 : BitVec 3
  llAddr : Word
  xcontextPTEBase : BitVec 31
  xcontextR : BitVec 2
  xcontextBadVPN2 : BitVec 27
  ecc : BitVec 8
  cacheErr : CacheErrReg
  tagLo : Word
  tagHi : Word
  errorEpc : Dword
  deriving DecidableEq, Repr

/-- The boot-mode settings (R10, spec/70_reset_and_hazards.md R860), fixed from one power-on or cold reset to the next. -/
structure BootMode where
  /-- Byte order: boot-mode bit 8 ORed with the BigEndian pin. -/
  bigEndianMem : Bool
  /-- `SysCkRatio`, 0 to 6 for divisors 2 to 8; 7 is reserved. -/
  sysCkRatio : BitVec 3
  /-- `XmitDatPat`, 0 to 8; 9 to 15 are reserved. -/
  xmitDatPat : BitVec 4
  /-- `NonBlockWrite`, 0, 2 or 3; 1 is reserved. -/
  nonBlockWrite : BitVec 2
  /-- `TmrIntEn`: true takes the timer interrupt off IP7. -/
  tmrIntEn : Bool
  /-- `ScEnable`: a secondary cache is configured. -/
  scEnable : Bool
  /-- `ScSize`: 0, 1, 2 for 512 KB, 1 MB, 2 MB; 3 is reserved. -/
  scSize : BitVec 2
  /-- `DrvOut`, electrical only. -/
  drvOut : BitVec 2
  /-- `ScFlashClear`: the tag RAM has the flash clear (spec/45_cp0_system.md R505). -/
  scFlashClear : Bool
  /-- Some reserved bit of the stream is not zero. -/
  reservedBits : Bool
  deriving DecidableEq, Repr

/-! ## TLB, floating-point control, caches, write buffer -/

/-- An entry of the TLB (R91). -/
structure TlbEntry where
  mask : BitVec 12
  r : BitVec 2
  vpn2 : BitVec 27
  asid : BitVec 8
  g : Bool
  pfn0 : BitVec 24
  c0 : BitVec 3
  d0 : Bool
  v0 : Bool
  pfn1 : BitVec 24
  c1 : BitVec 3
  d1 : Bool
  v1 : Bool
  deriving DecidableEq, Repr

/-- FCR31 (R108 to R113): condition bits FCC[7:0], FS, Cause (E V Z O U I), Enables and Flags (V Z O U I), rounding mode. -/
structure Fcr31 where
  fcc : BitVec 8
  fs : Bool
  cause : BitVec 6
  enables : BitVec 5
  flags : BitVec 5
  rm : BitVec 2
  deriving DecidableEq, Repr

/-- A line of the primary instruction cache (spec/20_memory.md R190): the tag's reserved bit and its parity bit; eight words in
memory order, a parity bit for each. -/
structure ILine where
  valid : Bool
  reserved : Bool
  tag : BitVec 24
  tagPar : Bool
  itype : BitVec 4
  data : BitVec 256
  par : BitVec 8
  deriving DecidableEq, Repr

/-- A line of the primary data cache (R190): state (0 Invalid, 3 Dirty Exclusive), W bit, the parity bit of address and state
and that of the W bit; 32 bytes in memory order (byte k of the line is bits 8k+7:8k), a parity bit for each. -/
structure DLine where
  state : BitVec 2
  tag : BitVec 24
  w : Bool
  tagPar : Bool
  wPar : Bool
  data : BitVec 256
  par : BitVec 32
  /-- Model's own: the page through which the line was filled, or last marked modified, is a write-back page (R194; log entry 55). -/
  wbPage : Bool
  deriving DecidableEq, Repr

/-- A line of the secondary cache (R194). -/
structure SLine where
  valid : Bool
  tag : BitVec 17
  data : BitVec 256
  par : BitVec 32
  deriving DecidableEq, Repr

/-- A set of the instruction cache: two ways and the FIFO bit that names the one to refill next. -/
structure ISet where
  way0 : ILine
  way1 : ILine
  fifo : Bool
  deriving DecidableEq, Repr

/-- A set of the data cache. -/
structure DSet where
  way0 : DLine
  way1 : DLine
  fifo : Bool
  deriving DecidableEq, Repr

/-- What a cache place that its list does not name holds: an invalid line; the unspecified contents of a generation; those
with the valid bit cleared. -/
inductive Unlisted where
  | invalid
  | unspecified (generation : Nat)
  | cleared (generation : Nat)
  deriving DecidableEq, Repr

/-- An entry of the write buffer (R122): up to eight bytes for one write request, or one line of 32. `vaIdx` is va[13:12],
which an address cycle carries (spec/49_system_interface.md R708); a line goes out with its check bits unchanged (R721), and to the
secondary cache too if its page is a write-back page (spec/20_memory.md R194). -/
inductive WbEntry where
  | single (pa : PAddr) (vaIdx : BitVec 2) (bytes : List Byte)
  | block (pa : PAddr) (vaIdx : BitVec 2) (retained : Bool) (wbPage : Bool) (bytes : List Byte) (par : BitVec 32)
  deriving DecidableEq, Repr

/-- What the processor puts on the System interface: its requests (spec/49_system_interface.md R700, R710), and the answer to an
external read (R716). `undef` counts to the free values that stand where the spec leaves what is driven undefined (R711, R714). -/
inductive BusRequest where
  | readBlock (pa : PAddr) (vaIdx : BitVec 2) (linkRetained : Bool) (aborted : Bool)
  | read (pa : PAddr) (vaIdx : BitVec 2) (size : Nat)
  | writeBlock (pa : PAddr) (vaIdx : BitVec 2) (retained : Bool) (bytes : List Byte) (par : BitVec 32) (undef : Nat)
  | write (pa : PAddr) (vaIdx : BitVec 2) (bytes : List Byte) (undef : Nat)
  | answer (address : Dword) (undef : Nat)
  deriving DecidableEq, Repr

/-- A data cycle the processor drives: SysCmd, SysAD, SysADC (spec/49_system_interface.md R708, R711). -/
structure BusData where
  command : BitVec 9
  data : Dword
  check : BitVec 8
  deriving DecidableEq, Repr

/-! ## Hazards (spec/70_reset_and_hazards.md R870 to R874) -/

/-- Who looks at state that a hazard can show in its old form (the table of R870). -/
inductive Consumer where
  | fetch
  | data
  | usable
  | cp0Read
  | interrupt
  | fpRegs
  | excEntry
  deriving DecidableEq, Repr

/-- What a pending hazard puts back for a consumer that still sees the old value; `code` names the bytes that a store has replaced,
which a fetch may still find (R874, spec/20_memory.md R186). -/
inductive Undo where
  | reg (n : BitVec 5) (old : Cp0)
  | tlb (i : Fin 48) (old : TlbEntry)
  | icache (set : Nat) (old : ISet)
  | timer (old : Bool)
  | code (pa : PAddr) (old : List Byte)
  deriving DecidableEq, Repr

/-- A write that may be unseen for `left` more instructions. -/
structure Hazard where
  left : Nat
  undo : Undo
  deriving DecidableEq, Repr

/-! ## The environment (spec/49_system_interface.md R740) -/

/-- What a platform has at physical addresses (spec/20_memory.md R141, R142): memory that holds what is written, memory that ignores
writes, a device, nothing. -/
inductive RegionKind where
  | memory
  | rom
  | device
  | nothing
  deriving DecidableEq, Repr

/-- A region of the physical map `PhysMap`: `size` bytes from `base` on. -/
structure Region where
  base : Nat
  size : Nat
  kind : RegionKind
  deriving DecidableEq, Repr

/-- How the external agent answers a read of this step (R705, R721). -/
structure ReadResponse where
  /-- SysCmd(5) of the first doubleword: Bus Error. -/
  erroneous : Bool
  /-- The bytes returned with bad parity, by position in the aligned 32 bytes. -/
  badParity : BitVec 32
  /-- SysCmd(4): the check bits of the first doubleword are not checked. -/
  checkOff : Bool
  /-- A parity error in the primary tag that the access reads. -/
  tagError : Bool
  /-- No response ever comes (spec/70_reset_and_hazards.md R889). -/
  unanswered : Bool
  /-- What comes back for the bytes that are a device's, or nobody's (spec/20_memory.md R141, R142), by position in the aligned 32. -/
  device : BitVec 256
  deriving DecidableEq, Repr

/-- External requests (R704). -/
inductive ExtRequest where
  | write (address : Dword) (size : Nat) (data : Dword)
  | read (address : Dword)
  | null
  deriving DecidableEq, Repr

/-- The reset inputs (spec/70_reset_and_hazards.md R850). -/
inductive ResetKind where
  | cold (boot : BootMode)
  | warm
  deriving DecidableEq, Repr

/-- What the environment does during one step. -/
structure EnvInput where
  /-- Int*[5:0], a set bit for an asserted (low) pin. -/
  intPin : BitVec 6
  /-- NMI* asserted. -/
  nmiPin : Bool
  /-- `SysADIdle` (spec/45_cp0_system.md R512). -/
  sysADIdle : Bool
  /-- ExtRqst* asserted with no request that reaches the processor this step. -/
  extRqst : Bool
  ext : List ExtRequest
  reset : Option ResetKind
  /-- The reset falls in the middle of the instruction and cuts its accesses off (spec/70_reset_and_hazards.md R852, R857). -/
  resetMidway : Bool
  /-- An NMI taken in this step empties the write buffer (spec/10_state.md R128), where spec/70_reset_and_hazards.md R853 has it kept:
  DESIGN CHOICE, both are allowed (log entry 31). -/
  nmiEmptiesBuffer : Bool
  fetchResponse : ReadResponse
  dataResponse : ReadResponse
  /-- Steps of the Count agent (spec/60_exceptions.md R800). -/
  countTicks : Nat
  /-- Entries the write-buffer agent sends before the instruction (spec/20_memory.md R172). -/
  drain : Nat
  /-- Bytes other bus masters and devices leave in physical memory (R141, R187) before those entries are sent. -/
  busWrites : List Host.Cell
  /-- Bytes they leave there after those entries are sent. -/
  lateWrites : List Host.Cell
  /-- Which pending hazards each consumer still sees undone, by place in the list. -/
  stale : List (Consumer × Nat)
  /-- The condition read sees the bits from before the compare just ahead of it (spec/70_reset_and_hazards.md R872). -/
  fccStale : Bool
  /-- An enabled interrupt is taken at a later boundary (spec/60_exceptions.md R791). -/
  deferInt : Bool
  deriving DecidableEq, Repr

/-- A read answered with good data. -/
def ReadResponse.good : ReadResponse :=
  { erroneous := false, badParity := 0, checkOff := false, tagError := false, unanswered := false, device := 0 }

/-- An environment that holds the pins and does nothing else: Count steps once, no buffered write is sent. -/
def EnvInput.quiet (intPin : BitVec 6) (nmiPin : Bool) : EnvInput :=
  { intPin := intPin, nmiPin := nmiPin, sysADIdle := true, extRqst := false, ext := [], reset := none, resetMidway := false,
    nmiEmptiesBuffer := false, fetchResponse := ReadResponse.good, dataResponse := ReadResponse.good, countTicks := 1, drain := 0, busWrites := [],
    lateWrites := [], stale := [], fccStale := false, deferInt := false }

/-! ## The machine -/

/-- Physical memory, sparse: addresses strictly rising, no entry equal to what an unlisted address reads as (log entry 3). -/
abbrev Memory := List Host.Cell

/-- The state of the machine. -/
structure State where
  gpr : Vector Dword 32
  hi : Dword
  lo : Dword
  /-- The address of the instruction executed next (R25). -/
  pc : Dword
  /-- The pending target: present exactly when the instruction at `pc` is in a delay slot (spec/43_jumps_branches.md R400). -/
  delay : Option Dword
  cp0 : Cp0
  tlb : Vector TlbEntry 48
  fgr : Vector Dword 32
  fcr31 : Fcr31
  llBit : Bool
  linkAddr : PAddr
  /-- Model's own: `linkAddr` is of an LL since the last ERET or cold reset, so that an SC can be held to it (spec/20_memory.md R182; log
  entry 54). -/
  linkKnown : Bool
  /-- The Interrupt register (R123). -/
  intReg : BitVec 7
  /-- The interrupt pins as last latched (R126). -/
  intPin : BitVec 6
  nmiPin : Bool
  /-- The NMI request as last seen (spec/60_exceptions.md R794). -/
  nmiSeen : Bool
  /-- The rises of the NMI request whose NMI has not been taken yet (R794). -/
  nmiPending : Nat
  /-- TimerInterrupt (R126). -/
  timerInt : Bool
  /-- Standby (R127). -/
  standby : Bool
  /-- The write buffer, oldest first (R122). -/
  wb : List WbEntry
  icache : List (Nat × ISet)
  icacheRest : Unlisted
  dcache : List (Nat × DSet)
  dcacheRest : Unlisted
  scache : List (Nat × SLine)
  scacheRest : Unlisted
  mem : Memory
  /-- `PhysMap` (spec/00_scope.md R10, spec/20_memory.md R141): the first region that holds an address says what is there; an address in no
  region is plain memory. -/
  physMap : List Region
  boot : BootMode
  /-- Model's own: how many free values have been drawn. -/
  free : Nat
  /-- Model's own: what the environment does in the steps to come. -/
  inputs : List EnvInput
  /-- Model's own: what it does in this step. -/
  inp : EnvInput
  /-- Model's own: writes that later instructions may not see yet. -/
  hazards : List Hazard
  /-- Model's own: the condition bits before a compare or CTC1 just executed, for so many instructions more (R872). -/
  fccOld : Option (Nat × BitVec 8)
  /-- Model's own: a floating-point operation may still be in flight (R871). -/
  fpBusy : Bool
  /-- Model's own: this step entered an exception. -/
  entered : Bool
  /-- Model's own: the processor requests of this step, oldest first. -/
  bus : List BusRequest
  deriving DecidableEq, Repr

/-- The exceptions an instruction can take (spec/60_exceptions.md R751), with what their entry records. -/
inductive Exc where
  | addressError (store : Bool) (va : Dword)
  | tlbRefill (store : Bool) (va : Dword)
  | tlbInvalid (store : Bool) (va : Dword)
  | tlbModified (va : Dword)
  | cacheError (info : CacheErrReg)
  | busError (fetch : Bool)
  | overflow
  | trap
  | systemCall
  | breakpoint
  | reservedInstruction
  | coprocessorUnusable (z : BitVec 2)
  | floatingPoint
  | interrupt
  deriving DecidableEq, Repr

/-- Why a step stops with a fault. -/
inductive Fault where
  /-- Raised by an access whose read request the external agent never answers: the processor waits for ever
  (spec/70_reset_and_hazards.md R889, spec/93_implementation_defined.md A6.7). Safe: nothing follows. -/
  | unansweredRead
  deriving DecidableEq, Repr

/-- Why a step has no meaning. Each constructor names the place where the spec gives no effect; all are safe (log entry 4). -/
inductive Refusal where
  /-- Raised by a dispatch arm of an instruction without a meaning. Safe. -/
  | notModelled (mnemonic : String)
  /-- Raised by a branch, a jump or ERET in a delay slot (R406). Safe. -/
  | controlInDelaySlot
  /-- Raised by JALR with rd = rs (R406). Safe. -/
  | jalrSameRegister
  /-- Raised by a linking branch that tests r31 (R406). Safe. -/
  | linkBranchOn31
  /-- Raised by a CP0 move that names a reserved register number (R41). Safe. -/
  | reservedCp0Register
  /-- Raised by DMFC0 and DMTC0 on a register of 32 bits (R473, R474). Safe. -/
  | doublewordMoveOf32
  /-- Raised by CFC1 and CTC1 on FCR1 to FCR30 (R537, R538). Safe. -/
  | reservedFcr
  /-- Raised by a floating-point operand in an odd register while Status.FR = 0 (R521, R574). Safe. -/
  | oddFpr
  /-- Raised by TLBR and TLBWI with Index above 47 (R482, R483). Safe. -/
  | tlbIndexRange
  /-- Raised by a TLB write with a PageMask outside Table 7.9 (R62). Safe. -/
  | pageMaskUndefined
  /-- Raised by a TLB write with a reserved C, a Config write with a reserved K0, an xkphys access with a reserved code (D39). Safe. -/
  | reservedAttribute
  /-- Raised by a TLB write whose PFN has a bit below the page size (R163). Safe. -/
  | pfnBelowPageSize
  /-- Raised by a write of Wired above 47 (R61). Safe. -/
  | wiredRange
  /-- Raised when Status holds KSU = 3 with EXL = ERL = 0 (R820). Safe. -/
  | reservedMode
  /-- Raised by an access or TLBP that two TLB entries match (R166). Safe. -/
  | tlbMultipleMatch
  /-- Raised by LL and LLD on an uncached address (R182). Safe. -/
  | llUncached
  /-- Raised by SC and SCD at another address than that of the LL before them (R182). Safe. -/
  | scOtherAddress
  /-- Raised by SC and SCD on an uncached address (R182). Safe. -/
  | scUncached
  /-- Raised by Hit operations, Fill and Create Dirty Exclusive on an uncached address (R490). Safe. -/
  | cacheOpUncached
  /-- Raised by Index Store Tag with a state the processor does not use (R494, R500). Safe. -/
  | cacheTagState
  /-- Raised by a secondary-cache operation without a secondary cache (R505). Safe. -/
  | noSecondaryCache
  /-- Raised by the secondary valid clear on a tag RAM without flash clear (R505). Safe. -/
  | noFlashClear
  /-- Raised by the page invalidate of an address that is not 4-Kbyte aligned (R508). Safe. -/
  | pageInvalidateAlignment
  /-- Raised by a listed word with a nonzero must-be-zero field (R235 (b)). Safe. -/
  | fieldNotZero
  /-- Raised by a CACHE word whose operation is not defined (R491). Safe. -/
  | cacheOperationUndefined
  /-- Raised by a cold reset with a reserved boot-mode setting (R860). Safe. -/
  | bootModeReserved
  /-- Raised by an external write of anything but a word (R715). Safe. -/
  | externalWriteSize
  deriving DecidableEq, Repr

/-- What running a piece of an instruction gives: a value and the state, an exception to be taken in a state, or a stop. -/
inductive Res (α : Type) where
  | ok (a : α) (s : State)
  | exc (e : Exc) (s : State)
  | fault (f : Fault)
  | refuse (r : Refusal)

/-- How control leaves an instruction (spec/43_jumps_branches.md R400). -/
inductive Flow where
  | seq
  | taken (target : Dword)
  | notTaken
  | nullify
  | direct (target : Dword)
  deriving DecidableEq, Repr

/-! ## Reset (R128) -/

/-- An invalid TLB entry of its own virtual page: the reset contents, no two of which match one address. DESIGN CHOICE (log entry 1). -/
def TlbEntry.atReset (i : Nat) : TlbEntry :=
  { mask := 0, r := 3, vpn2 := 0x7FC0000#27 + BitVec.ofNat 27 i, asid := 0, g := false, pfn0 := 0, c0 := 0, d0 := false,
    v0 := false, pfn1 := 0, c1 := 0, d1 := false, v1 := false }

/-- The boot-mode settings of the model's power-on: big-endian, timer interrupt on IP7, a secondary cache of 512 KB with flash
clear. DESIGN CHOICE (log entry 5). -/
def BootMode.atReset : BootMode :=
  { bigEndianMem := true, sysCkRatio := 0, xmitDatPat := 0, nonBlockWrite := 0, tmrIntEn := false, scEnable := true,
    scSize := 0, drvOut := 0, scFlashClear := true, reservedBits := false }

/-- Status after reset: BEV = ERL = 1, SR = 0 (R58); the unspecified bits 0, DESIGN CHOICE (log entry 1). -/
def StatusReg.atReset : StatusReg :=
  { cu := 0, fr := false, re := false, bev := true, sr := false, ch := false, ce := false, de := false, im := 0, kx := false,
    sx := false, ux := false, ksu := 0, erl := true, exl := false, ie := false }

/-- CP0 after reset: Random 47, Wired 0, Config.SE 0 (R61, R46, R76); the unspecified registers 0, DESIGN CHOICE (log entry 1). -/
def Cp0.atReset : Cp0 :=
  { indexP := false, index := 0, random := 47, entryLo0 := ⟨0, 0, false, false, false⟩,
    entryLo1 := ⟨0, 0, false, false, false⟩, contextPTEBase := 0, contextBadVPN2 := 0, pageMask := 0, wired := 0, badVAddr := 0,
    count := 0, entryHi := ⟨0, 0, 0⟩, compare := 0, status := StatusReg.atReset, cause := ⟨false, 0, 0, 0⟩, epc := 0,
    configSE := false, configK0 := 0, llAddr := 0, xcontextPTEBase := 0, xcontextR := 0, xcontextBadVPN2 := 0, ecc := 0,
    cacheErr := ⟨false, false, false, false, false, false⟩, tagLo := 0, tagHi := 0, errorEpc := 0 }

/-- The machine right after a power-on reset (R128): what the spec gives, and elsewhere the values of log entries 1, 3 and 5. -/
def State.reset : State :=
  { gpr := Vector.replicate 32 0, hi := 0, lo := 0, pc := 0xFFFFFFFFBFC00000, delay := none, cp0 := Cp0.atReset,
    tlb := Vector.ofFn fun i => TlbEntry.atReset i.val, fgr := Vector.replicate 32 0, fcr31 := ⟨0, false, 0, 0, 0, 0⟩,
    llBit := false, linkAddr := 0, linkKnown := false, intReg := Config.intRegInit, intPin := 0, nmiPin := false,
    nmiSeen := false, nmiPending := 0, timerInt := false, standby := false, wb := [], icache := [], icacheRest := .invalid,
    dcache := [], dcacheRest := .invalid, scache := [], scacheRest := .invalid, mem := [], physMap := [],
    boot := BootMode.atReset, free := 0, inputs := [], inp := EnvInput.quiet 0 false, hazards := [], fccOld := none, fpBusy := false,
    entered := false, bus := [] }

end Sys2Proof.Machine
end

