-- ==== Sys2Proof/Machine/Ops.lean ====
section
/-! DEFINITION. Sys2Proof/Machine/Ops.lean: the named operations on registers, memory bytes, the TLB and control flow; taking
an exception and returning from one. Every meaning is written over these. -/

namespace Sys2Proof.Machine

/-! ## Results -/

/-- Run the next piece on the value and state of the one before; exceptions and stops pass through. -/
def Res.bind {α β : Type} (r : Res α) (k : α → State → Res β) : Res β :=
  match r with
  | .ok a s => k a s
  | .exc e s => .exc e s
  | .fault f => .fault f
  | .refuse e => .refuse e

/-- What a check finds before anything is done: an exception to take, or a place where the spec gives no effect. -/
inductive Stop where
  | exc (e : Exc)
  | refuse (r : Refusal)
  deriving DecidableEq, Repr

/-- A check or a lookup that reads the state only. -/
abbrev Look (α : Type) := Except Stop α

/-- Go on with what a lookup found, in the same state. -/
def Look.on {α β : Type} (x : Look α) (s : State) (k : α → Res β) : Res β :=
  match x with
  | .ok a => k a
  | .error (.exc e) => .exc e s
  | .error (.refuse r) => .refuse r

/-! ## Widths and bytes -/

/-- The low word of a doubleword. -/
def low32 (d : Dword) : Word := d.setWidth 32

/-- The sign extension of a word to a register (spec/10_state.md R30). -/
def sext32 (w : Word) : Dword := w.signExtend 64

/-- The zero extension of a word to a register. -/
def zext32 (w : Word) : Dword := w.setWidth 64

/-- A properly sign-extended 32-bit value (spec/10_state.md R30). -/
def isSext32 (d : Dword) : Bool := sext32 (low32 d) == d

/-- The sign extension of a 16-bit immediate or offset. -/
def sext16 (i : BitVec 16) : Dword := i.signExtend 64

/-- The zero extension of a 16-bit immediate. -/
def zext16 (i : BitVec 16) : Dword := i.setWidth 64

/-- A Bool as a bit. -/
def bit (b : Bool) : BitVec 1 := BitVec.ofBool b

/-- The value of bytes given lowest address first, big-endian: the first is the most significant (spec/20_memory.md R133). -/
def beValue : List Byte → Dword
  | [] => 0
  | b :: bs => (b.setWidth 64 <<< (8 * bs.length)) ||| beValue bs

/-- The value of bytes given lowest address first in a byte order (R133). -/
def valueOfBytes (bigEndian : Bool) (bs : List Byte) : Dword :=
  if bigEndian then beValue bs else beValue bs.reverse

/-- The `n` bytes of a value, the most significant first. -/
def beBytes : Nat → Dword → List Byte
  | 0, _ => []
  | n + 1, v => (v >>> (8 * n)).setWidth 8 :: beBytes n v

/-- The `n` low bytes of a value, lowest address first in a byte order (R133). -/
def bytesOfValue (bigEndian : Bool) (n : Nat) (v : Dword) : List Byte :=
  if bigEndian then beBytes n v else (beBytes n v).reverse

/-! ## General registers (spec/10_state.md R20, R21) -/

/-- The value of a general register; r0 reads zero. -/
def readGpr (s : State) (r : RegNum) : Dword := if r = 0 then 0 else s.gpr[r.toNat]'(r.isLt)

/-- Write a general register; a write of r0 is discarded. -/
def State.writeGpr (s : State) (r : RegNum) (v : Dword) : State :=
  if r = 0 then s else { s with gpr := s.gpr.set r.toNat v r.isLt }

/-- Write HI. -/
def State.setHi (s : State) (v : Dword) : State := { s with hi := v }
/-- Write LO. -/
def State.setLo (s : State) (v : Dword) : State := { s with lo := v }
/-- Write the sequencing state: PC and the pending target. -/
def State.setSeq (s : State) (pc : Dword) (delay : Option Dword) : State := { s with pc := pc, delay := delay }
/-- Replace the CP0 registers. -/
def State.setCp0 (s : State) (c : Cp0) : State := { s with cp0 := c }
/-- Replace Status. -/
def State.setStatus (s : State) (st : StatusReg) : State := { s with cp0 := { s.cp0 with status := st } }
/-- Write one TLB entry. -/
def State.setTlb (s : State) (i : Fin 48) (e : TlbEntry) : State := { s with tlb := s.tlb.set i.val e i.isLt }
/-- The value of a floating-point general register (spec/10_state.md R105). -/
def readFgr (s : State) (r : RegNum) : Dword := s.fgr[r.toNat]'(r.isLt)
/-- Write a floating-point general register. -/
def State.setFgr (s : State) (r : RegNum) (v : Dword) : State := { s with fgr := s.fgr.set r.toNat v r.isLt }
/-- Replace FCR31. -/
def State.setFcr31 (s : State) (f : Fcr31) : State := { s with fcr31 := f }
/-- Set or clear LLbit. -/
def State.setLlBit (s : State) (b : Bool) : State := { s with llBit := b }
/-- Set the link: LLbit and the link address (spec/10_state.md R120). -/
def State.setLink (s : State) (pa : PAddr) : State := { s with llBit := true, linkAddr := pa, linkKnown := true }
/-- Break the link as ERET does: which LL a later SC goes with is no longer known (R120, spec/20_memory.md R182). -/
def State.dropLink (s : State) : State := { s with llBit := false, linkKnown := false }
/-- Replace the write buffer. -/
def State.setWb (s : State) (w : List WbEntry) : State := { s with wb := w }
/-- Replace physical memory. -/
def State.setMem (s : State) (m : Memory) : State := { s with mem := m }
/-- Replace the instruction cache's list. -/
def State.setICache (s : State) (c : List (Nat × ISet)) : State := { s with icache := c }
/-- Replace the data cache's list. -/
def State.setDCache (s : State) (c : List (Nat × DSet)) : State := { s with dcache := c }
/-- Replace the secondary cache's list. -/
def State.setSCache (s : State) (c : List (Nat × SLine)) : State := { s with scache := c }
/-- Replace the pending hazards. -/
def State.setHazards (s : State) (h : List Hazard) : State := { s with hazards := h }
/-- Record the condition bits a condition read may still see (spec/70_reset_and_hazards.md R872). -/
def State.setFccOld (s : State) (o : Option (Nat × BitVec 8)) : State := { s with fccOld := o }
/-- Mark whether a floating-point operation may be in flight (spec/70_reset_and_hazards.md R871). -/
def State.setFpBusy (s : State) (b : Bool) : State := { s with fpBusy := b }
/-- Enter or leave Standby (spec/10_state.md R127). -/
def State.setStandby (s : State) (b : Bool) : State := { s with standby := b }
/-- Record a processor request. -/
def State.addBus (s : State) (r : BusRequest) : State := { s with bus := s.bus ++ [r] }
/-- Count free values as drawn. -/
def State.drawn (s : State) (n : Nat) : State := { s with free := s.free + n }

/-! ## Free values (log entry 2) -/

/-- The `k`-th free value from here on; `State.drawn` then counts it. -/
def freeAt (s : State) (k : Nat) : Dword := Config.freeBits (s.free + k)

/-- A free bit. -/
def freeBitAt (s : State) (k : Nat) : Bool := (freeAt s k).getLsbD 0

/-- An EntryLo register of free contents. -/
def freeEntryLo (s : State) (k : Nat) : EntryLo :=
  let v := freeAt s k
  { pfn := v.extractLsb' 6 24, c := v.extractLsb' 3 3, d := v.getLsbD 2, v := v.getLsbD 1, g := v.getLsbD 0 }

/-! ## Physical memory, byte by byte -/

/-- What a byte that nothing has written reads as. DESIGN CHOICE (log entry 3). -/
def unlistedByte : Byte := 0

/-- The byte at a physical address. -/
def memRead : Memory → Nat → Byte
  | [], _ => unlistedByte
  | (b, v) :: m, a => if a = b then v else if a < b then unlistedByte else memRead m a

/-- Write one byte, keeping the canonical form. -/
def memWrite : Memory → Nat → Byte → Memory
  | [], a, v => if v = unlistedByte then [] else [(a, v)]
  | (b, w) :: m, a, v =>
    if a < b then (if v = unlistedByte then (b, w) :: m else (a, v) :: (b, w) :: m)
    else if a = b then (if v = unlistedByte then m else (a, v) :: m)
    else (b, w) :: memWrite m a v

/-- The number of bytes of the physical address space: addresses have 36 bits (spec/20_memory.md R140). -/
def memSize : Nat := 2 ^ 36

/-- The bytes from an address on; an address has 36 bits. -/
def memReadBytes (m : Memory) (a : Nat) : Nat → List Byte
  | 0 => []
  | n + 1 => memRead m (a % memSize) :: memReadBytes m (a + 1) n

/-- Write bytes from an address on. -/
def memWriteBytes (m : Memory) (a : Nat) : List Byte → Memory
  | [] => m
  | v :: vs => memWriteBytes (memWrite m (a % memSize) v) (a + 1) vs

/-- What the physical map has at an address: by the first region that holds it, plain memory without one (R141). -/
def kindAt : List Region → Nat → RegionKind
  | [], _ => .memory
  | r :: rs, a => if r.base ≤ a && a < r.base + r.size then r.kind else kindAt rs a

/-- The byte the external agent returns for an address: memory's, or what it has for a device or for nobody (R141, R142,
spec/49_system_interface.md R740 (a)). -/
def physRead (map : List Region) (m : Memory) (device : BitVec 256) (a : Nat) : Byte :=
  match kindAt map a with
  | .memory | .rom => memRead m a
  | .device | .nothing => device.extractLsb' (8 * (a % 32)) 8

/-- The memory behind a byte sent to an address: only plain memory keeps it. -/
def physWrite (map : List Region) (m : Memory) (a : Nat) (v : Byte) : Memory :=
  match kindAt map a with
  | .memory => memWrite m a v
  | .rom | .device | .nothing => m

/-- The bytes the external agent returns from an address on. -/
def physReadBytes (map : List Region) (m : Memory) (device : BitVec 256) (a : Nat) : Nat → List Byte
  | 0 => []
  | n + 1 => physRead map m device (a % memSize) :: physReadBytes map m device (a + 1) n

/-- The memory behind bytes sent from an address on. -/
def physWriteBytes (map : List Region) (m : Memory) (a : Nat) : List Byte → Memory
  | [] => m
  | v :: vs => physWriteBytes map (physWrite map m (a % memSize) v) (a + 1) vs

/-- Write the bytes another bus master or a device leaves in memory. -/
def memWriteCells (m : Memory) : List Host.Cell → Memory
  | [] => m
  | (a, v) :: cs => memWriteCells (memWrite m (a % memSize) v) cs

/-- The canonical form: addresses strictly rising and below 2^36, no entry equal to what an unlisted address reads as. -/
abbrev Memory.wf (m : Memory) : Prop :=
  (m.Pairwise fun x y => x.1 < y.1) ∧ ∀ c ∈ m, c.2 ≠ unlistedByte ∧ c.1 < memSize

/-! ## CP0 registers as words (spec/10_state.md R43 to R83) -/

/-- EntryLo as a doubleword (R44). -/
def packEntryLo (e : EntryLo) : Dword := 0#34 ++ e.pfn ++ e.c ++ bit e.d ++ bit e.v ++ bit e.g

/-- The fields of a value written to EntryLo (R44). -/
def unpackEntryLo (v : Dword) : EntryLo :=
  { pfn := v.extractLsb' 6 24, c := v.extractLsb' 3 3, d := v.getLsbD 2, v := v.getLsbD 1, g := v.getLsbD 0 }

/-- EntryHi as a doubleword (R70). -/
def packEntryHi (e : EntryHi) : Dword := e.r ++ 0#22 ++ e.vpn2 ++ 0#5 ++ e.asid

/-- The fields of a value written to EntryHi; Fill is ignored (R70). -/
def unpackEntryHi (v : Dword) : EntryHi := { r := v.extractLsb' 62 2, vpn2 := v.extractLsb' 13 27, asid := v.extractLsb' 0 8 }

/-- Status as a word (R50, R54). -/
def packStatus (t : StatusReg) : Word :=
  t.cu ++ 0#1 ++ bit t.fr ++ bit t.re ++ 0#2 ++ bit t.bev ++ 0#1 ++ bit t.sr ++ 0#1 ++ bit t.ch ++ bit t.ce ++ bit t.de ++ t.im ++
    bit t.kx ++ bit t.sx ++ bit t.ux ++ t.ksu ++ bit t.erl ++ bit t.exl ++ bit t.ie

/-- The fields of a value written to Status (R57). -/
def unpackStatus (w : Word) : StatusReg :=
  { cu := w.extractLsb' 28 4, fr := w.getLsbD 26, re := w.getLsbD 25, bev := w.getLsbD 22, sr := w.getLsbD 20, ch := w.getLsbD 18,
    ce := w.getLsbD 17, de := w.getLsbD 16, im := w.extractLsb' 8 8, kx := w.getLsbD 7, sx := w.getLsbD 6, ux := w.getLsbD 5,
    ksu := w.extractLsb' 3 2, erl := w.getLsbD 2, exl := w.getLsbD 1, ie := w.getLsbD 0 }

/-- Cause.IP7:0: the live interrupt requests above the two software bits (R65, R126, spec/60_exceptions.md R790). -/
def pendingBits (s : State) : BitVec 8 :=
  let lines := s.intReg.extractLsb' 0 6 ||| s.intPin
  let ip7 := if s.boot.tmrIntEn then lines.getLsbD 5 else s.timerInt
  bit ip7 ++ lines.extractLsb' 0 5 ++ s.cp0.cause.ipSw

/-- Cause as a word (R63). -/
def packCause (s : State) : Word :=
  let c := s.cp0.cause
  bit c.bd ++ 0#1 ++ c.ce ++ 0#12 ++ pendingBits s ++ 0#1 ++ c.excCode ++ 0#2

/-- Config as a word (R77). -/
def packConfig (s : State) : Word :=
  let b := s.boot
  0#1 ++ b.sysCkRatio ++ b.xmitDatPat ++ 0#2 ++ b.scSize ++ 0#2 ++ bit (!b.scEnable) ++ 0#1 ++ bit b.bigEndianMem ++ 3#2 ++
    bit s.cp0.configSE ++ 3#3 ++ 3#3 ++ 1#1 ++ 1#1 ++ 0#1 ++ s.cp0.configK0

/-- CacheErr as a word (R81). -/
def packCacheErr (c : CacheErrReg) : Word :=
  bit c.er ++ bit c.ec ++ bit c.ed ++ bit c.et ++ 0#1 ++ bit c.ee ++ bit c.eb ++ 0#25

/-- The value of a CP0 register, a 32-bit one in the low half (R40, R42). The reserved numbers never reach it. -/
def cp0Value (s : State) (n : BitVec 5) : Dword :=
  let c := s.cp0
  if n = 0 then zext32 (bit c.indexP ++ 0#25 ++ c.index)
  else if n = 1 then c.random.setWidth 64
  else if n = 2 then packEntryLo c.entryLo0
  else if n = 3 then packEntryLo c.entryLo1
  else if n = 4 then c.contextPTEBase ++ c.contextBadVPN2 ++ 0#4
  else if n = 5 then zext32 (0#7 ++ c.pageMask ++ 0#13)
  else if n = 6 then c.wired.setWidth 64
  else if n = 8 then c.badVAddr
  else if n = 9 then zext32 c.count
  else if n = 10 then packEntryHi c.entryHi
  else if n = 11 then zext32 c.compare
  else if n = 12 then zext32 (packStatus c.status)
  else if n = 13 then zext32 (packCause s)
  else if n = 14 then c.epc
  else if n = 15 then zext32 (0#16 ++ 0x23#8 ++ Config.pridRev)
  else if n = 16 then zext32 (packConfig s)
  else if n = 17 then zext32 c.llAddr
  else if n = 20 then c.xcontextPTEBase ++ c.xcontextR ++ c.xcontextBadVPN2 ++ 0#4
  else if n = 26 then c.ecc.setWidth 64
  else if n = 27 then zext32 (packCacheErr c.cacheErr)
  else if n = 28 then zext32 c.tagLo
  else if n = 29 then zext32 c.tagHi
  else c.errorEpc

/-! ## Hazards (spec/70_reset_and_hazards.md R870) -/

/-- Put back the fields of one CP0 register. -/
def restoreCp0 (n : BitVec 5) (old c : Cp0) : Cp0 :=
  if n = 0 then { c with indexP := old.indexP, index := old.index }
  else if n = 2 then { c with entryLo0 := old.entryLo0 }
  else if n = 3 then { c with entryLo1 := old.entryLo1 }
  else if n = 4 then { c with contextPTEBase := old.contextPTEBase }
  else if n = 5 then { c with pageMask := old.pageMask }
  else if n = 6 then { c with wired := old.wired }
  else if n = 9 then { c with count := old.count }
  else if n = 10 then { c with entryHi := old.entryHi }
  else if n = 11 then { c with compare := old.compare }
  else if n = 12 then { c with status := old.status }
  else if n = 13 then { c with cause := { c.cause with ipSw := old.cause.ipSw } }
  else if n = 14 then { c with epc := old.epc }
  else if n = 16 then { c with configSE := old.configSE, configK0 := old.configK0 }
  else if n = 17 then { c with llAddr := old.llAddr }
  else if n = 20 then { c with xcontextPTEBase := old.xcontextPTEBase }
  else if n = 26 then { c with ecc := old.ecc }
  else if n = 28 then { c with tagLo := old.tagLo }
  else if n = 29 then { c with tagHi := old.tagHi }
  else if n = 30 then { c with errorEpc := old.errorEpc }
  else c

/-- Insert or replace an entry of a list sorted by place. -/
def putAt {α : Type} : List (Nat × α) → Nat → α → List (Nat × α)
  | [], i, v => [(i, v)]
  | (j, w) :: l, i, v =>
    if i < j then (i, v) :: (j, w) :: l else if i = j then (i, v) :: l else (j, w) :: putAt l i v

/-- The entry of a list at a place. -/
def getAt {α : Type} : List (Nat × α) → Nat → Option α
  | [], _ => none
  | (j, w) :: l, i => if i = j then some w else getAt l i

/-- The state with one pending write taken back; a store to code shows in the bytes fetched only (`codeSeen`). -/
def applyUndo (u : Undo) (s : State) : State :=
  match u with
  | .reg n old => s.setCp0 (restoreCp0 n old s.cp0)
  | .tlb i old => s.setTlb i old
  | .icache i old => s.setICache (putAt s.icache i old)
  | .timer old => { s with timerInt := old }
  | .code _ _ => s

/-- The state as a consumer sees it: with the pending writes taken back that the environment names for it. Without a pending
hazard, or a choice of one, it is the state itself. -/
def seen (c : Consumer) (s : State) : State :=
  (s.inp.stale.filter fun p => p.1 == c).foldl
    (fun t p => match s.hazards[p.2]? with | some h => applyUndo h.undo t | none => t) s

/-- Record a write that later instructions may not see for `CP0_HAZARD_WINDOW` instructions; the step that records it ages it once. -/
def State.addHazard (s : State) (u : Undo) : State :=
  s.setHazards (s.hazards ++ [{ left := Config.hazardWindow + 1, undo := u }])

/-- Replace the CP0 registers as an instruction writes register `n`. -/
def State.writeCp0Reg (s : State) (n : BitVec 5) (c : Cp0) : State := (s.setCp0 c).addHazard (.reg n s.cp0)

/-! ## Modes (spec/60_exceptions.md R820, R821) -/

/-- The three modes, by decreasing privilege. -/
inductive Mode where
  | kernel
  | supervisor
  | user
  deriving DecidableEq, Repr

/-- The mode Status gives. KSU = 3 with EXL = ERL = 0 is refused before an instruction runs. -/
def modeOf (t : StatusReg) : Mode :=
  if t.exl || t.erl || t.ksu == 0 then .kernel else if t.ksu == 1 then .supervisor else .user

/-- `Is64()`: 64-bit operations are enabled. -/
def is64 (t : StatusReg) : Bool :=
  match modeOf t with
  | .kernel => true
  | .supervisor => t.sx
  | .user => t.ux

/-- `x64`: 64-bit addressing is in force. -/
def extendedAddressing (t : StatusReg) : Bool :=
  match modeOf t with
  | .kernel => t.kx
  | .supervisor => t.sx
  | .user => t.ux

/-- `ReverseEndian` (spec/20_memory.md R134). -/
def reverseEndian (t : StatusReg) : Bool := t.re && modeOf t == .user

/-- `BigEndianCPU` for a view of the state (R134). -/
def bigEndianCpu (v : State) : Bool := v.boot.bigEndianMem != reverseEndian v.cp0.status

/-! ## Address translation (spec/20_memory.md R150 to R168) -/

/-- What an access is for. -/
inductive AccessKind where
  | fetch
  | load
  | store
  deriving DecidableEq, Repr

/-- The result of the segment check (R160). -/
inductive Segment where
  | mapped
  | unmapped (pa : PAddr) (c : BitVec 3)
  | addressError
  deriving DecidableEq, Repr

/-- An address in a closed range. -/
def within (va lo hi : Dword) : Bool := lo ≤ va && va ≤ hi

/-- The physical address of an unmapped 512-Mbyte segment (R157). -/
def low29 (va : Dword) : PAddr := (va.extractLsb' 0 29).setWidth 36

/-- The user region with 32-bit addressing (R152 to R154). -/
def inUser32 (va : Dword) : Bool := within va 0x0 0x7FFFFFFF
/-- The user region with 64-bit addressing. -/
def inUser64 (va : Dword) : Bool := within va 0x0 0xFFFFFFFFFF
/-- The supervisor region of 64-bit addressing. -/
def inSupervisor64 (va : Dword) : Bool := within va 0x4000000000000000 0x400000FFFFFFFFFF
/-- The compatibility supervisor segment. -/
def inSseg (va : Dword) : Bool := within va 0xFFFFFFFFC0000000 0xFFFFFFFFDFFFFFFF

/-- The segment check of Kernel mode for the compatibility segments, the same in both widths (R154, R155). -/
def kernelCompat (k0 : BitVec 3) (va : Dword) : Segment :=
  if within va 0xFFFFFFFF80000000 0xFFFFFFFF9FFFFFFF then .unmapped (low29 va) k0
  else if within va 0xFFFFFFFFA0000000 0xFFFFFFFFBFFFFFFF then .unmapped (low29 va) 2
  else if within va 0xFFFFFFFFC0000000 0xFFFFFFFFFFFFFFFF then .mapped
  else .addressError

/-- The segment check (R160). -/
def segmentOf (t : StatusReg) (k0 : BitVec 3) (va : Dword) : Segment :=
  match modeOf t with
  | .user => if (if t.ux then inUser64 va else inUser32 va) then .mapped else .addressError
  | .supervisor =>
    if t.sx then (if inUser64 va || inSupervisor64 va || inSseg va then .mapped else .addressError)
    else (if inUser32 va || inSseg va then .mapped else .addressError)
  | .kernel =>
    if t.erl && inUser32 va then .unmapped ((va.extractLsb' 0 31).setWidth 36) 2
    else if t.kx then
      (if inUser64 va || inSupervisor64 va || within va 0xC000000000000000 0xC00000FF7FFFFFFF then .mapped
       else if va.extractLsb' 62 2 == 2#2 then
         (if va.extractLsb' 36 23 == 0#23 then .unmapped (va.extractLsb' 0 36) (va.extractLsb' 59 3) else .addressError)
       else kernelCompat k0 va)
    else if inUser32 va then .mapped
    else kernelCompat k0 va

/-- The mask of a TLB entry over VPN2. -/
def mask27 (m : BitVec 12) : BitVec 27 := m.setWidth 27

/-- A TLB entry matches a region, a VPN2 and an ASID (R162). -/
def tlbMatches (e : TlbEntry) (r : BitVec 2) (vpn2 : BitVec 27) (asid : BitVec 8) : Bool :=
  e.r == r && (e.vpn2 &&& ~~~(mask27 e.mask)) == (vpn2 &&& ~~~(mask27 e.mask)) && (e.g || e.asid == asid)

/-- The numbers of the entries that match. -/
def tlbHits (t : Vector TlbEntry 48) (r : BitVec 2) (vpn2 : BitVec 27) (asid : BitVec 8) : List (Fin 48) :=
  (List.finRange 48).filter fun i => tlbMatches t[i] r vpn2 asid

/-- `w`, the width of the page offset, for the masks of Table 7.9 (spec/10_state.md R62). -/
def pageWidth (m : BitVec 12) : Option Nat :=
  if m = 0 then some 12 else if m = 0x003 then some 14 else if m = 0x00F then some 16 else if m = 0x03F then some 18
  else if m = 0x0FF then some 20 else if m = 0x3FF then some 22 else if m = 0xFFF then some 24 else none

/-- `pa[35:w] = PFN, pa[w-1:0] = va` (R163). -/
def pageAddress (w : Nat) (pfn : BitVec 24) (va : Dword) : PAddr :=
  (((pfn ++ 0#12 : PAddr) >>> w) <<< w) ||| BitVec.ofNat 36 (va.toNat % 2 ^ w)

/-- A reserved cache attribute (D39). -/
def reservedAttr (c : BitVec 3) : Bool := 4 ≤ c

/-- Access control and address of a matching entry (R163, R164). -/
def translateEntry (e : TlbEntry) (kind : AccessKind) (va : Dword) : Look (PAddr × BitVec 3) :=
  match pageWidth e.mask with
  | none => .error (.refuse .pageMaskUndefined)
  | some w =>
    let odd := va.getLsbD w
    let pfn := if odd then e.pfn1 else e.pfn0
    let c := if odd then e.c1 else e.c0
    let d := if odd then e.d1 else e.d0
    let v := if odd then e.v1 else e.v0
    if !v then .error (.exc (.tlbInvalid (kind == .store) va))
    else if kind == .store && !d then .error (.exc (.tlbModified va))
    else if reservedAttr c then .error (.refuse .reservedAttribute)
    else .ok (pageAddress w pfn va, c)

/-- `Translate(va, kind)` (R168) in a view of the state. -/
def translate (v : State) (kind : AccessKind) (va : Dword) : Look (PAddr × BitVec 3) :=
  match segmentOf v.cp0.status v.cp0.configK0 va with
  | .addressError => .error (.exc (.addressError (kind == .store) va))
  | .unmapped pa c => if reservedAttr c then .error (.refuse .reservedAttribute) else .ok (pa, c)
  | .mapped =>
    match tlbHits v.tlb (va.extractLsb' 62 2) (va.extractLsb' 13 27) v.cp0.entryHi.asid with
    | [] => .error (.exc (.tlbRefill (kind == .store) va))
    | [i] => translateEntry v.tlb[i] kind va
    | _ => .error (.refuse .tlbMultipleMatch)

/-! ## Usable checks and gates (spec/30_encoding.md R236, R237) -/

/-- CP0 is usable (R236). -/
def cp0Usable (t : StatusReg) : Bool := modeOf t == .kernel || t.cu.getLsbD 0

/-- Go on if coprocessor 0 is usable, else Coprocessor Unusable with CE = 0. -/
def needCp0 {α : Type} (s : State) (k : Res α) : Res α :=
  if cp0Usable (seen .usable s).cp0.status then k else .exc (.coprocessorUnusable 0) s

/-- Go on if coprocessor 1 is usable, in every mode, else Coprocessor Unusable with CE = 1. -/
def needCp1 {α : Type} (s : State) (k : Res α) : Res α :=
  if (seen .usable s).cp0.status.cu.getLsbD 1 then k else .exc (.coprocessorUnusable 1) s

/-- Go on if 64-bit operations are enabled, else Reserved Instruction (R237 (a)). -/
def need64 {α : Type} (s : State) (k : Res α) : Res α :=
  if is64 (seen .usable s).cp0.status then k else .exc .reservedInstruction s

/-- MIPS IV instructions execute: always in Kernel and Supervisor mode, in User mode with CU3 (R237 (b), D5). -/
def mips4 (t : StatusReg) : Bool := modeOf t != .user || t.cu.getLsbD 3

/-- Go on if MIPS IV instructions execute, else Reserved Instruction. -/
def needMips4 {α : Type} (s : State) (k : Res α) : Res α :=
  if mips4 (seen .usable s).cp0.status then k else .exc .reservedInstruction s

/-! ## Sequencing (spec/43_jumps_branches.md R400) -/

/-- PC and Delay after an instruction that raises no exception. -/
def advance (f : Flow) (s : State) : State :=
  match f with
  | .direct t => s.setSeq t none
  | .seq =>
    match s.delay with
    | none => s.setSeq (s.pc + 4) none
    | some t => s.setSeq t none
  | .taken t => s.setSeq (s.pc + 4) (some t)
  | .notTaken => s.setSeq (s.pc + 4) (some (s.pc + 8))
  | .nullify => s.setSeq (s.pc + 8) none

/-! ## Taking an exception (spec/60_exceptions.md R760 to R774) -/

/-- The address an exception restarts at: the instruction, or the branch before it when it is in a delay slot (R403, R760). -/
def restartPc (s : State) : Dword := if s.delay.isSome then s.pc - 4 else s.pc

/-- Cause.ExcCode (spec/10_state.md R64); Cache Error writes none. -/
def excCode : Exc → BitVec 5
  | .interrupt => 0
  | .tlbModified _ => 1
  | .tlbRefill store _ | .tlbInvalid store _ => if store then 3 else 2
  | .addressError store _ => if store then 5 else 4
  | .busError fetch => if fetch then 6 else 7
  | .systemCall => 8
  | .breakpoint => 9
  | .reservedInstruction => 10
  | .coprocessorUnusable _ => 11
  | .overflow => 12
  | .trap => 13
  | .floatingPoint => 15
  | .cacheError _ => 0

/-- The X bit of the region a failing address lies in (R761, D33). -/
def regionX (t : StatusReg) (va : Dword) : Bool :=
  if va.extractLsb' 62 2 == 0#2 then t.ux
  else if va.extractLsb' 62 2 == 1#2 || inSseg va then t.sx
  else t.kx

/-- The vector offset of the general exceptions (R761), by Status before the entry. -/
def vectorOffset (t : StatusReg) : Exc → Dword
  | .tlbRefill _ va => if t.exl then 0x180 else if regionX t va then 0x080 else 0x000
  | .cacheError _ => 0x100
  | _ => 0x180

/-- The vector base (R761). -/
def vectorBase (t : StatusReg) : Exc → Dword
  | .cacheError _ => if t.bev then 0xFFFFFFFFBFC00200 else 0xFFFFFFFFA0000000
  | _ => if t.bev then 0xFFFFFFFFBFC00200 else 0xFFFFFFFF80000000

/-- The address of the handler. -/
def vectorOf (t : StatusReg) (e : Exc) : Dword := vectorBase t e + vectorOffset t e

/-- BadVAddr, Context, XContext, EntryHi and EntryLo as the three TLB exceptions leave them (R774); EntryLo holds free values. -/
def loadTlbRegs (s : State) (va : Dword) : Cp0 :=
  { s.cp0 with
    badVAddr := va
    contextBadVPN2 := va.extractLsb' 13 19
    xcontextBadVPN2 := va.extractLsb' 13 27
    xcontextR := va.extractLsb' 62 2
    entryHi := { s.cp0.entryHi with vpn2 := va.extractLsb' 13 27, r := va.extractLsb' 62 2 }
    entryLo0 := freeEntryLo s 0
    entryLo1 := freeEntryLo s 1 }

/-- The same registers as Address Error leaves them: BadVAddr holds the address, the rest free values (R770). -/
def loadAddressErrorRegs (s : State) (va : Dword) : Cp0 :=
  { s.cp0 with
    badVAddr := va
    contextBadVPN2 := (freeAt s 4).extractLsb' 0 19
    xcontextBadVPN2 := (freeAt s 5).extractLsb' 0 27
    xcontextR := (freeAt s 5).extractLsb' 27 2
    entryHi := { s.cp0.entryHi with vpn2 := (freeAt s 6).extractLsb' 0 27 }
    entryLo0 := freeEntryLo s 0
    entryLo1 := freeEntryLo s 1 }

/-- The per-exception register loads (R760 (1)). -/
def loadExcRegs (e : Exc) (s : State) : Cp0 :=
  match e with
  | .addressError _ va => loadAddressErrorRegs s va
  | .tlbRefill _ va | .tlbInvalid _ va | .tlbModified va => loadTlbRegs s va
  | _ => s.cp0

/-- Cause.CE: the unit of Coprocessor Unusable, else a free value (R65, R760 (3)). -/
def causeCe (e : Exc) (s : State) : BitVec 2 :=
  match e with
  | .coprocessorUnusable z => z
  | _ => (freeAt s 3).extractLsb' 0 2

/-- The CP0 registers after the general entry (R760 (1) to (5)); `exl` is Status.EXL as the entry sees it. -/
def generalCp0 (e : Exc) (exl : Bool) (s : State) : Cp0 :=
  let c := loadExcRegs e s
  { c with
    epc := if exl then c.epc else restartPc s
    cause := { c.cause with
      bd := if exl then freeBitAt s 2 else s.delay.isSome
      ce := causeCe e s
      excCode := excCode e }
    status := { c.status with exl := true } }

/-- The CP0 registers after the Cache Error entry (R762). -/
def cacheErrorCp0 (info : CacheErrReg) (s : State) : Cp0 :=
  { s.cp0 with errorEpc := restartPc s, cacheErr := info, status := { s.cp0.status with erl := true } }

/-- What every exception entry and ERET leave behind: nothing is pending in the pipeline (R870, R400). -/
def State.flush (s : State) : State := { s with hazards := [], fccOld := none, fpBusy := false }

/-- CP0 after an entry; `exl` is Status.EXL as the entry sees it. -/
def entryCp0 (e : Exc) (exl : Bool) (s : State) : Cp0 :=
  match e with
  | .cacheError info => cacheErrorCp0 info s
  | _ => generalCp0 e exl s

/-- An entry with Status `t` as the entry sees it: the registers it saves, Status, the vector. -/
def enter (e : Exc) (t : StatusReg) (s : State) : State :=
  { (((s.setCp0 (entryCp0 e t.exl s)).setSeq (vectorOf t e) none).flush.drawn 7) with entered := true }

/-- Whether an entry writes Context, and so reads its PTEBase (R770, R774, spec/70_reset_and_hazards.md R870). -/
def writesContext : Exc → Bool
  | .addressError _ _ | .tlbRefill _ _ | .tlbInvalid _ _ | .tlbModified _ => true
  | _ => false

/-- The state with the PTEBase an entry leaves in Context: as the entry may still see it. -/
def State.withPTEBase (e : Exc) (b : BitVec 41) (s : State) : State :=
  if writesContext e then s.setCp0 { s.cp0 with contextPTEBase := b } else s

/-- Taking an exception (R760 to R762). The entry sees Status and Context.PTEBase as it may still see them (R870). -/
def takeException (e : Exc) (s : State) : State :=
  enter e (seen .excEntry s).cp0.status (s.withPTEBase e (seen .excEntry s).cp0.contextPTEBase)

/-- Returning from an exception, ERET (spec/45_cp0_system.md R486): where to, and the state with Status and LLbit as it leaves them. -/
def returnFromException (s : State) : Dword × State :=
  let v := (seen .excEntry s).cp0
  let t := s.cp0.status
  if v.status.erl then (v.errorEpc, (s.setStatus { t with erl := false }).dropLink.flush)
  else (v.epc, (s.setStatus { t with exl := false }).dropLink.flush)

/-- What a meaning answers. -/
abbrev Result := Host.Outcome State Fault Refusal

/-- The outcome of a meaning: control goes on as it says, an exception is taken, or the step stops. -/
def finish (r : Res Flow) : Result :=
  match r with
  | .ok f s => .next (advance f s)
  | .exc e s => .next (takeException e s)
  | .fault f => .fault f
  | .refuse e => .refused e

/-- A meaning that changes the state and goes on with the next instruction. -/
def goOn (s : State) : Res Flow := .ok .seq s

/-- An instruction that control flow may not hold: refuse in a delay slot (R406), else go on. -/
def notInSlot (s : State) (k : Res Flow) : Res Flow :=
  if s.delay.isSome then .refuse .controlInDelaySlot else k

/-! ## Interrupts (spec/60_exceptions.md R790) -/

/-- `InterruptRequest`, as the interrupt test sees the state. -/
def interruptRequest (s : State) : Bool :=
  let v := seen .interrupt s
  let t := v.cp0.status
  (pendingBits v &&& t.im) != 0 && t.ie && !t.exl && !t.erl

end Sys2Proof.Machine
end

