-- ==== Sys2Proof/Machine/Access.lean ====
section
/-! DEFINITION. Sys2Proof/Machine/Access.lean: the write buffer, the caches, and the memory primitives every fetch, load and
store uses (spec/20_memory.md R130 to R139, R170 to R195; spec/49_system_interface.md R700 to R721). -/

namespace Sys2Proof.Machine

/-! ## Lines of 32 bytes: byte `k` of memory order is bits 8k+7:8k -/

/-- Byte `k` of a line. -/
def lineByte (d : BitVec 256) (k : Nat) : Byte := d.extractLsb' (8 * k) 8

/-- The `n` bytes of a line from offset `o` on. -/
def lineBytes (d : BitVec 256) (o : Nat) : Nat → List Byte
  | 0 => []
  | n + 1 => lineByte d o :: lineBytes d (o + 1) n

/-- A line with one byte replaced. -/
def setLineByte (d : BitVec 256) (k : Nat) (b : Byte) : BitVec 256 :=
  (d &&& ~~~(0xFF#256 <<< (8 * k))) ||| (b.setWidth 256 <<< (8 * k))

/-- A line with the bytes from offset `o` on replaced. -/
def setLineBytes (d : BitVec 256) (o : Nat) : List Byte → BitVec 256
  | [] => d
  | b :: bs => setLineBytes (setLineByte d o b) (o + 1) bs

/-- The line of 32 bytes of memory. -/
def lineOfBytes (bs : List Byte) : BitVec 256 := setLineBytes 0 0 bs

/-! ## Parity: even, one bit for each byte (R721), for each word in the instruction cache (R190) -/

/-- Bits 8k of the result are the exclusive ors of the bytes k. -/
def foldParity (d : BitVec 256) : BitVec 256 :=
  let a := d ^^^ (d >>> 4)
  let b := a ^^^ (a >>> 2)
  b ^^^ (b >>> 1)

/-- The check bits of the bytes of a line, from byte `k` down. -/
def gatherParity (p : BitVec 256) : Nat → BitVec 32
  | 0 => 0
  | k + 1 => gatherParity p k ||| (if p.getLsbD (8 * k) then 1#32 <<< k else 0)

/-- The check bits of a line. -/
def linePar (d : BitVec 256) : BitVec 32 := gatherParity (foldParity d) 32

/-- The check bit of each word, from the check bits of its bytes. -/
def wordPar (p : BitVec 32) : Nat → BitVec 8
  | 0 => 0
  | k + 1 => wordPar p k |||
      (if (p.getLsbD (4 * k) != p.getLsbD (4 * k + 1)) != (p.getLsbD (4 * k + 2) != p.getLsbD (4 * k + 3)) then 1#8 <<< k else 0)

/-- The words of a line of which a byte is marked in `p`. -/
def markedWords (p : BitVec 32) : Nat → BitVec 8
  | 0 => 0
  | k + 1 => markedWords p k ||| (if p.extractLsb' (4 * k) 4 != 0#4 then 1#8 <<< k else 0)

/-- The positions, of 32, of `n` bytes from offset `o` on. -/
def byteMask (o n : Nat) : BitVec 32 := (BitVec.ofNat 32 (2 ^ n - 1)) <<< o

/-- The bytes of a line whose stored check bit is wrong. -/
def badBytes (d : BitVec 256) (par : BitVec 32) : BitVec 32 := linePar d ^^^ par

/-- The check bits the instruction cache keeps of a line it receives with a check bit for each byte: wrong for the words in which a byte's
is wrong (R721: bad parity of the response is found when the word is referenced). DESIGN CHOICE (log entry 53): the spec gives no rule that
makes a word's bit of the bytes' bits. -/
def fetchPar (d : BitVec 256) (par : BitVec 32) : BitVec 8 := wordPar (linePar d) 8 ^^^ markedWords (badBytes d par) 8

/-- The even parity bit of the low bits of a value (R190). -/
def parityOf {n : Nat} (v : BitVec n) : Nat → Bool
  | 0 => false
  | k + 1 => parityOf v k != v.getLsbD k

/-- A line of the data cache with the parity bits of its tag recomputed: one for address and state, one for the W bit (R190). -/
def dtagged (l : DLine) : DLine := { l with tagPar := parityOf (l.tag ++ l.state) 26, wPar := l.w }

/-- A line of the instruction cache with the parity bit of its tag recomputed; that it covers address and valid bit is log entry 16. -/
def itagged (l : ILine) : ILine := { l with tagPar := parityOf (l.tag ++ bit l.valid) 25 }

/-- The tag of a line of the data cache, or its W bit, has wrong parity. -/
def dtagBad (l : DLine) : Bool := l.tagPar != (dtagged l).tagPar || l.wPar != (dtagged l).wPar

/-- The tag of a line of the instruction cache has wrong parity. -/
def itagBad (l : ILine) : Bool := l.tagPar != (itagged l).tagPar

/-- A tag of the set that an access to the data cache compares has wrong parity (log entry 16). -/
def dsetBad (d : DSet) : Bool := dtagBad d.way0 || dtagBad d.way1

/-- A tag of the set that a fetch compares has wrong parity (log entry 16). -/
def isetBad (d : ISet) : Bool := itagBad d.way0 || itagBad d.way1

/-! ## Places in the caches (R190, R194) -/

/-- The set of a primary cache: va[13:5]. -/
def setIndex (va : Dword) : Nat := (va.extractLsb' 5 9).toNat

/-- The tag of a primary cache: pa[35:12]. -/
def primaryTag (pa : PAddr) : BitVec 24 := pa.extractLsb' 12 24

/-- The physical address of the line with a tag in a set: the set's low seven bits are pa[11:5]. -/
def lineAddress (tag : BitVec 24) (set : Nat) : PAddr := tag ++ (BitVec.ofNat 7 set) ++ 0#5

/-- The physical address of the line that holds an address. -/
def lineOf (pa : PAddr) : PAddr := pa.extractLsb' 5 31 ++ 0#5

/-- The offset of an address in its line. -/
def lineOffset (pa : PAddr) : Nat := (pa.extractLsb' 0 5).toNat

/-- The place of an address in the secondary cache: pa[ScIndexTop:5], ScIndexTop = 18, 19, 20 by size. -/
def scacheIndex (b : BootMode) (pa : PAddr) : Nat := (pa.toNat / 32) % (2 ^ (14 + b.scSize.toNat))

/-- The tag of the secondary cache: pa[35:19]. -/
def scacheTag (pa : PAddr) : BitVec 17 := pa.extractLsb' 19 17

/-- A data-cache line in the Invalid state. -/
def dlineInvalid : DLine :=
  { state := 0, tag := 0, w := false, tagPar := false, wPar := false, data := 0, par := 0, wbPage := false }
/-- An instruction-cache line that is not valid. -/
def ilineInvalid : ILine :=
  { valid := false, reserved := false, tag := 0, tagPar := false, itype := 0, data := 0, par := 0 }
/-- A secondary-cache line that is not valid. -/
def slineInvalid : SLine := { valid := false, tag := 0, data := 0, par := 0 }

/-- A data-cache line of unspecified contents, from 318 free bits. -/
def dlineFree (v : BitVec 318) : DLine :=
  { state := v.extractLsb' 0 2, tag := v.extractLsb' 2 24, w := v.getLsbD 26, tagPar := v.getLsbD 315, wPar := v.getLsbD 316,
    data := v.extractLsb' 27 256, par := v.extractLsb' 283 32, wbPage := v.getLsbD 317 }
/-- An instruction-cache line of unspecified contents. -/
def ilineFree (v : BitVec 295) : ILine :=
  { valid := v.getLsbD 0, reserved := v.getLsbD 293, tag := v.extractLsb' 1 24, tagPar := v.getLsbD 294, itype := v.extractLsb' 25 4,
    data := v.extractLsb' 29 256, par := v.extractLsb' 285 8 }
/-- A secondary-cache line of unspecified contents. -/
def slineFree (v : BitVec 306) : SLine :=
  { valid := v.getLsbD 0, tag := v.extractLsb' 1 17, data := v.extractLsb' 18 256, par := v.extractLsb' 274 32 }

/-- The set of the data cache that its list does not name. -/
def dsetRest (r : Unlisted) (i : Nat) : DSet :=
  match r with
  | .invalid => { way0 := dlineInvalid, way1 := dlineInvalid, fifo := false }
  | .unspecified g | .cleared g =>
    let v := Config.freeLine g i
    { way0 := dlineFree (v.extractLsb' 0 318), way1 := dlineFree (v.extractLsb' 318 318), fifo := v.getLsbD 636 }

/-- The set of the instruction cache that its list does not name. -/
def isetRest (r : Unlisted) (i : Nat) : ISet :=
  match r with
  | .invalid => { way0 := ilineInvalid, way1 := ilineInvalid, fifo := false }
  | .unspecified g | .cleared g =>
    let v := Config.freeLine g i
    { way0 := ilineFree (v.extractLsb' 0 295), way1 := ilineFree (v.extractLsb' 295 295), fifo := v.getLsbD 590 }

/-- The line of the secondary cache that its list does not name. -/
def slineRest (r : Unlisted) (i : Nat) : SLine :=
  match r with
  | .invalid => slineInvalid
  | .unspecified g => slineFree ((Config.freeLine g i).extractLsb' 0 306)
  | .cleared g => { slineFree ((Config.freeLine g i).extractLsb' 0 306) with valid := false }

/-- The set of the data cache at an index. -/
def dsetAt (s : State) (i : Nat) : DSet := (getAt s.dcache i).getD (dsetRest s.dcacheRest i)
/-- The set of the instruction cache at an index. -/
def isetAt (s : State) (i : Nat) : ISet := (getAt s.icache i).getD (isetRest s.icacheRest i)
/-- The line of the secondary cache at an index. -/
def slineAt (s : State) (i : Nat) : SLine := (getAt s.scache i).getD (slineRest s.scacheRest i)

/-- Write a set of the data cache. -/
def State.putDSet (s : State) (i : Nat) (d : DSet) : State := s.setDCache (putAt s.dcache i d)
/-- Write a set of the instruction cache. -/
def State.putISet (s : State) (i : Nat) (d : ISet) : State := s.setICache (putAt s.icache i d)
/-- Write a line of the secondary cache. -/
def State.putSLine (s : State) (i : Nat) (l : SLine) : State := s.setSCache (putAt s.scache i l)

/-- A way of a set of the data cache. -/
def dwayOf (d : DSet) (way : Bool) : DLine := if way then d.way1 else d.way0
/-- A set of the data cache with a way replaced. -/
def dsetWay (d : DSet) (way : Bool) (l : DLine) : DSet := if way then { d with way1 := l } else { d with way0 := l }
/-- A way of a set of the instruction cache. -/
def iwayOf (d : ISet) (way : Bool) : ILine := if way then d.way1 else d.way0
/-- A set of the instruction cache with a way replaced. -/
def isetWay (d : ISet) (way : Bool) (l : ILine) : ISet := if way then { d with way1 := l } else { d with way0 := l }

/-- A line of the data cache is valid: any state but Invalid (R193). That a line in state 1 or 2, which unspecified contents can hold, hits,
is written back and invalidated like one in state 3 is DESIGN CHOICE (log entry 56): the spec does not describe it. -/
def dvalid (l : DLine) : Bool := l.state != 0

/-- The way of a set of the data cache that holds a tag; way 0 if both hold it. DESIGN CHOICE (log entry 51). -/
def dhit (d : DSet) (tag : BitVec 24) : Option Bool :=
  if dvalid d.way0 && d.way0.tag == tag then some false
  else if dvalid d.way1 && d.way1.tag == tag then some true
  else none

/-- The way of a set of the instruction cache that holds a tag; way 0 if both hold it. DESIGN CHOICE (log entry 51). -/
def ihit (d : ISet) (tag : BitVec 24) : Option Bool :=
  if d.way0.valid && d.way0.tag == tag then some false
  else if d.way1.valid && d.way1.tag == tag then some true
  else none

/-- The secondary cache takes part in an access of this attribute: present, enabled, write-back (R194). -/
def scacheInUse (s : State) (cp : Cp0) (c : BitVec 3) : Bool := s.boot.scEnable && cp.configSE && c == 3

/-! ## The link (R181) -/

/-- Clear LLbit if the line at this physical address holds the link address: its cache state changes. -/
def State.breakLink (s : State) (line : PAddr) : State :=
  if lineOf s.linkAddr == line then s.setLlBit false else s

/-! ## The write buffer (R172, spec/10_state.md R122) -/

/-- The external agent takes one buffered write: memory holds it where the physical map has memory, the bus shows it; a line of a
write-back page also reaches the secondary cache, check bits and all (R194, spec/49_system_interface.md R720, R721). -/
def sendEntry (e : WbEntry) (s : State) : State :=
  match e with
  | .single pa vi bs =>
    ((s.setMem (physWriteBytes s.physMap s.mem pa.toNat bs)).addBus (.write pa vi bs s.free)).drawn 2
  | .block pa vi ret wbPage bs par =>
    let t := ((s.setMem (physWriteBytes s.physMap s.mem pa.toNat bs)).addBus (.writeBlock pa vi ret bs par s.free)).drawn 1
    if wbPage && s.boot.scEnable && s.cp0.configSE then
      t.putSLine (scacheIndex s.boot pa) { valid := true, tag := scacheTag pa, data := lineOfBytes bs, par := par }
    else t

/-- Send these entries in order. -/
def sendAll : List WbEntry → State → State
  | [], s => s
  | e :: es, s => sendAll es (sendEntry e s)

/-- Send the `n` oldest entries. -/
def drainSome (n : Nat) (s : State) : State := sendAll (s.wb.take n) (s.setWb (s.wb.drop n))

/-- Send every entry: the buffer is empty afterwards. -/
def drainAll (s : State) : State := sendAll s.wb (s.setWb [])

/-- An entry of the buffer that is a whole line. -/
def isBlock : WbEntry → Bool
  | .block _ _ _ _ _ _ => true
  | .single _ _ _ => false

/-- Buffer a write request of up to eight bytes; a full buffer first sends its oldest entry, a line first leaves. -/
def pushSingle (pa : PAddr) (vi : BitVec 2) (bs : List Byte) (s : State) : State :=
  let t := if s.wb.any isBlock then drainAll s else if s.wb.length < 4 then s else drainSome 1 s
  t.setWb (t.wb ++ [.single pa vi bs])

/-- Buffer a line to be written back: it takes the whole buffer. -/
def pushBlock (pa : PAddr) (vi : BitVec 2) (retained wbPage : Bool) (bs : List Byte) (par : BitVec 32) (s : State) : State :=
  (drainAll s).setWb [.block pa vi retained wbPage bs par]

/-- What `ReadsDrainWriteBuffer` asks of a read (R173). -/
def beforeRead (s : State) : State := if Config.readsDrainWriteBuffer then drainAll s else s

/-! ## Reads from the external agent -/

/-- CacheErr for an error (spec/10_state.md R81): instruction or data, data or tag field, on the SysAD bus or not. -/
def cacheErrInfo (data dataField tagField onBus : Bool) : CacheErrReg :=
  { er := data, ec := false, ed := dataField, et := tagField, ee := onBus, eb := false }

/-- The check of a response on the positions the processor checks (R721): the bad parity comes before the erroneous bit in
the order of spec/60_exceptions.md R752. -/
def responseError (cp : Cp0) (fetch : Bool) (r : ReadResponse) (checked : BitVec 32) : Option Exc :=
  if !cp.status.de && !r.checkOff && (r.badParity &&& checked) != 0 then some (.cacheError (cacheErrInfo (!fetch) true false true))
  else if r.erroneous then some (.busError fetch)
  else none

/-- One read request of `n` bytes at an uncached address; `checked` are the positions whose parity counts. -/
def readUncached (cp : Cp0) (fetch : Bool) (r : ReadResponse) (pa : PAddr) (vi : BitVec 2) (n size : Nat)
    (checked : BitVec 32) (s : State) : Res (List Byte) :=
  let t := (beforeRead s).addBus (.read pa vi size)
  if r.unanswered then .fault .unansweredRead
  else match responseError cp fetch r checked with
    | some e => .exc e t
    | none => .ok (physReadBytes t.physMap t.mem r.device pa.toNat n) t

/-- A line and its check bits. -/
abbrev LineData := BitVec 256 × BitVec 32

/-- The line the external agent returns for an address, with the check bits the response delivers. They are kept as delivered also
for a first doubleword that SysCmd(4) = 1 keeps from being checked, so that a later hit on wrong ones raises Cache Error: DESIGN CHOICE (log entry
16), the spec does not say whether they are kept or generated anew (R721). -/
def memoryLine (s : State) (r : ReadResponse) (line : PAddr) : LineData :=
  let d := lineOfBytes (physReadBytes s.physMap s.mem r.device line.toNat 32)
  (d, linePar d ^^^ r.badParity)

/-- A block read (R701, R720): from the secondary cache if it takes part and holds the line, else from the external agent,
and then into the secondary cache too. The answer is the line, or the exception its first doubleword raises; the place in the secondary
cache is then invalid, with the tag of the line asked for. That its data RAM then keeps the old data and check bits is DESIGN CHOICE (log
entry 20). -/
def readBlock (cp : Cp0) (fetch : Bool) (r : ReadResponse) (pa : PAddr) (c : BitVec 3) (vi : BitVec 2) (retained : Bool)
    (s : State) : Res (Except Exc LineData) :=
  let t := beforeRead s
  let first := byteMask (8 * (lineOffset pa / 8)) 8
  let i := scacheIndex s.boot pa
  let l := slineAt t i
  if scacheInUse s cp c && l.valid && l.tag == scacheTag pa then
    let u := t.addBus (.readBlock pa vi retained true)
    if !cp.status.de && (badBytes l.data l.par &&& first) != 0 then
      .ok (.error (.cacheError (cacheErrInfo (!fetch) true false true))) (u.putSLine i { l with valid := false })
    else .ok (.ok (l.data, l.par)) u
  else
    let u := t.addBus (.readBlock pa vi retained false)
    if r.unanswered then .fault .unansweredRead
    else
      let d := memoryLine u r (lineOf pa)
      match responseError cp fetch r first with
      | some e => .ok (.error e) (if scacheInUse s cp c then u.putSLine i { l with valid := false, tag := scacheTag pa } else u)
      | none =>
        .ok (.ok d) (if scacheInUse s cp c then u.putSLine i { valid := true, tag := scacheTag pa, data := d.1, par := d.2 } else u)

/-! ## The data cache (R191) -/

/-- The exception a line raises when it is written back with a parity error and Status.DE = 0 (R721, Table 13.1). -/
def writebackError (cp : Cp0) (l : DLine) : Option Exc :=
  if !cp.status.de && badBytes l.data l.par != 0 then some (.cacheError (cacheErrInfo true true false false)) else none

/-- Write a line back: a block write through the write buffer, with the check bits the line holds. -/
def writeBack (l : DLine) (set : Nat) (vi : BitVec 2) (retained : Bool) (s : State) : State :=
  pushBlock (lineAddress l.tag set) vi retained l.wbPage (lineBytes l.data 0 32) l.par s

/-- The line leaves its place: a modified one is written back. -/
def writeOut (l : DLine) (set : Nat) (vi : BitVec 2) (s : State) : State :=
  if dvalid l && l.w then writeBack l set vi false s else s

/-- A link to the line is broken if it was valid (R181). -/
def State.lineGone (s : State) (l : DLine) (set : Nat) : State := if dvalid l then s.breakLink (lineAddress l.tag set) else s

/-- The exception a line raises as it is replaced: found as a modified line with wrong parity moves to the write buffer. DESIGN CHOICE
(log entry 13): the miss's own read has been made by then, and the line goes out with its check bits. -/
def victimError (cp : Cp0) (l : DLine) : Option Exc := if dvalid l && l.w then writebackError cp l else none

/-- Put a line in the place a refill takes: the old one leaves, its parity error raising Cache Error; an exception leaves the link
(spec/40_loads_stores.md R261). A load or store between LL and SC that replaces the link's line so makes the SC fail, by R181 (b) against
the success that R182 promises: DESIGN CHOICE (log entry 54). -/
def replaceD (cp : Cp0) (i : Nat) (vi : BitVec 2) (new : DLine) (s : State) : Res Bool :=
  let d := dsetAt s i
  let old := dwayOf d d.fifo
  let t := writeOut old i vi (s.putDSet i { dsetWay d d.fifo new with fifo := !d.fifo })
  match victimError cp old with
  | some e => .exc e t
  | none => .ok d.fifo (t.lineGone old i)

/-- Bring the line of an address into the data cache (R701): the block read, then the write-back of the line it replaces.
An error of the read leaves the place invalid and the link as it was. The answer is the way filled. A Bus Error of the read is that of
the access, for a store too: DEDUCED (log entry 58), by spec/60_exceptions.md R780, where spec/40_loads_stores.md R261 has loads only. -/
def refillD (cp : Cp0) (va : Dword) (pa : PAddr) (c : BitVec 3) (s : State) : Res Bool :=
  let i := setIndex va
  let vi := va.extractLsb' 12 2
  Res.bind (readBlock cp false s.inp.dataResponse pa c vi false s) fun a t =>
    match a with
    | .error e =>
      let d := dsetAt t i
      let old := dwayOf d d.fifo
      .exc ((victimError cp old).getD e) (writeOut old i vi (t.putDSet i (dsetWay d d.fifo dlineInvalid)))
    | .ok (dat, par) =>
      replaceD cp i vi
        (dtagged { dlineInvalid with state := 3, tag := primaryTag pa, data := dat, par := par, wbPage := c == 3 }) t

/-- A tag parity error on this access, stored (`bad`) or one the environment reports, while Status.DE = 0 (spec/60_exceptions.md R781). -/
def tagParity (cp : Cp0) (fetch : Bool) (r : ReadResponse) (bad : Bool) : Option Exc :=
  if !cp.status.de && (r.tagError || bad) then some (.cacheError (cacheErrInfo (!fetch) false true false)) else none

/-- Read `n` bytes of a cached location. On a hit the check bits of the eight bytes of the doubleword are checked, not of the bytes read
alone: DESIGN CHOICE (log entry 16), the spec only has data checked when it is referenced (R721). -/
def loadCached (cp : Cp0) (va : Dword) (pa : PAddr) (c : BitVec 3) (n : Nat) (s : State) : Res (List Byte) :=
  let i := setIndex va
  let o := lineOffset pa
  match tagParity cp false s.inp.dataResponse (dsetBad (dsetAt s i)) with
  | some e => .exc e s
  | none =>
    match dhit (dsetAt s i) (primaryTag pa) with
    | some way =>
      let l := dwayOf (dsetAt s i) way
      if !cp.status.de && (badBytes l.data l.par &&& byteMask (8 * (o / 8)) 8) != 0 then
        .exc (.cacheError (cacheErrInfo true true false false)) s
      else .ok (lineBytes l.data o n) s
    | none =>
      Res.bind (refillD cp va pa c s) fun way t => .ok (lineBytes (dwayOf (dsetAt t i) way).data o n) t

/-- Check bits between the lanes of the bus (bit i for bits 8i+7:8i of a doubleword) and memory order. That the bits of ECC stand in
this order is DESIGN CHOICE (log entry 52): the spec gives none. -/
def laneOrder (bigEndian : Bool) (p : BitVec 8) : BitVec 8 := if bigEndian then p.reverse else p

/-- The check bits of stored bytes: computed, or from the ECC register when Status.CE is set (spec/10_state.md R80); a store takes the bits
of its own bytes only, by `laneOrder`. DESIGN CHOICE (log entry 52). -/
def storePar (bigEndian : Bool) (cp : Cp0) (o n : Nat) (d : BitVec 256) (par : BitVec 32) : BitVec 32 :=
  let m := byteMask o n
  let bits := if cp.status.ce then ((laneOrder bigEndian cp.ecc).setWidth 32) <<< (8 * (o / 8)) else linePar d
  (par &&& ~~~m) ||| (bits &&& m)

/-- Store bytes into a line of the data cache; a write-back store (`dirty`) marks it modified, and the line is Dirty Exclusive, also
one that was in state 1 or 2: DESIGN CHOICE (log entry 56). -/
def storeInLine (cp : Cp0) (i : Nat) (way : Bool) (o : Nat) (dirty : Bool) (bs : List Byte) (s : State) : State :=
  let d := dsetAt s i
  let l := dwayOf d way
  let dat := setLineBytes l.data o bs
  s.putDSet i (dsetWay d way (dtagged { l with
    state := 3
    w := l.w || dirty
    data := dat
    par := storePar s.boot.bigEndianMem cp o bs.length dat l.par
    wbPage := l.wbPage || dirty }))

/-- Store bytes to a cached location (Table 8.2): write-back (3) in the cache, write-through (0, 1) also to memory; a miss
reads the line first, but for attribute 0. A store checks tags, and not the check bits of the data it finds: DESIGN CHOICE (log entry 16). The store's
own write raises no Bus Error, the read of its line does: DEDUCED (log entry 58). -/
def storeCached (cp : Cp0) (va : Dword) (pa : PAddr) (c : BitVec 3) (bs : List Byte) (s : State) : Res Unit :=
  let i := setIndex va
  let o := lineOffset pa
  let vi := va.extractLsb' 12 2
  let through (t : State) : State := if c == 3 then t else pushSingle pa vi bs t
  match tagParity cp false s.inp.dataResponse (dsetBad (dsetAt s i)) with
  | some e => .exc e s
  | none =>
    match dhit (dsetAt s i) (primaryTag pa) with
    | some way => .ok () (through (storeInLine cp i way o (c == 3) bs s))
    | none =>
      if c == 0 then .ok () (through s)
      else Res.bind (refillD cp va pa c s) fun way t => .ok () (through (storeInLine cp i way o (c == 3) bs t))

/-! ## The primitives of loads and stores (R131) -/

/-- The physical address of the bytes: in reverse-endian mode the offset in the doubleword is mirrored, so that the doubleword
on the bus keeps its value (R135, log entry 10). -/
def mirrored (reverse : Bool) (n : Nat) (pa : PAddr) : PAddr :=
  if reverse then (pa.extractLsb' 3 33) ++ BitVec.ofNat 3 (8 - (pa.extractLsb' 0 3).toNat - n) else pa

/-- Where the bytes of an access lie whose address translates to this one, in the view of a data access. -/
def placeOf (s : State) (n : Nat) (pa : PAddr) : PAddr := mirrored (reverseEndian (seen .data s).cp0.status) n pa

/-- The access of R131 up to the physical address and attribute, in the view of a data access. -/
def dataAddress (s : State) (kind : AccessKind) (n : Nat) (va : Dword) : Look (PAddr × BitVec 3) :=
  match translate (seen .data s) kind va with
  | .ok (pa, c) => .ok (placeOf s n pa, c)
  | .error e => .error e

/-- Read `n` bytes at a physical address with an attribute. -/
def loadPhys (va : Dword) (n : Nat) (pa : PAddr) (c : BitVec 3) (s : State) : Res (List Byte) :=
  let cp := (seen .data s).cp0
  if c == 2 then
    readUncached cp false s.inp.dataResponse pa (va.extractLsb' 12 2) n n (byteMask (lineOffset pa) n) s
  else loadCached cp va pa c n s

/-- Record what a store replaces in memory: a fetch of the next instructions may still find it (R186, spec/70_reset_and_hazards.md
R874). -/
def noteCode (pa : PAddr) (n : Nat) (before after : State) : State :=
  after.addHazard (.code pa (memReadBytes (drainAll before).mem pa.toNat n))

/-- Write bytes at a physical address with an attribute. -/
def storePhys (va : Dword) (pa : PAddr) (c : BitVec 3) (bs : List Byte) (s : State) : Res Unit :=
  let cp := (seen .data s).cp0
  Res.bind (if c == 2 then .ok () (pushSingle pa (va.extractLsb' 12 2) bs s) else storeCached cp va pa c bs s) fun _ t =>
    .ok () (noteCode pa bs.length s t)

/-- `MemRead(va, n)` after the alignment check: the value of the bytes, zero-extended. -/
def loadValue (va : Dword) (n : Nat) (s : State) : Res Dword :=
  (dataAddress s .load n va).on s fun (pa, c) =>
    Res.bind (loadPhys va n pa c s) fun bs t => .ok (valueOfBytes s.boot.bigEndianMem bs) t

/-- `MemWrite(va, n, v)` after the alignment check. -/
def storeValue (va : Dword) (n : Nat) (v : Dword) (s : State) : Res Unit :=
  (dataAddress s .store n va).on s fun (pa, c) => storePhys va pa c (bytesOfValue s.boot.bigEndianMem n v) s

/-- The alignment of R136. -/
def alignedTo (n : Nat) (va : Dword) : Bool := va.toNat % n == 0

/-- Go on if the address is aligned, else Address Error. -/
def needAligned {α : Type} (n : Nat) (store : Bool) (va : Dword) (s : State) (k : Res α) : Res α :=
  if alignedTo n va then k else .exc (.addressError store va) s

/-! ## Instruction fetch (R139) -/

/-- The instruction type of the even words of a line, as the refill writes it (spec/10_state.md R125): a floating-point opcode. -/
def evenWordTypes (bigEndian : Bool) (d : BitVec 256) : Nat → BitVec 4
  | 0 => 0
  | k + 1 =>
    let op := ((valueOfBytes bigEndian (lineBytes d (8 * k) 4)).extractLsb' 26 6)
    evenWordTypes bigEndian d k |||
      (if op == 17 || op == 19 || op == 49 || op == 53 || op == 57 || op == 61 then 1#4 <<< k else 0)

/-- Bring the line of an address into the instruction cache, over its old copy or in the FIFO way; `par` replaces the computed
parity (CACHE Fill). The FIFO bit then names the other way; that it does so behind a Fill over the old copy too is DESIGN CHOICE (log entry
13). -/
def refillI (cp : Cp0) (fetch : Bool) (r : ReadResponse) (va : Dword) (pa : PAddr) (c : BitVec 3) (par : Option (BitVec 8)) (s : State) :
    Res Bool :=
  let i := setIndex va
  let d := isetAt s i
  let way := (ihit d (primaryTag pa)).getD d.fifo
  let retained := s.llBit && (lineOf s.linkAddr).extractLsb' 5 7 == pa.extractLsb' 5 7
  Res.bind (readBlock cp fetch r pa c (va.extractLsb' 12 2) retained s) fun a t =>
    match a with
    | .error e => .exc e (t.putISet i (isetWay d way ilineInvalid))
    | .ok (dat, p) =>
      .ok way (t.putISet i { isetWay d way (itagged { iwayOf d way with
        valid := true
        tag := primaryTag pa
        itype := evenWordTypes s.boot.bigEndianMem dat 4
        data := dat
        par := par.getD (fetchPar dat p) }) with fifo := !way })

/-- A word of an instruction-cache line has a wrong check bit. -/
def badWord (l : ILine) (k : Nat) : Bool := (wordPar (linePar l.data) 8 ^^^ l.par).getLsbD k

/-- Fetch the four bytes of an instruction from a cached address. -/
def fetchCached (cp : Cp0) (va : Dword) (pa : PAddr) (c : BitVec 3) (s : State) : Res (List Byte) :=
  let i := setIndex va
  let o := lineOffset pa
  let v := seen .fetch s
  match tagParity cp true s.inp.fetchResponse (isetBad (isetAt v i)) with
  | some e => .exc e s
  | none =>
    match ihit (isetAt v i) (primaryTag pa) with
    | some way =>
      let l := iwayOf (isetAt v i) way
      if !cp.status.de && badWord l (o / 4) then .exc (.cacheError (cacheErrInfo false true false false)) s
      else .ok (lineBytes l.data o 4) s
    | none =>
      Res.bind (refillI cp true s.inp.fetchResponse va pa c none s) fun way t =>
        .ok (lineBytes (iwayOf (isetAt t i) way).data o 4) t

/-- Bytes from address `a` on, with those that `old` has from address `q` on put back. -/
def overlay (q : Nat) (old : List Byte) (a : Nat) : List Byte → List Byte
  | [] => []
  | b :: bs => (if q ≤ a then old.getD (a - q) b else b) :: overlay q old (a + 1) bs

/-- The bytes fetched at an address, as they stood before the stores that the environment holds back from this fetch (R186). -/
def codeSeen (s : State) (pa : PAddr) (bs : List Byte) : List Byte :=
  (s.inp.stale.filter fun p => p.1 == .fetch).foldl
    (fun b p => match s.hazards[p.2]?.map Hazard.undo with
      | some (.code q old) => overlay q.toNat old pa.toNat b
      | _ => b) bs

/-- Fetch the four bytes at PC: the checks of R139 in order, then the instruction cache or a doubleword read (R702). Each uncached
instruction is one read of its own, of the doubleword at its address, also where it is the second of a doubleword just read. DESIGN CHOICE
(log entry 48). -/
def fetchBytes (s : State) : Res (List Byte) :=
  let v := seen .fetch s
  let cp := v.cp0
  needAligned 4 false s.pc s <|
    (translate v .fetch s.pc).on s fun (pa, c) =>
      Res.bind
        (if c == 2 then
          readUncached cp true s.inp.fetchResponse pa (s.pc.extractLsb' 12 2) 4 8 (byteMask (8 * (lineOffset pa / 8)) 8) s
        else fetchCached cp s.pc pa c s)
        fun bs t => .ok (codeSeen s pa bs) t

/-! ## The encoded System interface (spec/49_system_interface.md R708 to R714) -/

/-- SysCmd of the address cycle of a request (R710); the answer to an external read has no address cycle. -/
def busCommand : BusRequest → BitVec 9
  | .readBlock _ _ linkRetained _ => 0x011 ||| (if linkRetained then 4 else 0)
  | .read _ _ size => 0x018 ||| BitVec.ofNat 9 (size - 1)
  | .writeBlock _ _ retained _ _ _ => 0x051 ||| (if retained then 4 else 0)
  | .write _ _ bs _ => 0x058 ||| BitVec.ofNat 9 (bs.length - 1)
  | .answer _ _ => 0

/-- The address on SysAD[35:0] (R712): a block read names the doubleword it wants first, a block write the start of the line;
word, halfword and doubleword requests clear their low bits, but for an uncached instruction fetch (R702). -/
def busAddress : BusRequest → PAddr
  | .readBlock pa _ _ _ => pa.extractLsb' 3 33 ++ 0#3
  | .read pa _ _ => pa
  | .writeBlock pa _ _ _ _ _ => lineOf pa
  | .write pa _ _ _ => pa
  | .answer _ _ => 0

/-- SysAD of the address cycle: the physical address, and va[13:12] on bits 57:56 (R708). -/
def busAddressCycle (r : BusRequest) : Dword :=
  let vi := match r with
    | .readBlock _ v _ _ | .read _ v _ | .writeBlock _ v _ _ _ _ | .write _ v _ _ => v
    | .answer _ _ => 0
  0#6 ++ vi ++ 0#20 ++ busAddress r

/-- The order in which the external agent returns the doublewords of a line (R713). -/
def subblockOrder (start : BitVec 2) : List (BitVec 2) := [start, start ^^^ 1, start ^^^ 2, start ^^^ 3]

/-- SysCmd of a data cycle (R711): the last element, response data, erroneous data; the reserved bits hold any value. -/
def busDataIdentifier (last response erroneous : Bool) (reserved : BitVec 5) : BitVec 9 :=
  1#1 ++ bit (!last) ++ bit (!response) ++ bit erroneous ++ reserved

/-- SysAD of a data cycle (R714): byte 8q+i on SysAD(8i+7:8i), or on SysAD(63-8i:56-8i) in a big-endian system; the lanes of no byte
hold what `other` has there. -/
def busLanes (bigEndian : Bool) (other : Dword) (offset : Nat) : List Byte → Dword
  | [] => other
  | b :: rest =>
    let at0 := if bigEndian then 56 - 8 * offset else 8 * offset
    (busLanes bigEndian other (offset + 1) rest &&& ~~~(0xFF#64 <<< at0)) ||| (b.setWidth 64 <<< at0)

/-- The generated check bits of a doubleword on the bus: one for each lane (R721). -/
def laneParity (d : Dword) : BitVec 8 := (gatherParity (foldParity (d.setWidth 256)) 8).setWidth 8

/-- The data cycle of doubleword `q` of a line that is written back: its bytes and check bits as the cache holds them, marked erroneous
if one is wrong (R711, R721). That Status.DE does not take the mark away is DESIGN CHOICE (log entry 35). -/
def busBlockCycle (bigEndian : Bool) (bs : List Byte) (par : BitVec 32) (undef q : Nat) : BusData :=
  { command := busDataIdentifier (q == 3) false (((badBytes (lineOfBytes bs) par).extractLsb' (8 * q) 8) != 0)
      ((Config.freeBits undef).extractLsb' (5 * q) 5)
    data := busLanes bigEndian 0 0 ((bs.drop (8 * q)).take 8)
    check := laneOrder bigEndian (par.extractLsb' (8 * q) 8) }

/-- The data cycles the processor drives for what it puts on the interface (R711, R714, R716). What the spec leaves undefined there is
free: reserved bits, the lanes of no byte, the data of an answer (spec/93_implementation_defined.md A6.4, A6.5). -/
def busDataCycles (bigEndian : Bool) : BusRequest → List BusData
  | .readBlock _ _ _ _ | .read _ _ _ => []
  | .write pa _ bs u =>
    let d := busLanes bigEndian (Config.freeBits u) (pa.toNat % 8) bs
    [{ command := busDataIdentifier true false false ((Config.freeBits (u + 1)).extractLsb' 0 5), data := d, check := laneParity d }]
  | .writeBlock _ _ _ bs par u => [0, 1, 2, 3].map (busBlockCycle bigEndian bs par u)
  | .answer _ u =>
    let d := Config.freeBits u
    [{ command := busDataIdentifier true true true ((Config.freeBits (u + 1)).extractLsb' 0 5), data := d, check := laneParity d }]

end Sys2Proof.Machine
end

