-- ==== Sys2Proof/Machine/Operands.lean ====
section
/-! DEFINITION. Sys2Proof/Machine/Operands.lean: the operand forms of spec/30_encoding.md R224: effective addresses, 32-bit operands,
results of loads and the partial accesses of the unaligned instructions. -/

namespace Sys2Proof.Machine

/-! ## Addresses -/

/-- Base register plus signed 16-bit offset, modulo 2^64 (spec/40_loads_stores.md R260). -/
def baseOffset (s : State) (base : RegNum) (offset : BitVec 16) : Dword := readGpr s base + sext16 offset

/-- Base register plus index register (spec/46_fpu_moves.md R524). -/
def baseIndex (s : State) (base index : RegNum) : Dword := readGpr s base + readGpr s index

/-- The target of a branch: the delay slot's address plus the offset in instructions (spec/43_jumps_branches.md R404). -/
def branchTarget (s : State) (offset : BitVec 16) : Dword := s.pc + 4 + (sext16 offset <<< 2)

/-- The target of J and JAL: the delay slot's bits 63:28, then the 26-bit index (R404). -/
def jumpTarget (s : State) (target : BitVec 26) : Dword := (s.pc + 4).extractLsb' 28 36 ++ target ++ 0#2

/-- The link value: the address after the delay slot (R405). -/
def linkValue (s : State) : Dword := s.pc + 8

/-! ## Loads and stores -/

/-- The sign extension of an `n`-byte value. -/
def signExtendBytes (n : Nat) (v : Dword) : Dword := (v.setWidth (8 * n)).signExtend 64

/-- A load into a general register: aligned, read, extended, written (spec/40_loads_stores.md R261, R263). -/
def loadGpr (n : Nat) (ext : Dword → Dword) (rt : RegNum) (va : Dword) (s : State) : Res Flow :=
  needAligned n false va s <| Res.bind (loadValue va n s) fun v t => goOn (t.writeGpr rt (ext v))

/-- A store of the low bytes of a value: aligned, written (R261, R263). -/
def storeBytes (n : Nat) (v : Dword) (va : Dword) (s : State) : Res Flow :=
  needAligned n true va s <| Res.bind (storeValue va n v s) fun _ t => goOn t

/-- Where a left or right instruction starts in its aligned unit of `size` bytes, and how many bytes it moves (R276). -/
def partOf (bigEndian left : Bool) (size : Nat) (va : Dword) : Nat × Nat :=
  let a := va.toNat % size
  if left == bigEndian then (a, size - a) else (0, a + 1)

/-- The physical address of the first byte a left or right instruction moves. -/
def partAddress (size start : Nat) (pa : PAddr) : PAddr := BitVec.ofNat 36 (pa.toNat - pa.toNat % size + start)

/-- The access of a left or right instruction: the address, the attribute and the number of bytes. -/
def partAccess (kind : AccessKind) (left : Bool) (size : Nat) (va : Dword) (s : State) : Look (PAddr × BitVec 3 × Nat) :=
  let v := seen .data s
  let (start, n) := partOf (bigEndianCpu v) left size va
  match translate v kind va with
  | .ok (pa, c) => .ok (mirrored (reverseEndian v.cp0.status) n (partAddress size start pa), c, n)
  | .error e => .error e

/-- `n` bytes of memory joined to the left of a register of `size` bytes (R277, R279). -/
def mergeLeft (size n : Nat) (reg v : Dword) : Dword :=
  (v <<< (8 * (size - n))) ||| (reg &&& BitVec.ofNat 64 (2 ^ (8 * (size - n)) - 1))

/-- `n` bytes of memory joined to the right of a register (R278, R280). -/
def mergeRight (n : Nat) (reg v : Dword) : Dword :=
  v ||| (reg &&& ~~~(BitVec.ofNat 64 (2 ^ (8 * n) - 1)))

/-- LWL, LWR, LDL, LDR: read the part, merge it, extend the merged unit (R276, D21). -/
def loadPart (left : Bool) (size : Nat) (ext : Dword → Dword) (rt : RegNum) (va : Dword) (s : State) : Res Flow :=
  (partAccess .load left size va s).on s fun (pa, c, n) =>
    Res.bind (loadPhys va n pa c s) fun bs t =>
      let v := valueOfBytes s.boot.bigEndianMem bs
      let r := if left then mergeLeft size n (readGpr s rt) v else mergeRight n (readGpr s rt) v
      goOn (t.writeGpr rt (ext r))

/-- SWL, SWR, SDL, SDR: the most or least significant bytes of the register's low `size` bytes (R281 to R284). -/
def storePart (left : Bool) (size : Nat) (rt : RegNum) (va : Dword) (s : State) : Res Flow :=
  (partAccess .store left size va s).on s fun (pa, c, n) =>
    let v := if left then readGpr s rt >>> (8 * (size - n)) else readGpr s rt
    Res.bind (storePhys va pa c (bytesOfValue s.boot.bigEndianMem n v) s) fun _ t => goOn t

/-! ## 32-bit operands (spec/10_state.md R30, spec/41_alu.md R311) -/

/-- A 32-bit result of operands that must be sign-extended: the value if they are, else a free value (D22). -/
def result32 (proper : Bool) (w : Word) (s : State) : Dword := if proper then sext32 w else freeAt s 0

/-- Write a register with a 32-bit result, counting the free value an improper operand draws. -/
def write32 (rd : RegNum) (proper : Bool) (w : Word) (s : State) : Res Flow :=
  goOn ((s.writeGpr rd (result32 proper w s)).drawn (if proper then 0 else 1))

/-! ## Floating-point registers (spec/46_fpu_moves.md R521, spec/10_state.md R105, R106) -/

/-- The two formats a floating-point register is read and written in: single, which W shares, and double, which L shares. -/
inductive Fmt where
  | S
  | D
  deriving DecidableEq, Repr

/-- Status.FR as a floating-point register access sees it. -/
def frSeen (s : State) : Bool := (seen .fpRegs s).cp0.status.fr

/-- The low word of a floating-point general register. -/
def readFgrS (s : State) (n : RegNum) : Word := low32 (readFgr s n)

/-- A doubleword: one register, or the even and odd registers of a pair while FR = 0. -/
def readFgrD (s : State) (n : RegNum) : Dword :=
  if frSeen s then readFgr s n else readFgrS s (n + 1) ++ readFgrS s n

/-- The upper word of a register whose low word is written: a free value while FR = 1 (R106), kept while FR = 0. -/
def upperAfterWord (s : State) (n : RegNum) : Word :=
  if frSeen s then (freeAt s 0).extractLsb' 0 32 else (readFgr s n).extractLsb' 32 32

/-- Write the low word of a register. -/
def writeFgrS (n : RegNum) (w : Word) (s : State) : State :=
  (s.setFgr n (upperAfterWord s n ++ w)).drawn (if frSeen s then 1 else 0)

/-- Write a doubleword. -/
def writeFgrD (n : RegNum) (v : Dword) (s : State) : State :=
  if frSeen s then s.setFgr n v
  else
    (s.setFgr n ((readFgr s n).extractLsb' 32 32 ++ v.extractLsb' 0 32)).setFgr (n + 1)
      ((readFgr s (n + 1)).extractLsb' 32 32 ++ v.extractLsb' 32 32)

/-- A floating-point register in a format; a single stands in the low half. -/
def readFpr (f : Fmt) (s : State) (n : RegNum) : Dword :=
  match f with
  | .S => zext32 (readFgrS s n)
  | .D => readFgrD s n

/-- Write a floating-point register in a format. -/
def writeFpr (f : Fmt) (n : RegNum) (v : Dword) (s : State) : State :=
  match f with
  | .S => writeFgrS n (low32 v) s
  | .D => writeFgrD n v s

/-- While FR = 0 only even registers may be named; an odd one is refused (R521, spec/47_fpu_arith.md R574 (4)). -/
def evenFprs {α : Type} (ns : List RegNum) (s : State) (k : Res α) : Res α :=
  if !frSeen s && ns.any (fun n => n.getLsbD 0) then .refuse .oddFpr else k

/-- The address of an indexed access: its region is the base's, else Address Error (R524). -/
def needRegion {α : Type} (store : Bool) (base : RegNum) (va : Dword) (s : State) (k : Res α) : Res α :=
  if va.extractLsb' 62 2 == (readGpr s base).extractLsb' 62 2 then k else .exc (.addressError store va) s

/-- A load into a floating-point register (R523, R526, R527). -/
def loadFpr (f : Fmt) (n : RegNum) (va : Dword) (s : State) : Res Flow :=
  match f with
  | .S => needAligned 4 false va s <| Res.bind (loadValue va 4 s) fun v t => goOn (writeFpr .S n v t)
  | .D => evenFprs [n] s <| needAligned 8 false va s <| Res.bind (loadValue va 8 s) fun v t => goOn (writeFpr .D n v t)

/-- A store from a floating-point register (R523, R528, R529). -/
def storeFpr (f : Fmt) (n : RegNum) (va : Dword) (s : State) : Res Flow :=
  match f with
  | .S => storeBytes 4 (readFpr .S s n) va s
  | .D => evenFprs [n] s (storeBytes 8 (readFpr .D s n) va s)

end Sys2Proof.Machine
end

