-- ==== Sys2Proof/Machine/Flags.lean ====
section
/-! DEFINITION. Sys2Proof/Machine/Flags.lean: integer overflow (spec/41_alu.md R312), the condition bits and FCR31
(spec/10_state.md R108 to R113), and the update every floating-point operation makes (spec/48_fpu_exceptions.md R651). -/

namespace Sys2Proof.Machine

/-! ## Integer overflow (R312) -/

/-- A signed sum overflows. -/
def addOverflow {n : Nat} (a b : BitVec n) : Bool := a.msb == b.msb && (a + b).msb != a.msb

/-- A signed difference overflows. -/
def subOverflow {n : Nat} (a b : BitVec n) : Bool := a.msb != b.msb && (a - b).msb != a.msb

/-! ## FCR31 and the condition bits -/

/-- FCR31 as a word: FCC[7:1] in bits 31:25, FS, FCC[0] in bit 23, Cause, Enables, Flags, RM (R108, R113). -/
def packFcr31 (f : Fcr31) : Word :=
  f.fcc.extractLsb' 1 7 ++ bit f.fs ++ f.fcc.extractLsb' 0 1 ++ 0#5 ++ f.cause ++ f.enables ++ f.flags ++ f.rm

/-- The fields of a value written to FCR31. -/
def unpackFcr31 (w : Word) : Fcr31 :=
  { fcc := w.extractLsb' 25 7 ++ w.extractLsb' 23 1, fs := w.getLsbD 24, cause := w.extractLsb' 12 6,
    enables := w.extractLsb' 7 5, flags := w.extractLsb' 2 5, rm := w.extractLsb' 0 2 }

/-- A condition bit. -/
def conditionBit (f : Fcr31) (cc : BitVec 3) : Bool := f.fcc.getLsbD cc.toNat

/-- FCR31 with one condition bit written. -/
def setCondition (f : Fcr31) (cc : BitVec 3) (b : Bool) : Fcr31 :=
  { f with fcc := (f.fcc &&& ~~~(1#8 <<< cc.toNat)) ||| ((bit b).setWidth 8 <<< cc.toNat) }

/-- The condition bit as BC1F, BC1T, BC1FL, BC1TL, MOVF and MOVT see it: just behind a compare, the environment may have it
show its old value (spec/70_reset_and_hazards.md R872). -/
def conditionRead (s : State) (cc : BitVec 3) : Bool :=
  if s.inp.fccStale then
    match s.fccOld with
    | some (_, old) => old.getLsbD cc.toNat
    | none => conditionBit s.fcr31 cc
  else conditionBit s.fcr31 cc

/-! ## Floating-point exceptions (spec/48_fpu_exceptions.md R651); the bits of a set are E V Z O U I -/

/-- Unimplemented Operation. -/
def xE : BitVec 6 := 0x20
/-- Invalid Operation. -/
def xV : BitVec 6 := 0x10
/-- Division by Zero. -/
def xZ : BitVec 6 := 0x08
/-- Overflow, which always brings Inexact. -/
def xOI : BitVec 6 := 0x05
/-- Underflow, which always brings Inexact. -/
def xUI : BitVec 6 := 0x03
/-- Inexact. -/
def xI : BitVec 6 := 0x01

/-- The Floating-Point exception is raised: Cause has E, or an exception whose Enable bit is set (R651 (2), R652). -/
def fpTraps (t : Fcr31) : Bool := t.cause.getLsbD 5 || (t.cause.extractLsb' 0 5 &&& t.enables) != 0

/-- What every floating-point operation does with its exceptions `x` and its default result, which `k` writes: Cause holds
`x`; a trap changes nothing else; without one the Flags collect `x` and the result is written (R651). `busy` marks an
operation of more than one cycle (spec/70_reset_and_hazards.md R871). -/
def fpComplete (busy : Bool) (x : BitVec 6) (k : State → State) (s : State) : Res Flow :=
  let t := { s.fcr31 with cause := x }
  if fpTraps t then .exc .floatingPoint (s.setFcr31 t)
  else goOn (k ((s.setFcr31 { t with flags := t.flags ||| x.extractLsb' 0 5 }).setFpBusy (s.fpBusy || busy)))

end Sys2Proof.Machine
end

