-- ==== Sys2Proof/Machine/Alu.lean ====
section
/-! DEFINITION. Sys2Proof/Machine/Alu.lean: immediate, three-operand and shift instructions (spec/41_alu.md R310 to R354). -/

namespace Sys2Proof.Machine

/-! ## Shared forms -/

/-- A 32-bit operation on two operands that must be sign-extended (R311). -/
def alu32 (f : Word → Word → Word) (rd : RegNum) (a b : Dword) (s : State) : Res Flow :=
  write32 rd (isSext32 a && isSext32 b) (f (low32 a) (low32 b)) s

/-- A 32-bit operation on one operand that must be sign-extended (R311). -/
def alu32One (f : Word → Word) (rd : RegNum) (a : Dword) (s : State) : Res Flow :=
  write32 rd (isSext32 a) (f (low32 a)) s

/-- A 64-bit operation: the result replaces the destination. -/
def alu64 (rd : RegNum) (v : Dword) (s : State) : Res Flow := goOn (s.writeGpr rd v)

/-- A trapping 32-bit sum or difference (R312): on improper operands both the overflow and the result are free (D22). -/
def trapping32 (proper overflow : Bool) (w : Word) (rd : RegNum) (s : State) : Res Flow :=
  if proper then (if overflow then .exc .overflow s else goOn (s.writeGpr rd (sext32 w)))
  else if freeBitAt s 1 then .exc .overflow (s.drawn 2)
  else goOn ((s.writeGpr rd (freeAt s 0)).drawn 2)

/-- A trapping 64-bit sum or difference (R312). -/
def trapping64 (overflow : Bool) (v : Dword) (rd : RegNum) (s : State) : Res Flow :=
  if overflow then .exc .overflow s else goOn (s.writeGpr rd v)

/-- The value of a comparison: 1 or 0. -/
def truth (b : Bool) : Dword := if b then 1 else 0

/-! ## Immediate instructions (Table 2.5) -/

/-- ADDI (R315). -/
def execAddi (rt rs : BitVec 5) (imm : BitVec 16) (s : State) : Result :=
  finish (trapping32 (isSext32 (readGpr s rs)) (addOverflow (low32 (readGpr s rs)) (imm.signExtend 32))
    (low32 (readGpr s rs) + imm.signExtend 32) rt s)

/-- ADDIU: the immediate is sign-extended (R316). -/
def execAddiu (rt rs : BitVec 5) (imm : BitVec 16) (s : State) : Result :=
  finish (alu32One (fun a => a + imm.signExtend 32) rt (readGpr s rs) s)

/-- SLTI (R317). -/
def execSlti (rt rs : BitVec 5) (imm : BitVec 16) (s : State) : Result :=
  finish (alu64 rt (truth ((readGpr s rs).slt (sext16 imm))) s)

/-- SLTIU: the immediate is sign-extended, then compared unsigned (R318). -/
def execSltiu (rt rs : BitVec 5) (imm : BitVec 16) (s : State) : Result :=
  finish (alu64 rt (truth ((readGpr s rs).ult (sext16 imm))) s)

/-- ANDI (R319). -/
def execAndi (rt rs : BitVec 5) (imm : BitVec 16) (s : State) : Result :=
  finish (alu64 rt (readGpr s rs &&& zext16 imm) s)

/-- ORI (R320). -/
def execOri (rt rs : BitVec 5) (imm : BitVec 16) (s : State) : Result :=
  finish (alu64 rt (readGpr s rs ||| zext16 imm) s)

/-- XORI (R321). -/
def execXori (rt rs : BitVec 5) (imm : BitVec 16) (s : State) : Result :=
  finish (alu64 rt (readGpr s rs ^^^ zext16 imm) s)

/-- DADDI (R323). -/
def execDaddi (rt rs : BitVec 5) (imm : BitVec 16) (s : State) : Result :=
  finish (need64 s (trapping64 (addOverflow (readGpr s rs) (sext16 imm)) (readGpr s rs + sext16 imm) rt s))

/-- DADDIU (R324). -/
def execDaddiu (rt rs : BitVec 5) (imm : BitVec 16) (s : State) : Result :=
  finish (need64 s (alu64 rt (readGpr s rs + sext16 imm) s))

/-- LUI (R322). -/
def execLui (rt : BitVec 5) (imm : BitVec 16) (s : State) : Result :=
  finish (alu64 rt (sext32 (imm ++ 0#16)) s)

/-! ## Three-operand instructions (Table 2.6) -/

/-- ADD (R325). -/
def execAdd (rd rs rt : BitVec 5) (s : State) : Result :=
  finish (trapping32 (isSext32 (readGpr s rs) && isSext32 (readGpr s rt)) (addOverflow (low32 (readGpr s rs)) (low32 (readGpr s rt)))
    (low32 (readGpr s rs) + low32 (readGpr s rt)) rd s)

/-- ADDU (R326). -/
def execAddu (rd rs rt : BitVec 5) (s : State) : Result :=
  finish (alu32 (fun a b => a + b) rd (readGpr s rs) (readGpr s rt) s)

/-- SUB (R327). -/
def execSub (rd rs rt : BitVec 5) (s : State) : Result :=
  finish (trapping32 (isSext32 (readGpr s rs) && isSext32 (readGpr s rt)) (subOverflow (low32 (readGpr s rs)) (low32 (readGpr s rt)))
    (low32 (readGpr s rs) - low32 (readGpr s rt)) rd s)

/-- SUBU (R328). -/
def execSubu (rd rs rt : BitVec 5) (s : State) : Result :=
  finish (alu32 (fun a b => a - b) rd (readGpr s rs) (readGpr s rt) s)

/-- AND (R329). -/
def execAnd (rd rs rt : BitVec 5) (s : State) : Result :=
  finish (alu64 rd ((readGpr s rs) &&& (readGpr s rt)) s)

/-- OR (R330). -/
def execOr (rd rs rt : BitVec 5) (s : State) : Result :=
  finish (alu64 rd ((readGpr s rs) ||| (readGpr s rt)) s)

/-- XOR (R331). -/
def execXor (rd rs rt : BitVec 5) (s : State) : Result :=
  finish (alu64 rd ((readGpr s rs) ^^^ (readGpr s rt)) s)

/-- NOR (R332). -/
def execNor (rd rs rt : BitVec 5) (s : State) : Result :=
  finish (alu64 rd (~~~((readGpr s rs) ||| (readGpr s rt))) s)

/-- SLT (R333). -/
def execSlt (rd rs rt : BitVec 5) (s : State) : Result :=
  finish (alu64 rd (truth ((readGpr s rs).slt (readGpr s rt))) s)

/-- SLTU (R334). -/
def execSltu (rd rs rt : BitVec 5) (s : State) : Result :=
  finish (alu64 rd (truth ((readGpr s rs).ult (readGpr s rt))) s)

/-- DADD (R335). -/
def execDadd (rd rs rt : BitVec 5) (s : State) : Result :=
  finish (need64 s (trapping64 (addOverflow (readGpr s rs) (readGpr s rt)) ((readGpr s rs) + (readGpr s rt)) rd s))

/-- DADDU (R336). -/
def execDaddu (rd rs rt : BitVec 5) (s : State) : Result :=
  finish (need64 s (alu64 rd ((readGpr s rs) + (readGpr s rt)) s))

/-- DSUB (R337). -/
def execDsub (rd rs rt : BitVec 5) (s : State) : Result :=
  finish (need64 s (trapping64 (subOverflow (readGpr s rs) (readGpr s rt)) ((readGpr s rs) - (readGpr s rt)) rd s))

/-- DSUBU (R338). -/
def execDsubu (rd rs rt : BitVec 5) (s : State) : Result :=
  finish (need64 s (alu64 rd ((readGpr s rs) - (readGpr s rt)) s))

/-! ## Shifts (Table 2.7) -/

/-- The count of a 32-bit variable shift: bits 4:0 of the register (R343). -/
def count5 (v : Dword) : Nat := (v.extractLsb' 0 5).toNat

/-- The count of a 64-bit variable shift: bits 5:0 of the register (R349). -/
def count6 (v : Dword) : Nat := (v.extractLsb' 0 6).toNat

/-- SLL (R340). -/
def execSll (rd rt sa : BitVec 5) (s : State) : Result :=
  finish (alu32One (fun a => a <<< sa.toNat) rd (readGpr s rt) s)

/-- SRL (R341). -/
def execSrl (rd rt sa : BitVec 5) (s : State) : Result :=
  finish (alu32One (fun a => a >>> sa.toNat) rd (readGpr s rt) s)

/-- SRA (R342). -/
def execSra (rd rt sa : BitVec 5) (s : State) : Result :=
  finish (alu32One (fun a => a.sshiftRight sa.toNat) rd (readGpr s rt) s)

/-- DSLL (R346). -/
def execDsll (rd rt sa : BitVec 5) (s : State) : Result :=
  finish (need64 s (alu64 rd ((readGpr s rt) <<< sa.toNat) s))

/-- DSRL (R347). -/
def execDsrl (rd rt sa : BitVec 5) (s : State) : Result :=
  finish (need64 s (alu64 rd ((readGpr s rt) >>> sa.toNat) s))

/-- DSRA (R348). -/
def execDsra (rd rt sa : BitVec 5) (s : State) : Result :=
  finish (need64 s (alu64 rd ((readGpr s rt).sshiftRight sa.toNat) s))

/-- DSLL32 (R352). -/
def execDsll32 (rd rt sa : BitVec 5) (s : State) : Result :=
  finish (need64 s (alu64 rd ((readGpr s rt) <<< (sa.toNat + 32)) s))

/-- DSRL32 (R353). -/
def execDsrl32 (rd rt sa : BitVec 5) (s : State) : Result :=
  finish (need64 s (alu64 rd ((readGpr s rt) >>> (sa.toNat + 32)) s))

/-- DSRA32 (R354). -/
def execDsra32 (rd rt sa : BitVec 5) (s : State) : Result :=
  finish (need64 s (alu64 rd ((readGpr s rt).sshiftRight (sa.toNat + 32)) s))

/-- SLLV (R343): bits 63:5 of rs are ignored, so that rt alone must be sign-extended (R311). -/
def execSllv (rd rt rs : BitVec 5) (s : State) : Result :=
  finish (write32 rd (isSext32 (readGpr s rt)) ((low32 (readGpr s rt)) <<< (count5 (readGpr s rs))) s)

/-- SRLV (R344): both operands must be sign-extended (R311). -/
def execSrlv (rd rt rs : BitVec 5) (s : State) : Result :=
  finish (alu32 (fun v n => v >>> (n.extractLsb' 0 5).toNat) rd (readGpr s rt) (readGpr s rs) s)

/-- SRAV (R345): both operands must be sign-extended (R311). -/
def execSrav (rd rt rs : BitVec 5) (s : State) : Result :=
  finish (alu32 (fun v n => v.sshiftRight (n.extractLsb' 0 5).toNat) rd (readGpr s rt) (readGpr s rs) s)

/-- DSLLV (R349). -/
def execDsllv (rd rt rs : BitVec 5) (s : State) : Result :=
  finish (need64 s (alu64 rd ((readGpr s rt) <<< (count6 (readGpr s rs))) s))

/-- DSRLV (R350). -/
def execDsrlv (rd rt rs : BitVec 5) (s : State) : Result :=
  finish (need64 s (alu64 rd ((readGpr s rt) >>> (count6 (readGpr s rs))) s))

/-- DSRAV (R351). -/
def execDsrav (rd rt rs : BitVec 5) (s : State) : Result :=
  finish (need64 s (alu64 rd ((readGpr s rt).sshiftRight (count6 (readGpr s rs))) s))

end Sys2Proof.Machine
end

