-- ==== Sys2Proof/Machine/Branch.lean ====
section
/-! DEFINITION. Sys2Proof/Machine/Branch.lean: jumps and branches of the integer unit (spec/43_jumps_branches.md R400 to R430). -/

namespace Sys2Proof.Machine

/-! ## Shared forms -/

/-- A branch: taken, or the delay slot executes and control goes on after it (R401). -/
def branch (c : Bool) (offset : BitVec 16) (s : State) : Res Flow :=
  notInSlot s (.ok (if c then .taken (branchTarget s offset) else .notTaken) s)

/-- A branch likely: taken, or the delay slot is nullified (R402). -/
def branchLikely (c : Bool) (offset : BitVec 16) (s : State) : Res Flow :=
  notInSlot s (.ok (if c then .taken (branchTarget s offset) else .nullify) s)

/-- Write r31 with the link value (R405). -/
def linked (s : State) : State := s.writeGpr 31 (linkValue s)

/-- A linking branch: r31 is written whether or not it is taken; testing r31 is refused (R405, R406). -/
def branchLink (c : Bool) (rs : RegNum) (offset : BitVec 16) (s : State) : Res Flow :=
  notInSlot s (if rs == 31 then .refuse .linkBranchOn31
    else .ok (if c then .taken (branchTarget s offset) else .notTaken) (linked s))

/-- A linking branch likely. -/
def branchLinkLikely (c : Bool) (rs : RegNum) (offset : BitVec 16) (s : State) : Res Flow :=
  notInSlot s (if rs == 31 then .refuse .linkBranchOn31
    else .ok (if c then .taken (branchTarget s offset) else .nullify) (linked s))

/-- A register is negative. -/
def negative (s : State) (rs : RegNum) : Bool := (readGpr s rs).msb

/-- A register is zero or negative. -/
def notPositive (s : State) (rs : RegNum) : Bool := negative s rs || readGpr s rs == 0

/-! ## Jumps -/

/-- J (R410). -/
def execJ (target : BitVec 26) (s : State) : Result := finish (notInSlot s (.ok (.taken (jumpTarget s target)) s))

/-- JAL (R411). -/
def execJal (target : BitVec 26) (s : State) : Result := finish (notInSlot s (.ok (.taken (jumpTarget s target)) (linked s)))

/-- JR (R412). -/
def execJr (rs : BitVec 5) (s : State) : Result := finish (notInSlot s (.ok (.taken (readGpr s rs)) s))

/-- JALR (R413); rd = rs is refused (R406). -/
def execJalr (rd rs : BitVec 5) (s : State) : Result :=
  finish (notInSlot s (if rd == rs then .refuse .jalrSameRegister
    else .ok (.taken (readGpr s rs)) (s.writeGpr rd (linkValue s))))

/-! ## Conditional branches -/

/-- BEQ (R415). -/
def execBeq (rs rt : BitVec 5) (offset : BitVec 16) (s : State) : Result :=
  finish (branch (readGpr s rs == readGpr s rt) offset s)

/-- BNE (R416). -/
def execBne (rs rt : BitVec 5) (offset : BitVec 16) (s : State) : Result :=
  finish (branch (readGpr s rs != readGpr s rt) offset s)

/-- BLEZ (R417). -/
def execBlez (rs : BitVec 5) (offset : BitVec 16) (s : State) : Result :=
  finish (branch (notPositive s rs) offset s)

/-- BGTZ (R418). -/
def execBgtz (rs : BitVec 5) (offset : BitVec 16) (s : State) : Result :=
  finish (branch (!notPositive s rs) offset s)

/-- BLTZ (R419). -/
def execBltz (rs : BitVec 5) (offset : BitVec 16) (s : State) : Result :=
  finish (branch (negative s rs) offset s)

/-- BGEZ (R420). -/
def execBgez (rs : BitVec 5) (offset : BitVec 16) (s : State) : Result :=
  finish (branch (!negative s rs) offset s)

/-- BLTZAL (R421). -/
def execBltzal (rs : BitVec 5) (offset : BitVec 16) (s : State) : Result :=
  finish (branchLink (negative s rs) rs offset s)

/-- BGEZAL (R422). -/
def execBgezal (rs : BitVec 5) (offset : BitVec 16) (s : State) : Result :=
  finish (branchLink (!negative s rs) rs offset s)

/-- BEQL (R423). -/
def execBeql (rs rt : BitVec 5) (offset : BitVec 16) (s : State) : Result :=
  finish (branchLikely (readGpr s rs == readGpr s rt) offset s)

/-- BNEL (R424). -/
def execBnel (rs rt : BitVec 5) (offset : BitVec 16) (s : State) : Result :=
  finish (branchLikely (readGpr s rs != readGpr s rt) offset s)

/-- BLEZL (R425). -/
def execBlezl (rs : BitVec 5) (offset : BitVec 16) (s : State) : Result :=
  finish (branchLikely (notPositive s rs) offset s)

/-- BGTZL (R426). -/
def execBgtzl (rs : BitVec 5) (offset : BitVec 16) (s : State) : Result :=
  finish (branchLikely (!notPositive s rs) offset s)

/-- BLTZL (R427). -/
def execBltzl (rs : BitVec 5) (offset : BitVec 16) (s : State) : Result :=
  finish (branchLikely (negative s rs) offset s)

/-- BGEZL (R428). -/
def execBgezl (rs : BitVec 5) (offset : BitVec 16) (s : State) : Result :=
  finish (branchLikely (!negative s rs) offset s)

/-- BLTZALL (R429). -/
def execBltzall (rs : BitVec 5) (offset : BitVec 16) (s : State) : Result :=
  finish (branchLinkLikely (negative s rs) rs offset s)

/-- BGEZALL (R430). -/
def execBgezall (rs : BitVec 5) (offset : BitVec 16) (s : State) : Result :=
  finish (branchLinkLikely (!negative s rs) rs offset s)

end Sys2Proof.Machine
end

