-- ==== Sys2Proof/Machine/CacheOps.lean ====
section
/-! DEFINITION. Sys2Proof/Machine/CacheOps.lean: the seventeen CACHE operations (spec/45_cp0_system.md R489 to R510). -/

namespace Sys2Proof.Machine

/-! ## Shared forms -/

/-- The address a CACHE operation acts on, checked and translated as for a load (R490). -/
def cacheAddress (va : Dword) (s : State) : Look (PAddr × BitVec 3) := translate (seen .data s) .load va

/-- Status.CH holds a free value after every CACHE instruction (R510, D27). -/
def freeCh (s : State) : State := (s.setStatus { s.cp0.status with ch := freeBitAt s 0 }).drawn 1

/-- A CACHE operation: CP0 usable, address translated, the operation, Status.CH. -/
def cacheOp (offset : BitVec 16) (base : RegNum) (s : State) (k : Dword → PAddr → BitVec 3 → Res Unit) : Res Flow :=
  let va := baseOffset s base offset
  needCp0 s ((cacheAddress va s).on s fun (pa, c) => Res.bind (k va pa c) fun _ t => goOn (freeCh t))

/-- An operation that is refused on an uncached address (R490). -/
def cachedOnly (c : BitVec 3) (k : Res Unit) : Res Unit := if c == 2 then .refuse .cacheOpUncached else k

/-- A secondary-cache operation is refused without a secondary cache (R505). -/
def needScache (s : State) (k : Res Unit) : Res Unit := if s.boot.scEnable then k else .refuse .noSecondaryCache

/-- The way an Index operation names (R489). -/
def indexWay (va : Dword) : Bool := va.getLsbD Config.indexWayBit

/-- TagLo as a CACHE operation reads it. -/
def tagLoSeen (s : State) : Word := (seen .cp0Read s).cp0.tagLo

/-- Write TagLo and clear TagHi, as Index Load Tag does (R493, R499). -/
def loadTagRegs (v : Word) (s : State) : State :=
  ((s.setCp0 { s.cp0 with tagLo := v, tagHi := 0 }).addHazard (.reg 28 s.cp0)).addHazard (.reg 29 s.cp0)

/-! ## The instruction cache -/

/-- Replace a line of the instruction cache; the instructions behind may still come from the old one
(spec/70_reset_and_hazards.md R874). -/
def putILine (i : Nat) (way : Bool) (l : ILine) (s : State) : State :=
  (s.putISet i (isetWay (isetAt s i) way l)).addHazard (.icache i (isetAt s i))

/-- A line of the instruction cache becomes Invalid. -/
def invalidateI (i : Nat) (way : Bool) (s : State) : State :=
  putILine i way (itagged { iwayOf (isetAt s i) way with valid := false }) s

/-- CACHE Index Invalidate (I) (R492). -/
def execCacheIIndexInvalidate (offset : BitVec 16) (base : BitVec 5) (s : State) : Result :=
  finish (cacheOp offset base s fun va _ _ => .ok () (invalidateI (setIndex va) (indexWay va) s))

/-- A nonzero two-bit code, free but for that. -/
def freeNonzero2 (s : State) (k : Nat) : BitVec 2 :=
  let v := (freeAt s k).extractLsb' 0 2
  if v == 0 then 1 else v

/-- CACHE Index Load Tag (I) (R493): the tag; the code of the valid state and the bits without a known place are free. -/
def execCacheIIndexLoadTag (offset : BitVec 16) (base : BitVec 5) (s : State) : Result :=
  finish (cacheOp offset base s fun va _ _ =>
    let l := iwayOf (isetAt s (setIndex va)) (indexWay va)
    let state := if l.valid then freeNonzero2 s 1 else 0
    .ok () ((loadTagRegs (l.tag ++ state ++ (freeAt s 2).extractLsb' 0 6) s).drawn 3))

/-- CACHE Index Store Tag (I) (R494): the line becomes Invalid with the tag of TagLo; writing a valid state is refused. The
instruction types and the FIFO bit, whose places in TagLo are not known, are free. -/
def execCacheIIndexStoreTag (offset : BitVec 16) (base : BitVec 5) (s : State) : Result :=
  finish (cacheOp offset base s fun va _ _ =>
    let t := tagLoSeen s
    if t.extractLsb' 6 2 != 0#2 then .refuse .cacheTagState
    else
      let i := setIndex va
      let d := isetAt s i
      let l := itagged
        { iwayOf d (indexWay va) with valid := false, tag := t.extractLsb' 8 24, itype := (freeAt s 1).extractLsb' 0 4 }
      .ok () (((s.putISet i { isetWay d (indexWay va) l with fifo := freeBitAt s 2 }).addHazard (.icache i d)).drawn 3))

/-- CACHE Hit Invalidate (I) (R495). -/
def execCacheIHitInvalidate (offset : BitVec 16) (base : BitVec 5) (s : State) : Result :=
  finish (cacheOp offset base s fun va pa c => cachedOnly c (
    match ihit (isetAt s (setIndex va)) (primaryTag pa) with
    | some way => .ok () (invalidateI (setIndex va) way s)
    | none => .ok () s))

/-- CACHE Fill (I) (R496): a block read into the instruction cache, its parity taken from ECC (R80). That bit k of ECC is the parity of
word k of the line in memory order is DESIGN CHOICE (log entry 52); that a read error is reported as that of a fetch is log entry 17. -/
def execCacheIFill (offset : BitVec 16) (base : BitVec 5) (s : State) : Result :=
  finish (cacheOp offset base s fun va pa c => cachedOnly c (
    let cp := (seen .data s).cp0
    Res.bind (refillI cp true s.inp.dataResponse va pa c (some cp.ecc) s) fun _ t =>
      .ok () (t.addHazard (.icache (setIndex va) (isetAt s (setIndex va))))))

/-- The words of a line, from word `k` down, whose stored parity is wrong: a bit at the first byte of each. -/
def badWordMarks (l : ILine) : Nat → BitVec 32
  | 0 => 0
  | k + 1 => badWordMarks l k ||| (if badWord l k then 1#32 <<< (4 * k) else 0)

/-- The check bits an instruction line goes out with: those of its bytes, wrong in the first byte of a word whose parity is wrong. DESIGN
CHOICE (log entry 53). -/
def wordChecks (l : ILine) : BitVec 32 := linePar l.data ^^^ badWordMarks l 8

/-- CACHE Hit Writeback (I) (R497): the line is written to memory and stays valid; wrong parity is a Cache Error besides, while
Status.DE = 0 (spec/49_system_interface.md R711, R721). That CacheErr.ER then says data, since no fetch found it, is DESIGN CHOICE (log
entry 15): spec/10_state.md R81 says only that ER is the type of reference. -/
def execCacheIHitWriteback (offset : BitVec 16) (base : BitVec 5) (s : State) : Result :=
  finish (cacheOp offset base s fun va pa c => cachedOnly c (
    match ihit (isetAt s (setIndex va)) (primaryTag pa) with
    | some way =>
      let l := iwayOf (isetAt s (setIndex va)) way
      let t := pushBlock (lineAddress l.tag (setIndex va)) (va.extractLsb' 12 2) true (c == 3) (lineBytes l.data 0 32) (wordChecks l) s
      if !(seen .data s).cp0.status.de && badWordMarks l 8 != 0 then .exc (.cacheError (cacheErrInfo true true false false)) t
      else .ok () t
    | none => .ok () s))

/-! ## The data cache -/

/-- Replace a line of the data cache. -/
def putDLine (i : Nat) (way : Bool) (l : DLine) (s : State) : State := s.putDSet i (dsetWay (dsetAt s i) way l)

/-- A line of the data cache becomes Invalid, and a link to it is broken (spec/20_memory.md R181). -/
def invalidateD (i : Nat) (way : Bool) (s : State) : State :=
  let l := dwayOf (dsetAt s i) way
  (putDLine i way (dtagged { l with state := 0 }) s).lineGone l i

/-- Write a modified line back; `k` goes on. With a parity error the line goes out all the same, with its check bits, and Cache Error is
raised in place of the rest while Status.DE = 0 (spec/49_system_interface.md R711, R721; log entry 13). -/
def writeBackIf (i : Nat) (way : Bool) (vi : BitVec 2) (retained : Bool) (s : State) (k : State → Res Unit) : Res Unit :=
  let l := dwayOf (dsetAt s i) way
  if dvalid l && l.w then
    match writebackError (seen .data s).cp0 l with
    | some e => .exc e (writeBack l i vi retained s)
    | none => k (writeBack l i vi retained s)
  else k s

/-- CACHE Index Writeback Invalidate (D) (R498). -/
def execCacheDIndexWritebackInvalidate (offset : BitVec 16) (base : BitVec 5) (s : State) : Result :=
  finish (cacheOp offset base s fun va _ _ =>
    writeBackIf (setIndex va) (indexWay va) (va.extractLsb' 12 2) false s fun t =>
      .ok () (invalidateD (setIndex va) (indexWay va) t))

/-- CACHE Index Load Tag (D) (R499): tag and state; the check bits of the doubleword at va[4:3] go to ECC. -/
def execCacheDIndexLoadTag (offset : BitVec 16) (base : BitVec 5) (s : State) : Result :=
  finish (cacheOp offset base s fun va _ _ =>
    let l := dwayOf (dsetAt s (setIndex va)) (indexWay va)
    let t := loadTagRegs (l.tag ++ l.state ++ (freeAt s 1).extractLsb' 0 6) s
    let p := laneOrder s.boot.bigEndianMem (l.par.extractLsb' (8 * (va.extractLsb' 3 2).toNat) 8)
    .ok () (((t.setCp0 { t.cp0 with ecc := p }).addHazard (.reg 26 s.cp0)).drawn 2))

/-- CACHE Index Store Tag (D) (R500): tag and state of TagLo, Invalid or Dirty Exclusive; the W and FIFO bits are free. -/
def execCacheDIndexStoreTag (offset : BitVec 16) (base : BitVec 5) (s : State) : Result :=
  finish (cacheOp offset base s fun va _ _ =>
    let t := tagLoSeen s
    let st := t.extractLsb' 6 2
    if st != 0#2 && st != 3#2 then .refuse .cacheTagState
    else
      let i := setIndex va
      let d := dsetAt s i
      let old := dwayOf d (indexWay va)
      let l := dtagged { old with state := st, tag := t.extractLsb' 8 24, w := freeBitAt s 1 }
      let u := s.putDSet i { dsetWay d (indexWay va) l with fifo := freeBitAt s 2 }
      .ok () ((u.lineGone old i).drawn 3))

/-- CACHE Create Dirty Exclusive (D) (R501): a held line is marked modified; else a line is made in the place a refill would
take, its bytes free. A held line of unspecified contents in state 1 or 2 gets its W bit set and keeps that state: DESIGN CHOICE (log entry
56). -/
def execCacheDCreateDirtyExclusive (offset : BitVec 16) (base : BitVec 5) (s : State) : Result :=
  finish (cacheOp offset base s fun va pa c => cachedOnly c (
    let i := setIndex va
    let d := dsetAt s i
    match dhit d (primaryTag pa) with
    | some way => .ok () (putDLine i way (dtagged { dwayOf d way with w := true, wbPage := c == 3 }) s)
    | none =>
      let dat := (Config.freeLine s.free 0).extractLsb' 0 256
      let l := dtagged
        { state := 3, tag := primaryTag pa, w := true, tagPar := false, wPar := false, data := dat, par := linePar dat, wbPage := c == 3 }
      Res.bind (replaceD (seen .data s).cp0 i (va.extractLsb' 12 2) l (s.drawn 1)) fun _ t => .ok () t))

/-- CACHE Hit Invalidate (D) (R502). -/
def execCacheDHitInvalidate (offset : BitVec 16) (base : BitVec 5) (s : State) : Result :=
  finish (cacheOp offset base s fun va pa c => cachedOnly c (
    match dhit (dsetAt s (setIndex va)) (primaryTag pa) with
    | some way => .ok () (invalidateD (setIndex va) way s)
    | none => .ok () s))

/-- CACHE Hit Writeback Invalidate (D) (R503). -/
def execCacheDHitWritebackInvalidate (offset : BitVec 16) (base : BitVec 5) (s : State) : Result :=
  finish (cacheOp offset base s fun va pa c => cachedOnly c (
    match dhit (dsetAt s (setIndex va)) (primaryTag pa) with
    | some way =>
      writeBackIf (setIndex va) way (va.extractLsb' 12 2) false s fun t => .ok () (invalidateD (setIndex va) way t)
    | none => .ok () s))

/-- CACHE Hit Writeback (D) (R504): a modified line is written to memory, its W bit cleared; it stays valid. Any other line is left alone,
wrong parity of its tag or W bit included. -/
def execCacheDHitWriteback (offset : BitVec 16) (base : BitVec 5) (s : State) : Result :=
  finish (cacheOp offset base s fun va pa c => cachedOnly c (
    match dhit (dsetAt s (setIndex va)) (primaryTag pa) with
    | some way =>
      if (dwayOf (dsetAt s (setIndex va)) way).w then
        writeBackIf (setIndex va) way (va.extractLsb' 12 2) true s fun t =>
          .ok () (putDLine (setIndex va) way (dtagged { dwayOf (dsetAt t (setIndex va)) way with w := false }) t)
      else .ok () s
    | none => .ok () s))

/-! ## The secondary cache -/

/-- The places the list does not name, with their valid bits cleared. -/
def clearedRest : Unlisted → Unlisted
  | .invalid => .invalid
  | .unspecified g => .cleared g
  | .cleared g => .cleared g

/-- CACHE secondary valid clear (R505), on a tag RAM with flash clear. Like the other three it acts at once, in front of a line that still
stands in the write buffer: DESIGN CHOICE (log entry 20). -/
def execCacheSValidClear (offset : BitVec 16) (base : BitVec 5) (s : State) : Result :=
  finish (cacheOp offset base s fun _ _ _ => needScache s (
    if !s.boot.scFlashClear then .refuse .noFlashClear
    else .ok () { s with
      scache := s.scache.map fun p => (p.1, { p.2 with valid := false })
      scacheRest := clearedRest s.scacheRest }))

/-- CACHE secondary Index Load Tag (R506): TagLo[31:15] the tag, TagLo[12] the valid bit, the rest free. What a
buffered line will write is not seen: DESIGN CHOICE (log entry 20). -/
def execCacheSIndexLoadTag (offset : BitVec 16) (base : BitVec 5) (s : State) : Result :=
  finish (cacheOp offset base s fun _ pa _ => needScache s (
    let l := slineAt s (scacheIndex s.boot pa)
    let f := freeAt s 1
    let v : Word := l.tag ++ f.extractLsb' 0 2 ++ bit l.valid ++ f.extractLsb' 2 12
    .ok () (((s.setCp0 { s.cp0 with tagLo := v }).addHazard (.reg 28 s.cp0)).drawn 2)))

/-- A line with the tag and the valid bit of TagLo (R507, R508). -/
def storeSTag (t : Word) (l : SLine) : SLine := { l with valid := t.getLsbD 12, tag := t.extractLsb' 15 17 }

/-- CACHE secondary Index Store Tag (R507); a line that still stands in the write buffer is written after it: DESIGN CHOICE (log entry 20). -/
def execCacheSIndexStoreTag (offset : BitVec 16) (base : BitVec 5) (s : State) : Result :=
  finish (cacheOp offset base s fun _ pa _ => needScache s (
    let i := scacheIndex s.boot pa
    .ok () (s.putSLine i (storeSTag (tagLoSeen s) (slineAt s i)))))

/-- Store the tag of TagLo in `n` lines from a place on. -/
def storeSTags (t : Word) (i : Nat) : Nat → State → State
  | 0, s => s
  | n + 1, s => storeSTags t (i + 1) n (s.putSLine i (storeSTag t (slineAt s i)))

/-- CACHE secondary Cache Page Invalidate (R508): the 128 lines of a page; another alignment is refused. It does not wait for
the write buffer, and a line of the page that stands there enters the cache, valid, when it is sent: DESIGN CHOICE (log entry 20). -/
def execCacheSCachePageInvalidate (offset : BitVec 16) (base : BitVec 5) (s : State) : Result :=
  finish (cacheOp offset base s fun _ pa _ => needScache s (
    if pa.extractLsb' 0 12 != 0#12 then .refuse .pageInvalidateAlignment
    else .ok () (storeSTags (tagLoSeen s) (scacheIndex s.boot pa) 128 s)))

end Sys2Proof.Machine
end

