-- ==== Sys2Proof/WellFormed.lean ====
section
/-! DEFINITION. Sys2Proof/WellFormed.lean: the instructions the spec gives a behaviour by their words alone. An ill-formed
one still decodes; its meaning refuses it by name (spec/92_eei_decisions.md D25, D26; spec/93_implementation_defined.md A1.1, A1.12, A4.3). -/

namespace Sys2Proof

/-- The CP0 register numbers that name a register (spec/10_state.md R40, R41). -/
def cp0Exists (rd : BitVec 5) : Bool :=
  !(rd == 7 || rd == 18 || rd == 19 || rd == 21 || rd == 22 || rd == 23 || rd == 24 || rd == 25 || rd == 31)

/-- The CP0 registers of 64 bits (spec/10_state.md R42): EntryLo0, EntryLo1, Context, BadVAddr, EntryHi, EPC, XContext, ErrorEPC. -/
def cp0Is64 (rd : BitVec 5) : Bool :=
  rd == 2 || rd == 3 || rd == 4 || rd == 8 || rd == 10 || rd == 14 || rd == 20 || rd == 30

/-- The floating-point control registers a move may name: FCR0 and FCR31 (spec/10_state.md R107). -/
def fcrExists (fs : BitVec 5) : Bool := fs == 0 || fs == 31

/-- A well-formed instruction: no link register that is also the source (R406), no reserved CP0 register, no doubleword
move of a 32-bit CP0 register (R473, R474), no reserved floating-point control register (R537, R538). -/
def Instr.wellFormed : Instr → Bool
  | .jalr rd rs => rd != rs
  | .bltzal rs _ | .bgezal rs _ | .bltzall rs _ | .bgezall rs _ => rs != 31
  | .mfc0 _ rd | .mtc0 _ rd => cp0Exists rd
  | .dmfc0 _ rd | .dmtc0 _ rd => cp0Exists rd && cp0Is64 rd
  | .cfc1 _ fs | .ctc1 _ fs => fcrExists fs
  | _ => true

/-- The same as a proposition. -/
abbrev WellFormed (i : Instr) : Prop := i.wellFormed = true

end Sys2Proof
end

