-- ==== Sys2Proof/Machine/Cp0.lean ====
section
/-! DEFINITION. Sys2Proof/Machine/Cp0.lean: the moves of CP0 registers, the TLB instructions, ERET and WAIT
(spec/45_cp0_system.md R470 to R486, R512). -/

namespace Sys2Proof.Machine

/-! ## Moves from CP0 (R471, R473) -/

/-- MFC0: the low 32 bits, sign-extended (R471); a reserved number is refused (R41). -/
def execMfc0 (rt rd : BitVec 5) (s : State) : Result :=
  finish (needCp0 s (
    if !cp0Exists rd then .refuse .reservedCp0Register
    else goOn (s.writeGpr rt (sext32 (low32 (cp0Value (seen .cp0Read s) rd))))))

/-- DMFC0: all 64 bits of a 64-bit register (R473). -/
def execDmfc0 (rt rd : BitVec 5) (s : State) : Result :=
  finish (needCp0 s (need64 s (
    if !cp0Exists rd then .refuse .reservedCp0Register
    else if !cp0Is64 rd then .refuse .doublewordMoveOf32
    else goOn (s.writeGpr rt (cp0Value (seen .cp0Read s) rd)))))

/-! ## Moves to CP0 (R472, R474, R475) -/

/-- Every floating-point general register holds a free value: the register file changed its shape
(spec/70_reset_and_hazards.md R877, D38). -/
def scrambleFgr (s : State) : State :=
  { s with fgr := Vector.ofFn fun i : Fin 32 => freeAt s i.val, free := s.free + 32 }

/-- The caches hold unspecified contents after a change of Config.K0 or Config.SE (R877); each gets a generation of its own. -/
def scrambleCaches (s : State) : State :=
  { s with
    icache := [], icacheRest := .unspecified s.free
    dcache := [], dcacheRest := .unspecified (s.free + 1)
    scache := [], scacheRest := .unspecified (s.free + 2)
    free := s.free + 3 }

/-- MTC0 to Status (R57): a mode that is none of the three is refused (R820); a change of FR scrambles the FPU registers. -/
def writeStatus (w : Word) (s : State) : Res Flow :=
  let t := unpackStatus w
  if t.ksu == 3 && !t.exl && !t.erl then .refuse .reservedMode
  else
    let u := s.writeCp0Reg 12 { s.cp0 with status := t }
    goOn (if t.fr != s.cp0.status.fr then scrambleFgr u else u)

/-- MTC0 to Config (R76): bits 12 and 2:0; a reserved K0 is refused (D39). -/
def writeConfig (w : Word) (s : State) : Res Flow :=
  let k0 := w.extractLsb' 0 3
  let se := w.getLsbD 12
  if reservedAttr k0 then .refuse .reservedAttribute
  else
    let u := s.writeCp0Reg 16 { s.cp0 with configSE := se, configK0 := k0 }
    goOn (if k0 != s.cp0.configK0 || se != s.cp0.configSE then scrambleCaches u else u)

/-- What a move to each CP0 register writes (the table of R475); the read-only registers ignore it (D3, D4). -/
def writeCp0 (n : BitVec 5) (v : Dword) (s : State) : Res Flow :=
  let c := s.cp0
  let w := low32 v
  if n = 0 then goOn (s.writeCp0Reg 0 { c with index := w.extractLsb' 0 6 })
  else if n = 2 then goOn (s.writeCp0Reg 2 { c with entryLo0 := unpackEntryLo v })
  else if n = 3 then goOn (s.writeCp0Reg 3 { c with entryLo1 := unpackEntryLo v })
  else if n = 4 then goOn (s.writeCp0Reg 4 { c with contextPTEBase := v.extractLsb' 23 41 })
  else if n = 5 then goOn (s.writeCp0Reg 5 { c with pageMask := w.extractLsb' 13 12 })
  else if n = 6 then
    if w.extractLsb' 0 6 > (47 : BitVec 6) then .refuse .wiredRange
    else goOn (s.writeCp0Reg 6 { c with wired := w.extractLsb' 0 6, random := 47 })
  else if n = 9 then goOn (s.writeCp0Reg 9 { c with count := w })
  else if n = 10 then goOn (s.writeCp0Reg 10 { c with entryHi := unpackEntryHi v })
  else if n = 11 then
    goOn ({ s.writeCp0Reg 11 { c with compare := w } with timerInt := false }.addHazard (.timer s.timerInt))
  else if n = 12 then writeStatus w s
  else if n = 13 then goOn (s.writeCp0Reg 13 { c with cause := { c.cause with ipSw := w.extractLsb' 8 2 } })
  else if n = 14 then goOn (s.writeCp0Reg 14 { c with epc := v })
  else if n = 16 then writeConfig w s
  else if n = 17 then goOn (s.writeCp0Reg 17 { c with llAddr := w })
  else if n = 20 then goOn (s.writeCp0Reg 20 { c with xcontextPTEBase := v.extractLsb' 33 31 })
  else if n = 26 then goOn (s.writeCp0Reg 26 { c with ecc := w.extractLsb' 0 8 })
  else if n = 28 then goOn (s.writeCp0Reg 28 { c with tagLo := w })
  else if n = 29 then goOn (s.writeCp0Reg 29 { c with tagHi := w })
  else if n = 30 then goOn (s.writeCp0Reg 30 { c with errorEpc := v })
  else goOn s

/-- MTC0: the whole register for a 64-bit CP0 register, its low word for a 32-bit one (R472, D26). -/
def execMtc0 (rt rd : BitVec 5) (s : State) : Result :=
  finish (needCp0 s (if !cp0Exists rd then .refuse .reservedCp0Register else writeCp0 rd (readGpr s rt) s))

/-- DMTC0 (R474). -/
def execDmtc0 (rt rd : BitVec 5) (s : State) : Result :=
  finish (needCp0 s (need64 s (
    if !cp0Exists rd then .refuse .reservedCp0Register
    else if !cp0Is64 rd then .refuse .doublewordMoveOf32
    else writeCp0 rd (readGpr s rt) s)))

/-! ## TLB instructions (R480 to R484) -/

/-- TLBP (R481): Index names the entry that EntryHi matches, or P is set and Index.Index is free. -/
def execTlbp (s : State) : Result :=
  finish (needCp0 s (
    let v := seen .cp0Read s
    match tlbHits v.tlb v.cp0.entryHi.r v.cp0.entryHi.vpn2 v.cp0.entryHi.asid with
    | [] => goOn ((s.writeCp0Reg 0 { s.cp0 with indexP := true, index := (freeAt s 0).extractLsb' 0 6 }).drawn 1)
    | [i] => goOn (s.writeCp0Reg 0 { s.cp0 with indexP := false, index := BitVec.ofNat 6 i.val })
    | _ => .refuse .tlbMultipleMatch))

/-- The CP0 registers TLBR loads from an entry (R482). -/
def entryRegs (e : TlbEntry) (c : Cp0) : Cp0 :=
  { c with
    pageMask := e.mask
    entryHi := { r := e.r, vpn2 := e.vpn2, asid := e.asid }
    entryLo0 := { pfn := e.pfn0, c := e.c0, d := e.d0, v := e.v0, g := e.g }
    entryLo1 := { pfn := e.pfn1, c := e.c1, d := e.d1, v := e.v1, g := e.g } }

/-- TLBR (R482). -/
def execTlbr (s : State) : Result :=
  finish (needCp0 s (
    let v := seen .cp0Read s
    let i := v.cp0.index.toNat
    if h : i < 48 then
      let u := s.setCp0 (entryRegs v.tlb[i] s.cp0)
      goOn ((((u.addHazard (.reg 5 s.cp0)).addHazard (.reg 10 s.cp0)).addHazard (.reg 2 s.cp0)).addHazard (.reg 3 s.cp0))
    else .refuse .tlbIndexRange))

/-- The entry a TLB write makes of the registers (R483). -/
def entryOf (c : Cp0) : TlbEntry :=
  { mask := c.pageMask, r := c.entryHi.r, vpn2 := c.entryHi.vpn2 &&& ~~~(mask27 c.pageMask), asid := c.entryHi.asid,
    g := c.entryLo0.g && c.entryLo1.g, pfn0 := c.entryLo0.pfn, c0 := c.entryLo0.c, d0 := c.entryLo0.d, v0 := c.entryLo0.v,
    pfn1 := c.entryLo1.pfn, c1 := c.entryLo1.c, d1 := c.entryLo1.d, v1 := c.entryLo1.v }

/-- The PFN has a bit below the page size (D41). -/
def pfnLow (w : Nat) (pfn : BitVec 24) : Bool := pfn.toNat % 2 ^ (w - 12) != 0

/-- What a TLB write refuses (R483): a mask outside Table 7.9, a reserved attribute, PFN bits below the page size. -/
def tlbWriteRefusal (e : TlbEntry) : Option Refusal :=
  match pageWidth e.mask with
  | none => some .pageMaskUndefined
  | some w =>
    if reservedAttr e.c0 || reservedAttr e.c1 then some .reservedAttribute
    else if pfnLow w e.pfn0 || pfnLow w e.pfn1 then some .pfnBelowPageSize
    else none

/-- Write the registers into a TLB entry (R483). -/
def tlbWrite (i : Nat) (s : State) : Res Flow :=
  let e := entryOf (seen .cp0Read s).cp0
  if h : i < 48 then
    match tlbWriteRefusal e with
    | some r => .refuse r
    | none => goOn ((s.setTlb ⟨i, h⟩ e).addHazard (.tlb ⟨i, h⟩ s.tlb[i]))
  else .refuse .tlbIndexRange

/-- TLBWI (R483): the entry Index names, wired or not. -/
def execTlbwi (s : State) : Result := finish (needCp0 s (tlbWrite (seen .cp0Read s).cp0.index.toNat s))

/-- TLBWR (R484): the entry Random names. -/
def execTlbwr (s : State) : Result := finish (needCp0 s (tlbWrite s.cp0.random.toNat s))

/-! ## ERET and WAIT -/

/-- ERET (R486); refused in a delay slot (R406). -/
def execEret (s : State) : Result :=
  finish (needCp0 s (notInSlot s (.ok (.direct (returnFromException s).1) (returnFromException s).2)))

/-- WAIT (R512): Standby if the bus is idle, which it is not while a write is buffered; else no effect. -/
def execWait (s : State) : Result :=
  finish (needCp0 s (goOn (if s.inp.sysADIdle && s.wb.isEmpty then s.setStandby true else s)))

end Sys2Proof.Machine
end

