-- ==== Sys2Proof/Machine/FpCore.lean ====
section
/-! DEFINITION. Sys2Proof/Machine/FpCore.lean: floating-point values, rounding, and the arithmetic every operation of
spec/47_fpu_arith.md computes. Operands are converted to exact numbers, combined, and rounded once (R575). -/

namespace Sys2Proof.Machine

/-! ## Formats and patterns (R571, R572); a single stands in the low half of a doubleword -/

/-- The width of the fraction field. -/
def Fmt.frac : Fmt → Nat
  | .S => 23
  | .D => 52
/-- The precision, hidden bit included. -/
def Fmt.prec (f : Fmt) : Nat := f.frac + 1
/-- The width of the exponent field. -/
def Fmt.expBits : Fmt → Nat
  | .S => 8
  | .D => 11
/-- The bias, which is also Emax. -/
def Fmt.bias (f : Fmt) : Nat := 2 ^ (f.expBits - 1) - 1
/-- The exponent field of infinities and NaNs. -/
def Fmt.expMax (f : Fmt) : Nat := 2 ^ f.expBits - 1
/-- The place of the sign bit. -/
def Fmt.signBit (f : Fmt) : Nat := f.frac + f.expBits

/-- The sign of a pattern. -/
def fpSign (f : Fmt) (v : Dword) : Bool := v.getLsbD f.signBit
/-- The biased exponent of a pattern. -/
def fpExp (f : Fmt) (v : Dword) : Nat := (v.toNat / 2 ^ f.frac) % 2 ^ f.expBits
/-- The fraction field of a pattern. -/
def fpFrac (f : Fmt) (v : Dword) : Nat := v.toNat % 2 ^ f.frac

/-- The pattern of a sign, a biased exponent and a fraction. -/
def fpPattern (f : Fmt) (neg : Bool) (e m : Nat) : Dword :=
  BitVec.ofNat 64 ((if neg then 2 ^ f.signBit else 0) + e * 2 ^ f.frac + m)

/-- What a pattern stands for (Table 3.5); a NaN is signaling when the top bit of its fraction is set (R572). -/
inductive FpKind where
  | zero
  | denormal
  | normal
  | infinity
  | quietNaN
  | signalingNaN
  deriving DecidableEq, Repr

/-- The kind of a pattern. -/
def fpKind (f : Fmt) (v : Dword) : FpKind :=
  if fpExp f v = f.expMax then
    (if fpFrac f v = 0 then .infinity else if v.getLsbD (f.frac - 1) then .signalingNaN else .quietNaN)
  else if fpExp f v = 0 then (if fpFrac f v = 0 then .zero else .denormal)
  else .normal

/-- A NaN of either sort. -/
def fpIsNaN (f : Fmt) (v : Dword) : Bool := fpKind f v == .quietNaN || fpKind f v == .signalingNaN

/-- The magnitude of a finite pattern: `m * 2 ^ e`. -/
def fpMagnitude (f : Fmt) (v : Dword) : Nat × Int :=
  if fpExp f v = 0 then (fpFrac f v, 1 - (f.bias : Int) - f.frac)
  else (2 ^ f.frac + fpFrac f v, (fpExp f v : Int) - f.bias - f.frac)

/-- A zero of a sign. -/
def fpZero (f : Fmt) (neg : Bool) : Dword := fpPattern f neg 0 0
/-- An infinity of a sign. -/
def fpInfinity (f : Fmt) (neg : Bool) : Dword := fpPattern f neg f.expMax 0
/-- `MaxFinite` with a sign. -/
def fpMaxFinite (f : Fmt) (neg : Bool) : Dword := fpPattern f neg (f.expMax - 1) (2 ^ f.frac - 1)
/-- `MinNorm` with a sign. -/
def fpMinNorm (f : Fmt) (neg : Bool) : Dword := fpPattern f neg 1 0
/-- `DefaultQNaN` (R572). -/
def fpDefaultNaN : Fmt → Dword
  | .S => zext32 Config.defaultQNaN32
  | .D => Config.defaultQNaN64
/-- A pattern with its sign complemented. -/
def fpNegate (f : Fmt) (v : Dword) : Dword := v ^^^ BitVec.ofNat 64 (2 ^ f.signBit)

/-! ## Results -/

/-- What an operation hands to the procedure of R651: the exceptions it signals and its default result. -/
structure FpOut where
  x : BitVec 6
  value : Dword
  deriving DecidableEq, Repr

/-- A result without an exception. -/
def fpExact (v : Dword) : FpOut := ⟨0, v⟩
/-- Unimplemented Operation: no result. -/
def fpUnimplemented : FpOut := ⟨xE, 0⟩
/-- Invalid Operation: the default quiet NaN. -/
def fpInvalid (f : Fmt) : FpOut := ⟨xV, fpDefaultNaN f⟩

/-- Operand screening (R575 (a), D29): a denormalized number or a quiet NaN among the operands is E, else a signaling NaN is V. -/
def fpScreen (f : Fmt) (ops : List Dword) (k : FpOut) : FpOut :=
  if ops.any (fun v => fpKind f v == .denormal || fpKind f v == .quietNaN) then fpUnimplemented
  else if ops.any (fun v => fpKind f v == .signalingNaN) then fpInvalid f
  else k

/-! ## Rounding (R575 (c) to (e), spec/48_fpu_exceptions.md R656, R657) -/

/-- Whether a discarded part `rem` of `full`, with more below it if `sticky`, rounds the magnitude up (spec/10_state.md R110). -/
def roundsUp (rm : BitVec 2) (neg odd : Bool) (rem full : Nat) (sticky : Bool) : Bool :=
  if rm = 0 then full < 2 * rem || (2 * rem == full && (sticky || odd))
  else if rm = 1 then false
  else if rm = 2 then !neg && (rem != 0 || sticky)
  else neg && (rem != 0 || sticky)

/-- The result of an overflow (Table 6.1). -/
def overflowValue (f : Fmt) (rm : BitVec 2) (neg : Bool) : Dword :=
  if rm = 0 then fpInfinity f neg
  else if rm = 1 then fpMaxFinite f neg
  else if rm = 2 then (if neg then fpMaxFinite f true else fpInfinity f false)
  else (if neg then fpInfinity f true else fpMaxFinite f false)

/-- The result of a flushed underflow (Table 6.1). -/
def flushValue (f : Fmt) (rm : BitVec 2) (neg : Bool) : Dword :=
  if rm = 2 then (if neg then fpZero f true else fpMinNorm f false)
  else if rm = 3 then (if neg then fpMinNorm f true else fpZero f false)
  else fpZero f neg

/-- A tiny result (R657): E, unless FS = 1 and neither Enable.U nor Enable.I is set. -/
def tinyOut (f : Fmt) (t : Fcr31) (neg : Bool) : FpOut :=
  if t.enables.getLsbD 1 || t.enables.getLsbD 0 || !t.fs then fpUnimplemented else ⟨xUI, flushValue f t.rm neg⟩

/-- A magnitude `m * 2 ^ e` that the precision holds, encoded, with the overflow and underflow rules. -/
def fpEncode (f : Fmt) (t : Fcr31) (neg : Bool) (m : Nat) (e : Int) (inexact : Bool) : FpOut :=
  if m = 0 then ⟨if inexact then xI else 0, fpZero f neg⟩
  else
    let sig := m * 2 ^ (f.frac - m.log2) / 2 ^ (m.log2 - f.frac)
    let exp := e + m.log2
    if (f.bias : Int) < exp then ⟨xOI, overflowValue f t.rm neg⟩
    else if exp < 1 - (f.bias : Int) then tinyOut f t neg
    else ⟨if inexact then xI else 0, fpPattern f neg (exp + f.bias).toNat (sig - 2 ^ f.frac)⟩

/-- Round the magnitude `m * 2 ^ e`, or one strictly between it and `(m + 1) * 2 ^ e` if `sticky`, to the precision of the
format with unbounded exponent, and encode it. A sticky `m` has more bits than the precision. -/
def fpRound (f : Fmt) (t : Fcr31) (neg : Bool) (m : Nat) (e : Int) (sticky : Bool) : FpOut :=
  let k := m.log2 + 1 - f.prec
  let q := m / 2 ^ k
  let rem := m % 2 ^ k
  let up := roundsUp t.rm neg (q % 2 == 1) rem (2 ^ k) sticky
  fpEncode f t neg (if up then q + 1 else q) (e + k) (rem != 0 || sticky)

/-! ## Addition and subtraction (R580, R581) -/

/-- A signed magnitude, scaled to the exponent `e`, as an integer. -/
def scaled (f : Fmt) (v : Dword) (e : Int) : Int :=
  let (m, x) := fpMagnitude f v
  let n : Int := m * 2 ^ (x - e).toNat
  if fpSign f v then -n else n

/-- The sum of two finite numbers. An exact zero is positive, but for two negative zeros, and for unlike signs in the mode RM. -/
def addFinite (f : Fmt) (t : Fcr31) (a b : Dword) : FpOut :=
  let e := min (fpMagnitude f a).2 (fpMagnitude f b).2
  let n := scaled f a e + scaled f b e
  if n = 0 then fpExact (fpZero f (if fpSign f a == fpSign f b then fpSign f a else t.rm == 3))
  else fpRound f t (n < 0) n.natAbs e false

/-- The sum of screened operands; infinities of unlike sign are invalid. -/
def addScreened (f : Fmt) (t : Fcr31) (a b : Dword) : FpOut :=
  if fpKind f a = .infinity then
    (if fpKind f b = .infinity && fpSign f a != fpSign f b then fpInvalid f else fpExact a)
  else if fpKind f b = .infinity then fpExact b
  else addFinite f t a b

/-- ADD (R580). -/
def fpAdd (f : Fmt) (t : Fcr31) (a b : Dword) : FpOut := fpScreen f [a, b] (addScreened f t a b)

/-- SUB (R581). -/
def fpSub (f : Fmt) (t : Fcr31) (a b : Dword) : FpOut := fpScreen f [a, b] (addScreened f t a (fpNegate f b))

/-! ## Multiplication and division (R582, R583) -/

/-- The product of screened operands. -/
def mulScreened (f : Fmt) (t : Fcr31) (a b : Dword) : FpOut :=
  let neg := fpSign f a != fpSign f b
  let ka := fpKind f a
  let kb := fpKind f b
  if (ka = .infinity && kb = .zero) || (ka = .zero && kb = .infinity) then fpInvalid f
  else if ka = .infinity || kb = .infinity then fpExact (fpInfinity f neg)
  else if ka = .zero || kb = .zero then fpExact (fpZero f neg)
  else
    let (m, e) := fpMagnitude f a
    let (n, d) := fpMagnitude f b
    fpRound f t neg (m * n) (e + d) false

/-- MUL (R582). -/
def fpMul (f : Fmt) (t : Fcr31) (a b : Dword) : FpOut := fpScreen f [a, b] (mulScreened f t a b)

/-- DIV (R583). -/
def fpDiv (f : Fmt) (t : Fcr31) (a b : Dword) : FpOut :=
  fpScreen f [a, b] (
    let neg := fpSign f a != fpSign f b
    let ka := fpKind f a
    let kb := fpKind f b
    if (ka = .zero && kb = .zero) || (ka = .infinity && kb = .infinity) then fpInvalid f
    else if ka = .infinity then fpExact (fpInfinity f neg)
    else if kb = .zero then ⟨xZ, fpInfinity f neg⟩
    else if ka = .zero || kb = .infinity then fpExact (fpZero f neg)
    else
      let (m, e) := fpMagnitude f a
      let (n, d) := fpMagnitude f b
      let s := f.prec + 2
      fpRound f t neg (m * 2 ^ s / n) (e - d - s) (m * 2 ^ s % n != 0))

/-! ## Square root, sign operations (R584 to R586) -/

/-- The integer square root, bit by bit: the largest `r` below `r + 2 ^ n` with `r * r ≤ m`. -/
def isqrt (m : Nat) : Nat → Nat → Nat
  | 0, r => r
  | n + 1, r => isqrt m n (if (r + 2 ^ n) * (r + 2 ^ n) ≤ m then r + 2 ^ n else r)

/-- A magnitude with an even exponent. -/
def evenExponent (p : Nat × Int) : Nat × Int := if p.2 % 2 = 0 then p else (2 * p.1, p.2 - 1)

/-- SQRT (R584). -/
def fpSqrt (f : Fmt) (t : Fcr31) (a : Dword) : FpOut :=
  fpScreen f [a] (
    if fpKind f a = .zero then fpExact a
    else if fpSign f a then fpInvalid f
    else if fpKind f a = .infinity then fpExact a
    else
      let (m, e) := evenExponent (fpMagnitude f a)
      let w := m * 2 ^ (2 * (f.prec + 2))
      let r := isqrt w (2 * f.prec + 3) 0
      fpRound f t false r (e / 2 - (f.prec + 2)) (r * r != w))

/-- ABS (R585). -/
def fpAbs (f : Fmt) (a : Dword) : FpOut := fpScreen f [a] (fpExact (if fpSign f a then fpNegate f a else a))

/-- NEG (R586). -/
def fpNeg (f : Fmt) (a : Dword) : FpOut := fpScreen f [a] (fpExact (fpNegate f a))

/-! ## Approximations (R587, R588) -/

/-- The inverse `n`-th root of `m * 2 ^ e` lies from `lo * 2 ^ g` to `hi * 2 ^ g`. -/
def inverseRootWithin (n m : Nat) (e : Int) (lo hi : Nat) (g : Int) : Bool :=
  let h := n * g + e
  let one := 2 ^ (-h).toNat
  lo ^ n * m * 2 ^ h.toNat ≤ one && one ≤ hi ^ n * m * 2 ^ h.toNat

/-- A result of which it is open whether Inexact is signaled: the free bit `i` says (spec/93_implementation_defined.md A4.7). -/
def freeInexact (o : FpOut) (i : Bool) : FpOut :=
  if o.x = 0 || o.x = xI then { o with x := if i then xI else 0 } else o

/-- An approximation of the inverse `n`-th root of `m * 2 ^ e`, whose unit in the last place is `2 ^ u`: the number that the free value `r`
names, if the root is within `ulp` units of it, else the rounded root `nearest`. So every number within the tolerance may result. -/
def fpApproximate (f : Fmt) (t : Fcr31) (neg : Bool) (n m : Nat) (e u : Int) (ulp r : Nat) (i : Bool) (nearest : FpOut) : FpOut :=
  let c := 2 ^ f.frac + r % 2 ^ f.frac
  let d := u + (r / 2 ^ f.frac % 4096 : Nat) - 2048
  let g := min d u
  let c' := c * 2 ^ (d - g).toNat
  let w := ulp * 2 ^ (u - g).toNat
  if inverseRootWithin n m e (c' - w) (c' + w) g then fpEncode f t neg c d i else freeInexact nearest i

/-- The exponent of the unit in the last place of a magnitude from `q * 2 ^ e` to `(q + 1) * 2 ^ e`, `q` of at least the precision. -/
def unitExponent (f : Fmt) (q : Nat) (e : Int) : Int := e + (q.log2 + 1 - f.prec : Nat)

/-- RECIP (R587): the exceptions of 1.0 divided by the operand, the quotient approximated; a quotient that is a number of the format is
delivered exactly. -/
def fpRecip (f : Fmt) (t : Fcr31) (a : Dword) (r : Nat) (i : Bool) : FpOut :=
  fpScreen f [a] (
    let neg := fpSign f a
    if fpKind f a = .zero then ⟨xZ, fpInfinity f neg⟩
    else if fpKind f a = .infinity then fpExact (fpZero f neg)
    else
      let (m, e) := fpMagnitude f a
      let s := 2 * f.prec + 1
      let q := 2 ^ s / m
      let exact := 2 ^ s % m == 0
      let nearest := fpRound f t neg q (-e - s) (!exact)
      if exact then freeInexact nearest i
      else fpApproximate f t neg 1 m e (unitExponent f q (-e - s)) Config.recipUlp r i nearest)

/-- RSQRT (R588). -/
def fpRsqrt (f : Fmt) (t : Fcr31) (a : Dword) (r : Nat) (i : Bool) : FpOut :=
  fpScreen f [a] (
    if fpKind f a = .zero then ⟨xZ, fpInfinity f (fpSign f a)⟩
    else if fpSign f a then fpInvalid f
    else if fpKind f a = .infinity then fpExact (fpZero f false)
    else
      let (m, e) := evenExponent (fpMagnitude f a)
      let q := isqrt (2 ^ (4 * f.prec) / m) (2 * f.prec) 0
      let x := -(e / 2) - 2 * f.prec
      let nearest := fpRound f t false q x (q * q * m != 2 ^ (4 * f.prec))
      fpApproximate f t false 2 m e (unitExponent f q x) Config.rsqrtUlp r i nearest)

/-! ## Multiply-add (R590 to R594) -/

/-- A product rounded, then a sum rounded; `sub` subtracts the addend, `neg` complements the sign of the result, but not of
the default NaN. A product that alone would trap ends the operation with its own exceptions; E stands alone
(spec/48_fpu_exceptions.md R661). -/
def fpMulAdd (f : Fmt) (t : Fcr31) (sub neg : Bool) (r a b : Dword) : FpOut :=
  fpScreen f [r, a, b] (
    let p := mulScreened f t a b
    if fpTraps { t with cause := p.x } || p.x.getLsbD 4 then p
    else
      let o := addScreened f t p.value (if sub then fpNegate f r else r)
      ⟨if o.x = xE then xE else p.x ||| o.x, if neg && !o.x.getLsbD 4 then fpNegate f o.value else o.value⟩)

/-! ## Conversions (R600 to R612) -/

/-- The directions of rounding to an integer: the mode of FCR31 or one of their own. -/
def roundInteger (rm : BitVec 2) (neg : Bool) (m : Nat) (e : Int) : Nat × Bool :=
  if 0 ≤ e then (m * 2 ^ e.toNat, false)
  else
    let k := (-e).toNat
    let q := m / 2 ^ k
    let rem := m % 2 ^ k
    (if roundsUp rm neg (q % 2 == 1) rem (2 ^ k) false then q + 1 else q, rem != 0)

/-- Floating to fixed point (R600): `bits` is 31 for W and 53 for L, the limits of their values. -/
def fpToFixed (f : Fmt) (rm : BitVec 2) (bits : Nat) (defaultValue : Dword) (a : Dword) : FpOut :=
  match fpKind f a with
  | .denormal | .quietNaN | .infinity => fpUnimplemented
  | .signalingNaN => ⟨xV, defaultValue⟩
  | _ =>
    let (m, e) := fpMagnitude f a
    let (n, inexact) := roundInteger rm (fpSign f a) m e
    let i : Int := if fpSign f a then -n else n
    if i < -(2 ^ bits) || 2 ^ bits - 1 < i then fpUnimplemented
    else ⟨if inexact then xI else 0, BitVec.ofInt 64 i⟩

/-- To a 32-bit fixed-point value. -/
def fpToW (f : Fmt) (rm : BitVec 2) (a : Dword) : FpOut := fpToFixed f rm 31 (zext32 Config.defaultFixed32) a
/-- To a 64-bit fixed-point value (D30). -/
def fpToL (f : Fmt) (rm : BitVec 2) (a : Dword) : FpOut := fpToFixed f rm 53 Config.defaultFixed64 a

/-- Fixed to floating point: an integer, rounded (R611, R612). -/
def fpFromInt (f : Fmt) (t : Fcr31) (n : Int) : FpOut :=
  if n = 0 then fpExact (fpZero f false) else fpRound f t (n < 0) n.natAbs 0 false

/-- From a 32-bit fixed-point value. -/
def fpFromW (f : Fmt) (t : Fcr31) (a : Dword) : FpOut := fpFromInt f t (low32 a).toInt
/-- From a 64-bit fixed-point value: one outside -2^52 to 2^52 - 1 is E (R611). -/
def fpFromL (f : Fmt) (t : Fcr31) (a : Dword) : FpOut :=
  if a.toInt < -(2 ^ 52) || 2 ^ 52 - 1 < a.toInt then fpUnimplemented else fpFromInt f t a.toInt

/-- Between the floating-point formats, from `g` to `f` (R611, R612). -/
def fpConvert (g f : Fmt) (t : Fcr31) (a : Dword) : FpOut :=
  match fpKind g a with
  | .denormal | .quietNaN => fpUnimplemented
  | .signalingNaN => fpInvalid f
  | .infinity => fpExact (fpInfinity f (fpSign g a))
  | .zero => fpExact (fpZero f (fpSign g a))
  | .normal =>
    let (m, e) := fpMagnitude g a
    fpRound f t (fpSign g a) m e false

/-! ## Compare (R620) -/

/-- The place of a pattern that is no NaN on the number line: its magnitude as an integer, signed; both zeros at 0. -/
def fpOrder (f : Fmt) (v : Dword) : Int :=
  let m : Int := v.toNat % 2 ^ f.signBit
  if fpSign f v then -m else m

/-- The relation of two patterns. -/
inductive FpRelation where
  | less
  | equal
  | greater
  | unordered
  deriving DecidableEq, Repr

/-- The relation of `a` to `b`: exactly one of the four. -/
def fpRelation (f : Fmt) (a b : Dword) : FpRelation :=
  if fpIsNaN f a || fpIsNaN f b then .unordered
  else if fpOrder f a < fpOrder f b then .less
  else if fpOrder f a = fpOrder f b then .equal
  else .greater

/-- The result of a condition: cond[2] and less, cond[1] and equal, cond[0] and unordered. -/
def fpCondition (cond : BitVec 4) (r : FpRelation) : Bool :=
  match r with
  | .less => cond.getLsbD 2
  | .equal => cond.getLsbD 1
  | .greater => false
  | .unordered => cond.getLsbD 0

/-- The exceptions of a compare: V for a signaling NaN, and for unordered operands when cond[3] is set. -/
def compareExceptions (f : Fmt) (cond : BitVec 4) (a b : Dword) : BitVec 6 :=
  if fpKind f a = .signalingNaN || fpKind f b = .signalingNaN || (cond.getLsbD 3 && fpRelation f a b = .unordered) then xV else 0

end Sys2Proof.Machine
end

