-- ==== Sys2Proof/Machine/FpArith.lean ====
section
/-! DEFINITION. Sys2Proof/Machine/FpArith.lean: floating-point arithmetic, conversions, compares and branches
(spec/47_fpu_arith.md R580 to R646). -/

namespace Sys2Proof.Machine

/-! ## Shared forms: the checks of R574, the operation, the procedure of R651 -/

/-- An operation with one operand. -/
def fpOne (g f : Fmt) (busy : Bool) (fd fs : RegNum) (op : Dword → FpOut) (s : State) : Res Flow :=
  evenFprs [fd, fs] s (fpComplete busy (op (readFpr g s fs)).x (writeFpr f fd (op (readFpr g s fs)).value) s)

/-- An operation with two operands. -/
def fpTwo (f : Fmt) (fd fs ft : RegNum) (op : Fcr31 → Dword → Dword → FpOut) (s : State) : Res Flow :=
  evenFprs [fd, fs, ft] s (
    let o := op s.fcr31 (readFpr f s fs) (readFpr f s ft)
    fpComplete true o.x (writeFpr f fd o.value) s)

/-- An approximation: two free values are drawn, the place of the result in its tolerance and Inexact. -/
def fpApprox (f : Fmt) (fd fs : RegNum) (op : Fcr31 → Dword → Nat → Bool → FpOut) (s : State) : Res Flow :=
  evenFprs [fd, fs] s (
    let o := op s.fcr31 (readFpr f s fs) (freeAt s 0).toNat (freeBitAt s 1)
    fpComplete true o.x (writeFpr f fd o.value) (s.drawn 2))

/-- A multiply-add (R590). -/
def fpThree (f : Fmt) (sub neg : Bool) (fd fr fs ft : RegNum) (s : State) : Res Flow :=
  evenFprs [fd, fr, fs, ft] s (
    let o := fpMulAdd f s.fcr31 sub neg (readFpr f s fr) (readFpr f s fs) (readFpr f s ft)
    fpComplete true o.x (writeFpr f fd o.value) s)

/-- The MIPS IV gate of a compare or branch that names another condition code than 0 (R574 (2)). -/
def needCc {α : Type} (cc : BitVec 3) (s : State) (k : Res α) : Res α := if cc = 0 then k else needMips4 s k

/-- A compare (R620): the condition bit is written, and just behind it the old bits may still be seen (R872). -/
def fpCompare (f : Fmt) (cond : BitVec 4) (cc : BitVec 3) (fs ft : RegNum) (s : State) : Res Flow :=
  needCp1 s (needCc cc s (evenFprs [fs, ft] s (
    let a := readFpr f s fs
    let b := readFpr f s ft
    fpComplete false (compareExceptions f cond a b)
      (fun u => (u.setFcr31 (setCondition u.fcr31 cc (fpCondition cond (fpRelation f a b)))).setFccOld (some (2, s.fcr31.fcc))) s)))

/-- A branch on a condition bit (R640): the old bit may be seen just behind a compare (R872). -/
def fpBranch (likely test : Bool) (cc : BitVec 3) (offset : BitVec 16) (s : State) : Res Flow :=
  needCp1 s (needCc cc s (notInSlot s (
    .ok (if conditionRead s cc == test then .taken (branchTarget s offset) else if likely then .nullify else .notTaken) s)))

/-! ## Computational instructions -/

/-- ADD.S (R580). -/
def execAddS (fd fs ft : BitVec 5) (s : State) : Result :=
  finish (needCp1 s (fpTwo .S fd fs ft (fpAdd .S) s))

/-- ADD.D (R580). -/
def execAddD (fd fs ft : BitVec 5) (s : State) : Result :=
  finish (needCp1 s (fpTwo .D fd fs ft (fpAdd .D) s))

/-- SUB.S (R581). -/
def execSubS (fd fs ft : BitVec 5) (s : State) : Result :=
  finish (needCp1 s (fpTwo .S fd fs ft (fpSub .S) s))

/-- SUB.D (R581). -/
def execSubD (fd fs ft : BitVec 5) (s : State) : Result :=
  finish (needCp1 s (fpTwo .D fd fs ft (fpSub .D) s))

/-- MUL.S (R582). -/
def execMulS (fd fs ft : BitVec 5) (s : State) : Result :=
  finish (needCp1 s (fpTwo .S fd fs ft (fpMul .S) s))

/-- MUL.D (R582). -/
def execMulD (fd fs ft : BitVec 5) (s : State) : Result :=
  finish (needCp1 s (fpTwo .D fd fs ft (fpMul .D) s))

/-- DIV.S (R583). -/
def execDivS (fd fs ft : BitVec 5) (s : State) : Result :=
  finish (needCp1 s (fpTwo .S fd fs ft (fpDiv .S) s))

/-- DIV.D (R583). -/
def execDivD (fd fs ft : BitVec 5) (s : State) : Result :=
  finish (needCp1 s (fpTwo .D fd fs ft (fpDiv .D) s))

/-- SQRT.S (R584). -/
def execSqrtS (fd fs : BitVec 5) (s : State) : Result :=
  finish (needCp1 s (fpOne .S .S true fd fs (fpSqrt .S s.fcr31) s))

/-- SQRT.D (R584). -/
def execSqrtD (fd fs : BitVec 5) (s : State) : Result :=
  finish (needCp1 s (fpOne .D .D true fd fs (fpSqrt .D s.fcr31) s))

/-- ABS.S (R585). -/
def execAbsS (fd fs : BitVec 5) (s : State) : Result :=
  finish (needCp1 s (fpOne .S .S false fd fs (fpAbs .S) s))

/-- ABS.D (R585). -/
def execAbsD (fd fs : BitVec 5) (s : State) : Result :=
  finish (needCp1 s (fpOne .D .D false fd fs (fpAbs .D) s))

/-- NEG.S (R586). -/
def execNegS (fd fs : BitVec 5) (s : State) : Result :=
  finish (needCp1 s (fpOne .S .S false fd fs (fpNeg .S) s))

/-- NEG.D (R586). -/
def execNegD (fd fs : BitVec 5) (s : State) : Result :=
  finish (needCp1 s (fpOne .D .D false fd fs (fpNeg .D) s))

/-- RECIP.S (R587). -/
def execRecipS (fd fs : BitVec 5) (s : State) : Result :=
  finish (needCp1 s (needMips4 s (fpApprox .S fd fs (fpRecip .S) s)))

/-- RECIP.D (R587). -/
def execRecipD (fd fs : BitVec 5) (s : State) : Result :=
  finish (needCp1 s (needMips4 s (fpApprox .D fd fs (fpRecip .D) s)))

/-- RSQRT.S (R588). -/
def execRsqrtS (fd fs : BitVec 5) (s : State) : Result :=
  finish (needCp1 s (needMips4 s (fpApprox .S fd fs (fpRsqrt .S) s)))

/-- RSQRT.D (R588). -/
def execRsqrtD (fd fs : BitVec 5) (s : State) : Result :=
  finish (needCp1 s (needMips4 s (fpApprox .D fd fs (fpRsqrt .D) s)))

/-! ## Multiply-add -/

/-- MADD.S (R591). -/
def execMaddS (fd fr fs ft : BitVec 5) (s : State) : Result :=
  finish (needCp1 s (needMips4 s (fpThree .S false false fd fr fs ft s)))

/-- MADD.D (R591). -/
def execMaddD (fd fr fs ft : BitVec 5) (s : State) : Result :=
  finish (needCp1 s (needMips4 s (fpThree .D false false fd fr fs ft s)))

/-- MSUB.S (R592). -/
def execMsubS (fd fr fs ft : BitVec 5) (s : State) : Result :=
  finish (needCp1 s (needMips4 s (fpThree .S true false fd fr fs ft s)))

/-- MSUB.D (R592). -/
def execMsubD (fd fr fs ft : BitVec 5) (s : State) : Result :=
  finish (needCp1 s (needMips4 s (fpThree .D true false fd fr fs ft s)))

/-- NMADD.S (R593). -/
def execNmaddS (fd fr fs ft : BitVec 5) (s : State) : Result :=
  finish (needCp1 s (needMips4 s (fpThree .S false true fd fr fs ft s)))

/-- NMADD.D (R593). -/
def execNmaddD (fd fr fs ft : BitVec 5) (s : State) : Result :=
  finish (needCp1 s (needMips4 s (fpThree .D false true fd fr fs ft s)))

/-- NMSUB.S (R594). -/
def execNmsubS (fd fr fs ft : BitVec 5) (s : State) : Result :=
  finish (needCp1 s (needMips4 s (fpThree .S true true fd fr fs ft s)))

/-- NMSUB.D (R594). -/
def execNmsubD (fd fr fs ft : BitVec 5) (s : State) : Result :=
  finish (needCp1 s (needMips4 s (fpThree .D true true fd fr fs ft s)))

/-! ## Conversions to fixed point: W is held as a single, L as a double -/

/-- ROUND.W.S (R601). -/
def execRoundWS (fd fs : BitVec 5) (s : State) : Result :=
  finish (needCp1 s (fpOne .S .S true fd fs (fpToW .S 0) s))

/-- ROUND.W.D (R601). -/
def execRoundWD (fd fs : BitVec 5) (s : State) : Result :=
  finish (needCp1 s (fpOne .D .S true fd fs (fpToW .D 0) s))

/-- TRUNC.W.S (R602). -/
def execTruncWS (fd fs : BitVec 5) (s : State) : Result :=
  finish (needCp1 s (fpOne .S .S true fd fs (fpToW .S 1) s))

/-- TRUNC.W.D (R602). -/
def execTruncWD (fd fs : BitVec 5) (s : State) : Result :=
  finish (needCp1 s (fpOne .D .S true fd fs (fpToW .D 1) s))

/-- CEIL.W.S (R603). -/
def execCeilWS (fd fs : BitVec 5) (s : State) : Result :=
  finish (needCp1 s (fpOne .S .S true fd fs (fpToW .S 2) s))

/-- CEIL.W.D (R603). -/
def execCeilWD (fd fs : BitVec 5) (s : State) : Result :=
  finish (needCp1 s (fpOne .D .S true fd fs (fpToW .D 2) s))

/-- FLOOR.W.S (R604). -/
def execFloorWS (fd fs : BitVec 5) (s : State) : Result :=
  finish (needCp1 s (fpOne .S .S true fd fs (fpToW .S 3) s))

/-- FLOOR.W.D (R604). -/
def execFloorWD (fd fs : BitVec 5) (s : State) : Result :=
  finish (needCp1 s (fpOne .D .S true fd fs (fpToW .D 3) s))

/-- CVT.W.S (R605). -/
def execCvtWS (fd fs : BitVec 5) (s : State) : Result :=
  finish (needCp1 s (fpOne .S .S true fd fs (fpToW .S s.fcr31.rm) s))

/-- CVT.W.D (R605). -/
def execCvtWD (fd fs : BitVec 5) (s : State) : Result :=
  finish (needCp1 s (fpOne .D .S true fd fs (fpToW .D s.fcr31.rm) s))

/-- ROUND.L.S (R606). -/
def execRoundLS (fd fs : BitVec 5) (s : State) : Result :=
  finish (needCp1 s (fpOne .S .D true fd fs (fpToL .S 0) s))

/-- ROUND.L.D (R606). -/
def execRoundLD (fd fs : BitVec 5) (s : State) : Result :=
  finish (needCp1 s (fpOne .D .D true fd fs (fpToL .D 0) s))

/-- TRUNC.L.S (R607). -/
def execTruncLS (fd fs : BitVec 5) (s : State) : Result :=
  finish (needCp1 s (fpOne .S .D true fd fs (fpToL .S 1) s))

/-- TRUNC.L.D (R607). -/
def execTruncLD (fd fs : BitVec 5) (s : State) : Result :=
  finish (needCp1 s (fpOne .D .D true fd fs (fpToL .D 1) s))

/-- CEIL.L.S (R608). -/
def execCeilLS (fd fs : BitVec 5) (s : State) : Result :=
  finish (needCp1 s (fpOne .S .D true fd fs (fpToL .S 2) s))

/-- CEIL.L.D (R608). -/
def execCeilLD (fd fs : BitVec 5) (s : State) : Result :=
  finish (needCp1 s (fpOne .D .D true fd fs (fpToL .D 2) s))

/-- FLOOR.L.S (R609). -/
def execFloorLS (fd fs : BitVec 5) (s : State) : Result :=
  finish (needCp1 s (fpOne .S .D true fd fs (fpToL .S 3) s))

/-- FLOOR.L.D (R609). -/
def execFloorLD (fd fs : BitVec 5) (s : State) : Result :=
  finish (needCp1 s (fpOne .D .D true fd fs (fpToL .D 3) s))

/-- CVT.L.S (R610). -/
def execCvtLS (fd fs : BitVec 5) (s : State) : Result :=
  finish (needCp1 s (fpOne .S .D true fd fs (fpToL .S s.fcr31.rm) s))

/-- CVT.L.D (R610). -/
def execCvtLD (fd fs : BitVec 5) (s : State) : Result :=
  finish (needCp1 s (fpOne .D .D true fd fs (fpToL .D s.fcr31.rm) s))

/-! ## Conversions to floating point -/

/-- CVT.S.D (R611). -/
def execCvtSD (fd fs : BitVec 5) (s : State) : Result :=
  finish (needCp1 s (fpOne .D .S true fd fs (fpConvert .D .S s.fcr31) s))

/-- CVT.S.W (R611). -/
def execCvtSW (fd fs : BitVec 5) (s : State) : Result :=
  finish (needCp1 s (fpOne .S .S true fd fs (fpFromW .S s.fcr31) s))

/-- CVT.S.L (R611). -/
def execCvtSL (fd fs : BitVec 5) (s : State) : Result :=
  finish (needCp1 s (fpOne .D .S true fd fs (fpFromL .S s.fcr31) s))

/-- CVT.D.S (R612). -/
def execCvtDS (fd fs : BitVec 5) (s : State) : Result :=
  finish (needCp1 s (fpOne .S .D true fd fs (fpConvert .S .D s.fcr31) s))

/-- CVT.D.W (R612). -/
def execCvtDW (fd fs : BitVec 5) (s : State) : Result :=
  finish (needCp1 s (fpOne .S .D true fd fs (fpFromW .D s.fcr31) s))

/-- CVT.D.L (R612). -/
def execCvtDL (fd fs : BitVec 5) (s : State) : Result :=
  finish (needCp1 s (fpOne .D .D true fd fs (fpFromL .D s.fcr31) s))

/-! ## Compares -/

/-- C.F.S (R622). -/
def execCFS (cc : BitVec 3) (fs ft : BitVec 5) (s : State) : Result :=
  finish (fpCompare .S 0 cc fs ft s)

/-- C.F.D (R622). -/
def execCFD (cc : BitVec 3) (fs ft : BitVec 5) (s : State) : Result :=
  finish (fpCompare .D 0 cc fs ft s)

/-- C.UN.S (R623). -/
def execCUnS (cc : BitVec 3) (fs ft : BitVec 5) (s : State) : Result :=
  finish (fpCompare .S 1 cc fs ft s)

/-- C.UN.D (R623). -/
def execCUnD (cc : BitVec 3) (fs ft : BitVec 5) (s : State) : Result :=
  finish (fpCompare .D 1 cc fs ft s)

/-- C.EQ.S (R624). -/
def execCEqS (cc : BitVec 3) (fs ft : BitVec 5) (s : State) : Result :=
  finish (fpCompare .S 2 cc fs ft s)

/-- C.EQ.D (R624). -/
def execCEqD (cc : BitVec 3) (fs ft : BitVec 5) (s : State) : Result :=
  finish (fpCompare .D 2 cc fs ft s)

/-- C.UEQ.S (R625). -/
def execCUeqS (cc : BitVec 3) (fs ft : BitVec 5) (s : State) : Result :=
  finish (fpCompare .S 3 cc fs ft s)

/-- C.UEQ.D (R625). -/
def execCUeqD (cc : BitVec 3) (fs ft : BitVec 5) (s : State) : Result :=
  finish (fpCompare .D 3 cc fs ft s)

/-- C.OLT.S (R626). -/
def execCOltS (cc : BitVec 3) (fs ft : BitVec 5) (s : State) : Result :=
  finish (fpCompare .S 4 cc fs ft s)

/-- C.OLT.D (R626). -/
def execCOltD (cc : BitVec 3) (fs ft : BitVec 5) (s : State) : Result :=
  finish (fpCompare .D 4 cc fs ft s)

/-- C.ULT.S (R627). -/
def execCUltS (cc : BitVec 3) (fs ft : BitVec 5) (s : State) : Result :=
  finish (fpCompare .S 5 cc fs ft s)

/-- C.ULT.D (R627). -/
def execCUltD (cc : BitVec 3) (fs ft : BitVec 5) (s : State) : Result :=
  finish (fpCompare .D 5 cc fs ft s)

/-- C.OLE.S (R628). -/
def execCOleS (cc : BitVec 3) (fs ft : BitVec 5) (s : State) : Result :=
  finish (fpCompare .S 6 cc fs ft s)

/-- C.OLE.D (R628). -/
def execCOleD (cc : BitVec 3) (fs ft : BitVec 5) (s : State) : Result :=
  finish (fpCompare .D 6 cc fs ft s)

/-- C.ULE.S (R629). -/
def execCUleS (cc : BitVec 3) (fs ft : BitVec 5) (s : State) : Result :=
  finish (fpCompare .S 7 cc fs ft s)

/-- C.ULE.D (R629). -/
def execCUleD (cc : BitVec 3) (fs ft : BitVec 5) (s : State) : Result :=
  finish (fpCompare .D 7 cc fs ft s)

/-- C.SF.S (R630). -/
def execCSfS (cc : BitVec 3) (fs ft : BitVec 5) (s : State) : Result :=
  finish (fpCompare .S 8 cc fs ft s)

/-- C.SF.D (R630). -/
def execCSfD (cc : BitVec 3) (fs ft : BitVec 5) (s : State) : Result :=
  finish (fpCompare .D 8 cc fs ft s)

/-- C.NGLE.S (R631). -/
def execCNgleS (cc : BitVec 3) (fs ft : BitVec 5) (s : State) : Result :=
  finish (fpCompare .S 9 cc fs ft s)

/-- C.NGLE.D (R631). -/
def execCNgleD (cc : BitVec 3) (fs ft : BitVec 5) (s : State) : Result :=
  finish (fpCompare .D 9 cc fs ft s)

/-- C.SEQ.S (R632). -/
def execCSeqS (cc : BitVec 3) (fs ft : BitVec 5) (s : State) : Result :=
  finish (fpCompare .S 10 cc fs ft s)

/-- C.SEQ.D (R632). -/
def execCSeqD (cc : BitVec 3) (fs ft : BitVec 5) (s : State) : Result :=
  finish (fpCompare .D 10 cc fs ft s)

/-- C.NGL.S (R633). -/
def execCNglS (cc : BitVec 3) (fs ft : BitVec 5) (s : State) : Result :=
  finish (fpCompare .S 11 cc fs ft s)

/-- C.NGL.D (R633). -/
def execCNglD (cc : BitVec 3) (fs ft : BitVec 5) (s : State) : Result :=
  finish (fpCompare .D 11 cc fs ft s)

/-- C.LT.S (R634). -/
def execCLtS (cc : BitVec 3) (fs ft : BitVec 5) (s : State) : Result :=
  finish (fpCompare .S 12 cc fs ft s)

/-- C.LT.D (R634). -/
def execCLtD (cc : BitVec 3) (fs ft : BitVec 5) (s : State) : Result :=
  finish (fpCompare .D 12 cc fs ft s)

/-- C.NGE.S (R635). -/
def execCNgeS (cc : BitVec 3) (fs ft : BitVec 5) (s : State) : Result :=
  finish (fpCompare .S 13 cc fs ft s)

/-- C.NGE.D (R635). -/
def execCNgeD (cc : BitVec 3) (fs ft : BitVec 5) (s : State) : Result :=
  finish (fpCompare .D 13 cc fs ft s)

/-- C.LE.S (R636). -/
def execCLeS (cc : BitVec 3) (fs ft : BitVec 5) (s : State) : Result :=
  finish (fpCompare .S 14 cc fs ft s)

/-- C.LE.D (R636). -/
def execCLeD (cc : BitVec 3) (fs ft : BitVec 5) (s : State) : Result :=
  finish (fpCompare .D 14 cc fs ft s)

/-- C.NGT.S (R637). -/
def execCNgtS (cc : BitVec 3) (fs ft : BitVec 5) (s : State) : Result :=
  finish (fpCompare .S 15 cc fs ft s)

/-- C.NGT.D (R637). -/
def execCNgtD (cc : BitVec 3) (fs ft : BitVec 5) (s : State) : Result :=
  finish (fpCompare .D 15 cc fs ft s)

/-! ## Branches on a condition bit -/

/-- BC1F (R641). -/
def execBc1f (cc : BitVec 3) (offset : BitVec 16) (s : State) : Result :=
  finish (fpBranch false false cc offset s)

/-- BC1T (R642). -/
def execBc1t (cc : BitVec 3) (offset : BitVec 16) (s : State) : Result :=
  finish (fpBranch false true cc offset s)

/-- BC1FL (R643). -/
def execBc1fl (cc : BitVec 3) (offset : BitVec 16) (s : State) : Result :=
  finish (fpBranch true false cc offset s)

/-- BC1TL (R644). -/
def execBc1tl (cc : BitVec 3) (offset : BitVec 16) (s : State) : Result :=
  finish (fpBranch true true cc offset s)

/-- A COP1 or COP1X word of an undefined format or function (R646): Unimplemented Operation, which cannot be disabled.
The MIPS IV gate is not asked, also of a function that is a MIPS IV instruction in another format: DESIGN CHOICE (log entry 57). -/
def undefinedFp (s : State) : Res Flow := needCp1 s (fpComplete false xE id s)

end Sys2Proof.Machine
end

