-- ==== Sys2Proof/Machine/FpMove.lean ====
section
/-! DEFINITION. Sys2Proof/Machine/FpMove.lean: loads, stores and moves of the floating-point registers, the moves of the control
registers, the conditional moves (spec/46_fpu_moves.md R520 to R549). -/

namespace Sys2Proof.Machine

/-! ## Loads and stores with base and offset -/

/-- LWC1 (R526): any register, whatever Status.FR. -/
def execLwc1 (ft : BitVec 5) (offset : BitVec 16) (base : BitVec 5) (s : State) : Result :=
  finish (needCp1 s (loadFpr .S ft (baseOffset s base offset) s))

/-- LDC1 (R527). -/
def execLdc1 (ft : BitVec 5) (offset : BitVec 16) (base : BitVec 5) (s : State) : Result :=
  finish (needCp1 s (loadFpr .D ft (baseOffset s base offset) s))

/-- SWC1 (R528). -/
def execSwc1 (ft : BitVec 5) (offset : BitVec 16) (base : BitVec 5) (s : State) : Result :=
  finish (needCp1 s (storeFpr .S ft (baseOffset s base offset) s))

/-- SDC1 (R529). -/
def execSdc1 (ft : BitVec 5) (offset : BitVec 16) (base : BitVec 5) (s : State) : Result :=
  finish (needCp1 s (storeFpr .D ft (baseOffset s base offset) s))

/-! ## Indexed loads and stores (MIPS IV) -/

/-- An indexed access: CU1, the MIPS IV gate, the address and its region (R520, R524). -/
def indexed (store : Bool) (base index : RegNum) (s : State) (k : Dword → Res Flow) : Res Flow :=
  needCp1 s (needMips4 s (needRegion store base (baseIndex s base index) s (k (baseIndex s base index))))

/-- LWXC1 (R530). -/
def execLwxc1 (fd index base : BitVec 5) (s : State) : Result :=
  finish (indexed false base index s fun va => loadFpr .S fd va s)

/-- LDXC1 (R531). -/
def execLdxc1 (fd index base : BitVec 5) (s : State) : Result :=
  finish (indexed false base index s fun va => loadFpr .D fd va s)

/-- SWXC1 (R532). -/
def execSwxc1 (fs index base : BitVec 5) (s : State) : Result :=
  finish (indexed true base index s fun va => storeFpr .S fs va s)

/-- SDXC1 (R533). -/
def execSdxc1 (fs index base : BitVec 5) (s : State) : Result :=
  finish (indexed true base index s fun va => storeFpr .D fs va s)

/-- PREFX (R534): no effect in this processor, behind CU1 and the MIPS IV gate. -/
def execPrefx (s : State) : Result := finish (needCp1 s (needMips4 s (goOn s)))

/-! ## Moves between general and floating-point registers -/

/-- MFC1 (R546). -/
def execMfc1 (rt fs : BitVec 5) (s : State) : Result :=
  finish (needCp1 s (goOn (s.writeGpr rt (sext32 (readFgrS s fs)))))

/-- MTC1 (R547). -/
def execMtc1 (rt fs : BitVec 5) (s : State) : Result :=
  finish (needCp1 s (goOn (writeFgrS fs (low32 (readGpr s rt)) s)))

/-- DMFC1 (R548): a 64-bit operation. -/
def execDmfc1 (rt fs : BitVec 5) (s : State) : Result :=
  finish (needCp1 s (need64 s (evenFprs [fs] s (goOn (s.writeGpr rt (readFgrD s fs))))))

/-- DMTC1 (R549): a 64-bit operation. -/
def execDmtc1 (rt fs : BitVec 5) (s : State) : Result :=
  finish (needCp1 s (need64 s (evenFprs [fs] s (goOn (writeFgrD fs (readGpr s rt) s)))))

/-! ## The control registers -/

/-- FCR0 (spec/10_state.md R112). -/
def fcr0 : Word := 0#16 ++ 0x23#8 ++ Config.fcr0Rev

/-- CFC1 (R537): FCR0 or FCR31, sign-extended; reading FCR31 empties the floating-point pipeline. -/
def execCfc1 (rt fs : BitVec 5) (s : State) : Result :=
  finish (needCp1 s (
    if fs = 0 then goOn (s.writeGpr rt (sext32 fcr0))
    else if fs = 31 then goOn ((s.writeGpr rt (sext32 (packFcr31 s.fcr31))).setFpBusy false)
    else .refuse .reservedFcr))

/-- The value CTC1 leaves in FCR31: the one given, or a free value while an operation may be in flight
(spec/70_reset_and_hazards.md R871): only CFC1 of FCR31 and an exception entry empty the pipeline, CTC1 itself does not. -/
def ctc1Value (s : State) (w : Word) : Fcr31 :=
  unpackFcr31 (if s.fpBusy then (freeAt s 0).extractLsb' 0 32 else w)

/-- CTC1 (R538): FCR31 is written, then its Cause and Enables may raise the exception (spec/48_fpu_exceptions.md R652); FCR0
ignores the write (D4). -/
def execCtc1 (rt fs : BitVec 5) (s : State) : Result :=
  finish (needCp1 s (
    if fs = 31 then
      let t := ctc1Value s (low32 (readGpr s rt))
      let u := ((s.setFcr31 t).setFccOld (some (2, s.fcr31.fcc))).drawn (if s.fpBusy then 1 else 0)
      if fpTraps t then .exc .floatingPoint u else goOn u
    else if fs = 0 then goOn s
    else .refuse .reservedFcr))

/-! ## MOV.fmt and the conditional moves -/

/-- Copy a register in a format, or leave the destination alone (R540, R541). -/
def moveFpr (f : Fmt) (c : Bool) (fd fs : RegNum) (s : State) : Res Flow :=
  evenFprs [fd, fs] s (goOn (if c then writeFpr f fd (readFpr f s fs) s else s))

/-- MOV.S (R540). -/
def execMovS (fd fs : BitVec 5) (s : State) : Result := finish (needCp1 s (moveFpr .S true fd fs s))

/-- MOVF.S (R542). -/
def execMovfS (fd fs : BitVec 5) (cc : BitVec 3) (s : State) : Result :=
  finish (needCp1 s (needMips4 s (moveFpr .S (!conditionBit s.fcr31 cc) fd fs s)))

/-- MOVT.S (R543). -/
def execMovtS (fd fs : BitVec 5) (cc : BitVec 3) (s : State) : Result :=
  finish (needCp1 s (needMips4 s (moveFpr .S (conditionBit s.fcr31 cc) fd fs s)))

/-- MOVZ.S (R544). -/
def execMovzS (fd fs rt : BitVec 5) (s : State) : Result :=
  finish (needCp1 s (needMips4 s (moveFpr .S (readGpr s rt == 0) fd fs s)))

/-- MOVN.S (R545). -/
def execMovnS (fd fs rt : BitVec 5) (s : State) : Result :=
  finish (needCp1 s (needMips4 s (moveFpr .S (readGpr s rt != 0) fd fs s)))

/-- MOV.D (R540). -/
def execMovD (fd fs : BitVec 5) (s : State) : Result := finish (needCp1 s (moveFpr .D true fd fs s))

/-- MOVF.D (R542). -/
def execMovfD (fd fs : BitVec 5) (cc : BitVec 3) (s : State) : Result :=
  finish (needCp1 s (needMips4 s (moveFpr .D (!conditionBit s.fcr31 cc) fd fs s)))

/-- MOVT.D (R543). -/
def execMovtD (fd fs : BitVec 5) (cc : BitVec 3) (s : State) : Result :=
  finish (needCp1 s (needMips4 s (moveFpr .D (conditionBit s.fcr31 cc) fd fs s)))

/-- MOVZ.D (R544). -/
def execMovzD (fd fs rt : BitVec 5) (s : State) : Result :=
  finish (needCp1 s (needMips4 s (moveFpr .D (readGpr s rt == 0) fd fs s)))

/-- MOVN.D (R545). -/
def execMovnD (fd fs rt : BitVec 5) (s : State) : Result :=
  finish (needCp1 s (needMips4 s (moveFpr .D (readGpr s rt != 0) fd fs s)))

end Sys2Proof.Machine
end

