-- ==== Sys2Proof/Machine/LoadStore.lean ====
section
/-! DEFINITION. Sys2Proof/Machine/LoadStore.lean: the loads and stores of the general registers, the linked pair and PREF
(spec/40_loads_stores.md R265 to R290). -/

namespace Sys2Proof.Machine

/-- LB (R265). -/
def execLb (rt : BitVec 5) (offset : BitVec 16) (base : BitVec 5) (s : State) : Result :=
  finish (loadGpr 1 (signExtendBytes 1) rt (baseOffset s base offset) s)

/-- LBU (R266). -/
def execLbu (rt : BitVec 5) (offset : BitVec 16) (base : BitVec 5) (s : State) : Result :=
  finish (loadGpr 1 id rt (baseOffset s base offset) s)

/-- LH (R267). -/
def execLh (rt : BitVec 5) (offset : BitVec 16) (base : BitVec 5) (s : State) : Result :=
  finish (loadGpr 2 (signExtendBytes 2) rt (baseOffset s base offset) s)

/-- LHU (R268). -/
def execLhu (rt : BitVec 5) (offset : BitVec 16) (base : BitVec 5) (s : State) : Result :=
  finish (loadGpr 2 id rt (baseOffset s base offset) s)

/-- LW (R269). -/
def execLw (rt : BitVec 5) (offset : BitVec 16) (base : BitVec 5) (s : State) : Result :=
  finish (loadGpr 4 (signExtendBytes 4) rt (baseOffset s base offset) s)

/-- LWU (R270): a 64-bit operation. -/
def execLwu (rt : BitVec 5) (offset : BitVec 16) (base : BitVec 5) (s : State) : Result :=
  finish (need64 s (loadGpr 4 id rt (baseOffset s base offset) s))

/-- LD (R271): a 64-bit operation. -/
def execLd (rt : BitVec 5) (offset : BitVec 16) (base : BitVec 5) (s : State) : Result :=
  finish (need64 s (loadGpr 8 id rt (baseOffset s base offset) s))

/-- SB (R272). -/
def execSb (rt : BitVec 5) (offset : BitVec 16) (base : BitVec 5) (s : State) : Result :=
  finish (storeBytes 1 (readGpr s rt) (baseOffset s base offset) s)

/-- SH (R273). -/
def execSh (rt : BitVec 5) (offset : BitVec 16) (base : BitVec 5) (s : State) : Result :=
  finish (storeBytes 2 (readGpr s rt) (baseOffset s base offset) s)

/-- SW (R274). -/
def execSw (rt : BitVec 5) (offset : BitVec 16) (base : BitVec 5) (s : State) : Result :=
  finish (storeBytes 4 (readGpr s rt) (baseOffset s base offset) s)

/-- SD (R275): a 64-bit operation. -/
def execSd (rt : BitVec 5) (offset : BitVec 16) (base : BitVec 5) (s : State) : Result :=
  finish (need64 s (storeBytes 8 (readGpr s rt) (baseOffset s base offset) s))

/-- LWL (R277). -/
def execLwl (rt : BitVec 5) (offset : BitVec 16) (base : BitVec 5) (s : State) : Result :=
  finish (loadPart true 4 (signExtendBytes 4) rt (baseOffset s base offset) s)

/-- LWR (R278, D21). -/
def execLwr (rt : BitVec 5) (offset : BitVec 16) (base : BitVec 5) (s : State) : Result :=
  finish (loadPart false 4 (signExtendBytes 4) rt (baseOffset s base offset) s)

/-- LDL (R279): a 64-bit operation. -/
def execLdl (rt : BitVec 5) (offset : BitVec 16) (base : BitVec 5) (s : State) : Result :=
  finish (need64 s (loadPart true 8 id rt (baseOffset s base offset) s))

/-- LDR (R280): a 64-bit operation. -/
def execLdr (rt : BitVec 5) (offset : BitVec 16) (base : BitVec 5) (s : State) : Result :=
  finish (need64 s (loadPart false 8 id rt (baseOffset s base offset) s))

/-- SWL (R281): the most significant bytes of the low word. -/
def execSwl (rt : BitVec 5) (offset : BitVec 16) (base : BitVec 5) (s : State) : Result :=
  finish (storePart true 4 rt (baseOffset s base offset) s)

/-- SWR (R282). -/
def execSwr (rt : BitVec 5) (offset : BitVec 16) (base : BitVec 5) (s : State) : Result :=
  finish (storePart false 4 rt (baseOffset s base offset) s)

/-- SDL (R283): a 64-bit operation. -/
def execSdl (rt : BitVec 5) (offset : BitVec 16) (base : BitVec 5) (s : State) : Result :=
  finish (need64 s (storePart true 8 rt (baseOffset s base offset) s))

/-- SDR (R284): a 64-bit operation. -/
def execSdr (rt : BitVec 5) (offset : BitVec 16) (base : BitVec 5) (s : State) : Result :=
  finish (need64 s (storePart false 8 rt (baseOffset s base offset) s))

/-- LL and LLD: a load that sets the link, and LLAddr to bits 35:4 of its address (R285, R286); refused on an uncached address
(spec/20_memory.md R182). The link address is the one translation gives, in reverse-endian mode too, where the bytes lie at another. -/
def loadLinked (n : Nat) (ext : Dword → Dword) (rt : RegNum) (va : Dword) (s : State) : Res Flow :=
  needAligned n false va s <|
    (translate (seen .data s) .load va).on s fun (pa, c) =>
      if c == 2 then .refuse .llUncached
      else Res.bind (loadPhys va n (placeOf s n pa) c s) fun bs t =>
        let u := (t.writeGpr rt (ext (valueOfBytes s.boot.bigEndianMem bs))).setLink pa
        goOn (u.setCp0 { u.cp0 with llAddr := pa.extractLsb' 4 32 })

/-- LL (R285). -/
def execLl (rt : BitVec 5) (offset : BitVec 16) (base : BitVec 5) (s : State) : Result :=
  finish (loadLinked 4 (signExtendBytes 4) rt (baseOffset s base offset) s)

/-- LLD (R286): a 64-bit operation. -/
def execLld (rt : BitVec 5) (offset : BitVec 16) (base : BitVec 5) (s : State) : Result :=
  finish (need64 s (loadLinked 8 id rt (baseOffset s base offset) s))

/-- SC and SCD: the address is checked and translated as for a store whether or not the link holds (R287); with the link, the
store is made and rt becomes 1, without it rt becomes 0. Another address than that of the LL, where the LL is known, or an uncached one
is refused, with or without the link (spec/20_memory.md R182); which LL an SC goes with is log entry 54. Where the unspecified LLbit of a cold
reset is 1 and no LL has run, the SC is held to the unspecified link address, and refused at any other: DESIGN CHOICE (log entry 54). -/
def storeConditional (n : Nat) (rt : RegNum) (va : Dword) (s : State) : Res Flow :=
  needAligned n true va s <|
    (translate (seen .data s) .store va).on s fun (pa, c) =>
      if c == 2 then .refuse .scUncached
      else if (s.llBit || s.linkKnown) && pa != s.linkAddr then .refuse .scOtherAddress
      else if !s.llBit then goOn (s.writeGpr rt 0)
      else
        Res.bind (storePhys va (placeOf s n pa) c (bytesOfValue s.boot.bigEndianMem n (readGpr s rt)) s) fun _ t =>
          goOn (t.writeGpr rt 1)

/-- SC (R287). -/
def execSc (rt : BitVec 5) (offset : BitVec 16) (base : BitVec 5) (s : State) : Result :=
  finish (storeConditional 4 rt (baseOffset s base offset) s)

/-- SCD (R288): a 64-bit operation. -/
def execScd (rt : BitVec 5) (offset : BitVec 16) (base : BitVec 5) (s : State) : Result :=
  finish (need64 s (storeConditional 8 rt (baseOffset s base offset) s))

/-- PREF (R290): no effect in this processor, behind the MIPS IV gate. -/
def execPref (_hint : BitVec 5) (_offset : BitVec 16) (_base : BitVec 5) (s : State) : Result :=
  finish (needMips4 s (goOn s))

end Sys2Proof.Machine
end

