-- ==== Sys2Proof/Machine/MulDiv.lean ====
section
/-! DEFINITION. Sys2Proof/Machine/MulDiv.lean: multiply, divide, the moves of HI and LO, the integer conditional moves
(spec/42_muldiv_moves.md R370 to R394). -/

namespace Sys2Proof.Machine

/-- Write both halves of a product or a division. -/
def writeHiLo (hi lo : Dword) (s : State) : Res Flow := goOn ((s.setHi hi).setLo lo)

/-- HI and LO each hold a free value: improper 32-bit operands (R370, D22), a divisor of zero (R373, D24). -/
def freeHiLo (s : State) : Res Flow := goOn (((s.setHi (freeAt s 0)).setLo (freeAt s 1)).drawn 2)

/-- A 32-bit multiply or divide: each half sign-extended (R370). -/
def hiLo32 (hi lo : Word) (s : State) : Res Flow := writeHiLo (sext32 hi) (sext32 lo) s

/-- Both operands are sign-extended words. -/
def properPair (s : State) (rs rt : RegNum) : Bool := isSext32 (readGpr s rs) && isSext32 (readGpr s rt)

/-! ## Multiply -/

/-- MULT (R375). -/
def execMult (rs rt : BitVec 5) (s : State) : Result :=
  finish (
    let p := (low32 (readGpr s rs)).signExtend 64 * (low32 (readGpr s rt)).signExtend 64
    if properPair s rs rt then hiLo32 (p.extractLsb' 32 32) (p.extractLsb' 0 32) s else freeHiLo s)

/-- MULTU (R376). -/
def execMultu (rs rt : BitVec 5) (s : State) : Result :=
  finish (
    let p := (low32 (readGpr s rs)).setWidth 64 * (low32 (readGpr s rt)).setWidth 64
    if properPair s rs rt then hiLo32 (p.extractLsb' 32 32) (p.extractLsb' 0 32) s else freeHiLo s)

/-- DMULT (R377). -/
def execDmult (rs rt : BitVec 5) (s : State) : Result :=
  finish (need64 s (
    let p := (readGpr s rs).signExtend 128 * (readGpr s rt).signExtend 128
    writeHiLo (p.extractLsb' 64 64) (p.extractLsb' 0 64) s))

/-- DMULTU (R378). -/
def execDmultu (rs rt : BitVec 5) (s : State) : Result :=
  finish (need64 s (
    let p := (readGpr s rs).setWidth 128 * (readGpr s rt).setWidth 128
    writeHiLo (p.extractLsb' 64 64) (p.extractLsb' 0 64) s))

/-! ## Divide -/

/-- DIV (R380, R373): quotient toward zero in LO, remainder in HI. -/
def execDiv (rs rt : BitVec 5) (s : State) : Result :=
  finish (
    let n := low32 (readGpr s rs)
    let d := low32 (readGpr s rt)
    if properPair s rs rt && d != 0 then hiLo32 (n.srem d) (n.sdiv d) s else freeHiLo s)

/-- DIVU (R381, R373). -/
def execDivu (rs rt : BitVec 5) (s : State) : Result :=
  finish (
    let n := low32 (readGpr s rs)
    let d := low32 (readGpr s rt)
    if properPair s rs rt && d != 0 then hiLo32 (n.umod d) (n.udiv d) s else freeHiLo s)

/-- DDIV (R382, R373). -/
def execDdiv (rs rt : BitVec 5) (s : State) : Result :=
  finish (need64 s (
    let n := readGpr s rs
    let d := readGpr s rt
    if d != 0 then writeHiLo (n.srem d) (n.sdiv d) s else freeHiLo s))

/-- DDIVU (R383, R373). -/
def execDdivu (rs rt : BitVec 5) (s : State) : Result :=
  finish (need64 s (
    let n := readGpr s rs
    let d := readGpr s rt
    if d != 0 then writeHiLo (n.umod d) (n.udiv d) s else freeHiLo s))

/-! ## Moves from and to HI and LO -/

/-- MFHI (R385). -/
def execMfhi (rd : BitVec 5) (s : State) : Result := finish (goOn (s.writeGpr rd s.hi))

/-- MTHI (R386). -/
def execMthi (rs : BitVec 5) (s : State) : Result := finish (goOn (s.setHi (readGpr s rs)))

/-- MFLO (R387). -/
def execMflo (rd : BitVec 5) (s : State) : Result := finish (goOn (s.writeGpr rd s.lo))

/-- MTLO (R388). -/
def execMtlo (rs : BitVec 5) (s : State) : Result := finish (goOn (s.setLo (readGpr s rs)))

/-! ## Integer conditional moves (R390) -/

/-- Copy a register if the condition holds. -/
def moveIf (c : Bool) (rd rs : RegNum) (s : State) : Res Flow := goOn (if c then s.writeGpr rd (readGpr s rs) else s)

/-- MOVN (R391). -/
def execMovn (rd rs rt : BitVec 5) (s : State) : Result := finish (needMips4 s (moveIf (readGpr s rt != 0) rd rs s))

/-- MOVZ (R392). -/
def execMovz (rd rs rt : BitVec 5) (s : State) : Result := finish (needMips4 s (moveIf (readGpr s rt == 0) rd rs s))

/-- MOVF (R393). -/
def execMovf (rd rs : BitVec 5) (cc : BitVec 3) (s : State) : Result :=
  finish (needCp1 s (needMips4 s (moveIf (!conditionRead s cc) rd rs s)))

/-- MOVT (R394). -/
def execMovt (rd rs : BitVec 5) (cc : BitVec 3) (s : State) : Result :=
  finish (needCp1 s (needMips4 s (moveIf (conditionRead s cc) rd rs s)))

end Sys2Proof.Machine
end

