-- ==== Sys2Proof/Machine/Trap.lean ====
section
/-! DEFINITION. Sys2Proof/Machine/Trap.lean: SYSCALL, BREAK, the traps and SYNC (spec/44_special_traps.md R440 to R460). -/

namespace Sys2Proof.Machine

/-- Take the Trap exception if the condition holds (R446). -/
def trapIf (c : Bool) (s : State) : Res Flow := if c then .exc .trap s else goOn s

/-- SYSCALL (R443). -/
def execSyscall (s : State) : Result := finish (.exc .systemCall s)

/-- BREAK (R444). -/
def execBrk (s : State) : Result := finish (.exc .breakpoint s)

/-- TGE (R447). -/
def execTge (rs rt : BitVec 5) (_code : BitVec 10) (s : State) : Result :=
  finish (trapIf (!((readGpr s rs).slt (readGpr s rt))) s)

/-- TGEU (R448). -/
def execTgeu (rs rt : BitVec 5) (_code : BitVec 10) (s : State) : Result :=
  finish (trapIf (!((readGpr s rs).ult (readGpr s rt))) s)

/-- TLT (R449). -/
def execTlt (rs rt : BitVec 5) (_code : BitVec 10) (s : State) : Result :=
  finish (trapIf ((readGpr s rs).slt (readGpr s rt)) s)

/-- TLTU (R450). -/
def execTltu (rs rt : BitVec 5) (_code : BitVec 10) (s : State) : Result :=
  finish (trapIf ((readGpr s rs).ult (readGpr s rt)) s)

/-- TEQ (R451). -/
def execTeq (rs rt : BitVec 5) (_code : BitVec 10) (s : State) : Result :=
  finish (trapIf ((readGpr s rs) == (readGpr s rt)) s)

/-- TNE (R452). -/
def execTne (rs rt : BitVec 5) (_code : BitVec 10) (s : State) : Result :=
  finish (trapIf ((readGpr s rs) != (readGpr s rt)) s)

/-- TGEI (R453). -/
def execTgei (rs : BitVec 5) (imm : BitVec 16) (s : State) : Result :=
  finish (trapIf (!((readGpr s rs).slt (sext16 imm))) s)

/-- TGEIU (R454). -/
def execTgeiu (rs : BitVec 5) (imm : BitVec 16) (s : State) : Result :=
  finish (trapIf (!((readGpr s rs).ult (sext16 imm))) s)

/-- TLTI (R455). -/
def execTlti (rs : BitVec 5) (imm : BitVec 16) (s : State) : Result :=
  finish (trapIf ((readGpr s rs).slt (sext16 imm)) s)

/-- TLTIU (R456). -/
def execTltiu (rs : BitVec 5) (imm : BitVec 16) (s : State) : Result :=
  finish (trapIf ((readGpr s rs).ult (sext16 imm)) s)

/-- TEQI (R457). -/
def execTeqi (rs : BitVec 5) (imm : BitVec 16) (s : State) : Result :=
  finish (trapIf ((readGpr s rs) == (sext16 imm)) s)

/-- TNEI (R458). -/
def execTnei (rs : BitVec 5) (imm : BitVec 16) (s : State) : Result :=
  finish (trapIf ((readGpr s rs) != (sext16 imm)) s)

/-- SYNC (R460, spec/20_memory.md R176): the write buffer empties. -/
def execSync (s : State) : Result := finish (goOn (drainAll s))

end Sys2Proof.Machine
end

