-- ==== Sys2Proof/Machine/Cycle.lean ====
section
/-! DEFINITION. Sys2Proof/Machine/Cycle.lean: one step of the machine around the meaning of an instruction: what the environment
does, the reset-class events, Standby, the fetch, the interrupt test, and what every step ages. -/

namespace Sys2Proof.Machine

/-! ## The environment (spec/49_system_interface.md R704, R715, R716; spec/60_exceptions.md R800) -/

/-- One step of the Count agent (R800). It compares with the Compare last written, also where that write may still be unseen by the interrupt
test: DESIGN CHOICE (log entry 21). -/
def countStep (s : State) : State :=
  let n := s.cp0.count + 1
  { s with cp0 := { s.cp0 with count := n }, timerInt := s.timerInt || n == s.cp0.compare }

/-- Steps of the Count agent. -/
def countSteps : Nat → State → State
  | 0, s => s
  | n + 1, s => countSteps n (countStep s)

/-- An external write to the Interrupt register (R715): the enabled bits take their values. -/
def writeIntReg (data : Dword) (s : State) : State :=
  let en : BitVec 7 := data.extractLsb' 16 7
  { s with intReg := (s.intReg &&& ~~~en) ||| (data.extractLsb' 0 7 &&& en) }

/-- `NMIreq` (spec/60_exceptions.md R794). -/
def nmiRequest (s : State) : Bool := s.intReg.getLsbD 6 || s.nmiPin

/-- The NMI request is looked at: a rise since the last look is an NMI to be taken (R794, D36). -/
def sampleNmi (s : State) : State :=
  { s with nmiSeen := nmiRequest s, nmiPending := s.nmiPending + (if nmiRequest s && !s.nmiSeen then 1 else 0) }

/-- An external request: only a write of a word with 0 on SysAD[6:4] reaches a resource; a write of another size is refused (R715). A read
is answered with undefined data, marked erroneous (R716). -/
def applyExt (r : ExtRequest) (s : State) : Res Unit :=
  match r with
  | .write address size data =>
    if size != 4 then .refuse .externalWriteSize
    else if address.extractLsb' 4 3 == 0#3 then .ok () (sampleNmi (writeIntReg data s))
    else .ok () s
  | .read address => .ok () ((s.addBus (.answer address s.free)).drawn 2)
  | .null => .ok () s

/-- External requests in order. -/
def applyExts : List ExtRequest → State → Res Unit
  | [], s => .ok () s
  | r :: rs, s => Res.bind (applyExt r s) fun _ t => applyExts rs t

/-- What the environment does in the coming step: what `inputs` says, or nothing while it holds the pins. -/
def nextInput (s : State) : EnvInput := s.inputs.headD (EnvInput.quiet s.intPin s.nmiPin)

/-- The state as the environment leaves it before the instruction: pins latched, memory written by other masters, Count stepped,
buffered writes sent, memory written again. -/
def arrived (s : State) : State :=
  let i := nextInput s
  let t := { s with
    inputs := s.inputs.tail
    inp := i
    intPin := i.intPin
    nmiPin := i.nmiPin
    mem := memWriteCells s.mem i.busWrites
    bus := []
    entered := false }
  let u := drainSome i.drain (countSteps i.countTicks t)
  sampleNmi (u.setMem (memWriteCells u.mem i.lateWrites))

/-! ## Reset-class events (spec/70_reset_and_hazards.md R850 to R853) -/

/-- The bytes a buffered write would reach. -/
def entryTarget : WbEntry → PAddr × Nat
  | .single pa _ bs => (pa, bs.length)
  | .block pa _ _ _ bs _ => (pa, bs.length)

/-- The bytes a write request on the bus reaches. -/
def requestTarget : BusRequest → Option (PAddr × Nat)
  | .write pa _ bs _ => some (pa, bs.length)
  | .writeBlock pa _ _ bs _ _ => some (pa, bs.length)
  | .readBlock _ _ _ _ | .read _ _ _ | .answer _ _ => none

/-- Free bytes. -/
def freeBytes (g : Nat) : Nat → List Byte
  | 0 => []
  | n + 1 => (Config.freeBits g).extractLsb' 0 8 :: freeBytes (g + 1) n

/-- Writes given up: what their targets in memory hold is free (R852). -/
def abandon : List (PAddr × Nat) → State → State
  | [], s => s
  | (pa, n) :: ts, s => abandon ts ((s.setMem (physWriteBytes s.physMap s.mem pa.toNat (freeBytes s.free n))).drawn n)

/-- The buffered writes are given up, and the buffer is empty. -/
def abandonWrites (s : State) : State := (abandon (s.wb.map entryTarget) s).setWb []

/-- The writes in flight after an instruction, on the bus since its first `n` requests or still buffered. -/
def inFlight (n : Nat) (t : State) : List (PAddr × Nat) := (t.bus.drop n).filterMap requestTarget ++ t.wb.map entryTarget

/-- A TLB entry of free contents. -/
def freeTlbEntry (s : State) (k : Nat) : TlbEntry :=
  let v := freeAt s k ++ freeAt s (k + 1)
  { mask := v.extractLsb' 0 12, r := v.extractLsb' 12 2, vpn2 := v.extractLsb' 14 27, asid := v.extractLsb' 41 8, g := v.getLsbD 49,
    pfn0 := v.extractLsb' 50 24, c0 := v.extractLsb' 74 3, d0 := v.getLsbD 77, v0 := v.getLsbD 78,
    pfn1 := v.extractLsb' 79 24, c1 := v.extractLsb' 103 3, d1 := v.getLsbD 106, v1 := v.getLsbD 107 }

/-- Status after a Reset exception: BEV = ERL = 1, SR = 0, the other bits free (R851). -/
def freeStatus (s : State) (k : Nat) : StatusReg :=
  { unpackStatus ((freeAt s k).extractLsb' 0 32) with bev := true, erl := true, sr := false }

/-- CP0 after a Reset exception: Random 47, Wired 0, Config.SE 0, Status, the rest free (R851). -/
def freeCp0 (s : State) (k : Nat) : Cp0 :=
  let f (j : Nat) : Dword := freeAt s (k + j)
  { indexP := (f 0).getLsbD 31, index := (f 0).extractLsb' 0 6, random := 47, entryLo0 := freeEntryLo s (k + 1),
    entryLo1 := freeEntryLo s (k + 2), contextPTEBase := (f 3).extractLsb' 23 41, contextBadVPN2 := (f 3).extractLsb' 4 19,
    pageMask := (f 4).extractLsb' 13 12, wired := 0, badVAddr := f 5, count := (f 6).extractLsb' 0 32,
    entryHi := unpackEntryHi (f 7), compare := (f 8).extractLsb' 0 32, status := freeStatus s (k + 9),
    cause := { bd := (f 10).getLsbD 31, ce := (f 10).extractLsb' 28 2, ipSw := (f 10).extractLsb' 8 2, excCode := (f 10).extractLsb' 2 5 },
    epc := f 11, configSE := false, configK0 := (f 12).extractLsb' 0 3, llAddr := (f 13).extractLsb' 0 32,
    xcontextPTEBase := (f 14).extractLsb' 33 31, xcontextR := (f 14).extractLsb' 31 2, xcontextBadVPN2 := (f 14).extractLsb' 4 27,
    ecc := (f 15).extractLsb' 0 8,
    cacheErr := { er := (f 16).getLsbD 31, ec := (f 16).getLsbD 30, ed := (f 16).getLsbD 29, et := (f 16).getLsbD 28,
                  ee := (f 16).getLsbD 26, eb := (f 16).getLsbD 25 },
    tagLo := (f 17).extractLsb' 0 32, tagHi := (f 18).extractLsb' 0 32, errorEpc := f 19 }

/-- The boot-mode settings are legal (R860). -/
def bootLegal (b : BootMode) : Bool :=
  b.xmitDatPat ≤ 8 && b.sysCkRatio != 7 && b.nonBlockWrite != 1 && b.scSize != 3 && !b.reservedBits

/-- The Reset exception (R851): everything unspecified is free; memory is the environment's. That an NMI not yet taken is dropped, and that
a request active at the reset makes an NMI only by a new rise, is DESIGN CHOICE (log entry 29). -/
def coldReset (b : BootMode) (s : State) : State :=
  let a := abandonWrites s
  let t := { State.reset with
    gpr := Vector.ofFn fun i : Fin 32 => freeAt a i.val
    hi := freeAt a 32
    lo := freeAt a 33
    cp0 := freeCp0 a 34
    tlb := Vector.ofFn fun i : Fin 48 => freeTlbEntry a (54 + 2 * i.val)
    fgr := Vector.ofFn fun i : Fin 32 => freeAt a (150 + i.val)
    fcr31 := unpackFcr31 ((freeAt a 182).extractLsb' 0 32)
    llBit := freeBitAt a 183
    linkAddr := (freeAt a 184).extractLsb' 0 36
    timerInt := freeBitAt a 185
    mem := a.mem
    physMap := a.physMap
    boot := b
    intPin := a.intPin
    nmiPin := a.nmiPin
    free := a.free + 186
    inputs := a.inputs
    inp := a.inp
    bus := a.bus
    entered := true }
  let u := scrambleCaches t
  { u with nmiSeen := nmiRequest u }

/-- The transfer of Soft Reset and NMI (spec/60_exceptions.md R764). -/
def softEntry (s : State) : State :=
  { (((s.setCp0 { s.cp0 with
        errorEpc := restartPc s
        status := { s.cp0.status with bev := true, sr := true, erl := true } }).setSeq 0xFFFFFFFFBFC00000 none).setStandby false).flush with
    entered := true }

/-- The Soft Reset exception (R852): registers kept, caches and the targets of buffered writes unspecified. -/
def warmReset (s : State) : State := softEntry { scrambleCaches (abandonWrites s) with nmiPending := 0 }

/-- The NMI exception (spec/60_exceptions.md R794): one NMI fewer is to be taken, caches and memory are preserved. The tables of the spec
disagree on the write buffer: emptied, whether its writes were performed unspecified (spec/10_state.md R128), or preserved, still to drain (R853).
The environment says which: DESIGN CHOICE (log entry 31). -/
def nmiEntry (s : State) : State :=
  softEntry { (if s.inp.nmiEmptiesBuffer then abandonWrites s else s) with nmiPending := s.nmiPending - 1 }

/-- A reset input (R850). -/
def resetEntry (k : ResetKind) (s : State) : Result :=
  match k with
  | .cold b => if bootLegal b then .next (coldReset b s) else .refused .bootModeReserved
  | .warm => .next (warmReset s)

/-! ## Standby (spec/60_exceptions.md R830, D28) -/

/-- What ends Standby, besides the resets: an interrupt pin or NMI* asserted, the timer interrupt, which there is only while
`TmrIntEn` = 0 (R793), ExtRqst*. -/
def wakes (s : State) : Bool :=
  s.intPin != 0 || s.nmiPin || (s.timerInt && !s.boot.tmrIntEn) || s.inp.extRqst || !s.inp.ext.isEmpty

/-! ## One instruction -/

/-- What the spec makes of a word that is no instruction (spec/30_encoding.md R234, R235, R238; spec/45_cp0_system.md R491). -/
def rejected (e : DecodeError) (s : State) : Result :=
  match e with
  | .notOneWord | .reserved => finish (.exc .reservedInstruction s)
  | .cop0Undefined => finish (needCp0 s (.exc .reservedInstruction s))
  | .cop1Undefined => finish (undefinedFp s)
  | .cop2 =>
    if (seen .usable s).cp0.status.cu.getLsbD 2 then finish (.exc .reservedInstruction s)
    else finish (.exc (.coprocessorUnusable 2) s)
  | .mustBeZero .none => .refused .fieldNotZero
  | .mustBeZero .cop0 => finish (needCp0 s (.refuse .fieldNotZero))
  | .mustBeZero .cop1 => finish (needCp1 s (.refuse .fieldNotZero))
  | .cacheUndefined => finish (needCp0 s (.refuse .cacheOperationUndefined))

/-- Random one lower, or 47 after the value of Wired (spec/10_state.md R61). -/
def stepRandom (s : State) : State :=
  s.setCp0 { s.cp0 with random := if s.cp0.random ≤ s.cp0.wired then 47 else s.cp0.random - 1 }

/-- An instruction that writes Wired, and with it Random (spec/10_state.md R46). -/
def writesWired : Instr → Bool
  | .mtc0 _ rd => rd == 6
  | _ => false

/-- Random steps once for each instruction retired (D3): one that took no exception. -/
def retire (i : Instr) (r : Result) : Result :=
  match r with
  | .next t => .next (if t.entered || writesWired i then t else stepRandom t)
  | .fault f => .fault f
  | .refused e => .refused e

/-- Decode the fetched bytes, in the byte order of memory (spec/20_memory.md R139), and run the instruction. -/
def runBytes (bs : List Byte) (s : State) : Result :=
  match decode s.boot.bigEndianMem bs with
  | .ok i => retire i (exec i s)
  | .error e => rejected e s

/-- Fetch the instruction at PC and run it: that one alone, nothing behind it. DESIGN CHOICE (log entry 48): by how much sequential fetch
runs ahead the spec leaves open (spec/20_memory.md R178). -/
def runFetched (s : State) : Result :=
  match fetchBytes s with
  | .ok bs t => runBytes bs t
  | .exc e t => .next (takeException e t)
  | .fault f => .fault f
  | .refuse r => .refused r

/-- The interrupt test (R752, R791): an instruction that takes an exception of its own keeps it; else an enabled request is taken
in the instruction's place. -/
def withInterrupt (s : State) (r : Result) : Result :=
  if interruptRequest s && !s.inp.deferInt then
    match r with
    | .next t => if t.entered then .next t else .next (takeException .interrupt s)
    | .fault f => .fault f
    | .refused _ => .next (takeException .interrupt s)
  else r

/-- One instruction of every window has gone by. -/
def age (s : State) : State :=
  { s with
    hazards := s.hazards.filterMap fun h => if h.left ≤ 1 then none else some { h with left := h.left - 1 }
    fccOld := match s.fccOld with
      | some (n, old) => if n ≤ 1 then none else some (n - 1, old)
      | none => none }

/-- The outcome of a step, aged. -/
def aged (r : Result) : Result :=
  match r with
  | .next t => .next (age t)
  | .fault f => .fault f
  | .refused e => .refused e

/-- No mode: KSU = 3 with EXL = ERL = 0 (R820, D35). -/
def noMode (t : StatusReg) : Bool := t.ksu == 3 && !t.exl && !t.erl

/-- The instruction of this step, or the interrupt taken in its place. -/
def boundary (s : State) : Result :=
  if noMode s.cp0.status then .refused .reservedMode else aged (withInterrupt s (runFetched s))

/-- An NMI that a rise of its request has left to be taken (R794), before the instruction and also in Standby; else the processor stays in
Standby until something wakes it (R830). -/
def afterReset (s : State) : Result :=
  if s.nmiPending != 0 then .next (nmiEntry s)
  else if s.standby && !wakes s then .next s
  else boundary (s.setStandby false)

/-- The state in which a reset finds an instruction it cuts off (spec/70_reset_and_hazards.md R852, R857): every register as before it,
its requests on the bus, the memory its stores and write-backs were on the way to free. One that waits for a read that is never answered
has nothing in flight but what was buffered before. -/
def cutOff (s : State) : State :=
  if s.standby then s
  else match runFetched s with
    | .next t => abandon (inFlight s.bus.length t) { s with bus := t.bus, free := t.free }
    | .fault _ | .refused _ => s

/-- One step: the environment, a reset, an NMI, Standby, or an instruction. -/
def cycle (s : State) : Result :=
  match applyExts (nextInput s).ext (arrived s) with
  | .ok _ t =>
    match t.inp.reset with
    | some k => resetEntry k (if t.inp.resetMidway then cutOff t else t)
    | none => afterReset t
  | .exc e t => .next (takeException e t)
  | .fault f => .fault f
  | .refuse r => .refused r

/-! ## Placing an instruction where the next step fetches it -/

/-- Store the bytes of an instruction at the address the next fetch reads: memory for an uncached address, behind the buffered
writes; the line of the instruction cache if it holds the address; else memory and the secondary cache's copy. The physical map has memory or
ROM there. -/
def placeAt (pa : PAddr) (c : BitVec 3) (bs : List Byte) (s : State) : State :=
  let i := setIndex s.pc
  let d := isetAt s i
  if c == 2 then (drainAll s).setMem (memWriteBytes (drainAll s).mem pa.toNat bs)
  else
    match ihit d (primaryTag pa) with
    | some way =>
      let l := iwayOf d way
      let dat := setLineBytes l.data (lineOffset pa) bs
      s.putISet i (isetWay d way { l with data := dat, par := wordPar (linePar dat) 8 })
    | none =>
      let t := drainAll s
      let u := t.setMem (memWriteBytes t.mem pa.toNat bs)
      let l := slineAt t (scacheIndex s.boot pa)
      let dat := setLineBytes l.data (lineOffset pa) bs
      if scacheInUse s s.cp0 c && l.valid && l.tag == scacheTag pa then
        u.putSLine (scacheIndex s.boot pa) { l with data := dat, par := linePar dat }
      else u

/-- Place an instruction word where the next step fetches. -/
def placeWord (w : Word) (s : State) : State :=
  match translate (seen .fetch s) .fetch s.pc with
  | .ok (pa, c) => placeAt pa c (bytesOfWord s.boot.bigEndianMem w) s
  | .error _ => s

end Sys2Proof.Machine
end

