-- ==== Sys2Proof/Safety.lean ====
section
/-! DEFINITION. Sys2Proof/Safety.lean: the terms of the claims: the invariant of a run, what an instruction leaves unchanged, and the
results of the instructions as the rules state them, on integers. -/

namespace Sys2Proof.Machine

/-! ## The invariant -/

/-- The write buffer holds up to four write requests, or one line (spec/10_state.md R122). -/
def WriteBufferFits (w : List WbEntry) : Prop := w.length ≤ 4 ∧ (w.any isBlock = true → w.length = 1)

/-- The invariant of every run: memory in its canonical form, Random between Wired and 47 (spec/10_state.md R61), the write buffer
within its size. -/
structure Inv (s : State) : Prop where
  memory : Memory.wf s.mem
  wired : s.cp0.wired ≤ s.cp0.random
  random : s.cp0.random ≤ 47
  buffer : WriteBufferFits s.wb

/-! ## What stays unchanged -/

/-- The bytes of memory, the buffered writes and the caches are as before. -/
structure SameMemory (s t : State) : Prop where
  bytes : ∀ a, memRead t.mem a = memRead s.mem a
  buffer : t.wb = s.wb
  icache : t.icache = s.icache ∧ t.icacheRest = s.icacheRest
  dcache : t.dcache = s.dcache ∧ t.dcacheRest = s.dcacheRest
  scache : t.scache = s.scache ∧ t.scacheRest = s.scacheRest

/-- The general registers, HI and LO are as before. -/
structure SameCpu (s t : State) : Prop where
  gpr : ∀ r, readGpr t r = readGpr s r
  hi : t.hi = s.hi
  lo : t.lo = s.lo

/-- The floating-point registers and FCR31 are as before. -/
structure SameFpu (s t : State) : Prop where
  fgr : ∀ r, readFgr t r = readFgr s r
  fcr31 : t.fcr31 = s.fcr31

/-- The link is as before. -/
def SameLink (s t : State) : Prop := t.llBit = s.llBit ∧ t.linkAddr = s.linkAddr ∧ t.linkKnown = s.linkKnown

/-- The interrupt inputs, the timer latch, Standby, the boot mode, the physical map and the record of an exception entry are as before. -/
structure SamePlatform (s t : State) : Prop where
  intReg : t.intReg = s.intReg
  intPin : t.intPin = s.intPin
  nmi : t.nmiPin = s.nmiPin ∧ t.nmiSeen = s.nmiSeen ∧ t.nmiPending = s.nmiPending
  timer : t.timerInt = s.timerInt
  standby : t.standby = s.standby
  boot : t.boot = s.boot
  map : t.physMap = s.physMap
  entered : t.entered = s.entered

/-- CP0, the TLB, the link and the platform are as before. -/
structure SameSystem (s t : State) : Prop where
  cp0 : t.cp0 = s.cp0
  tlb : t.tlb = s.tlb
  link : SameLink s t
  platform : SamePlatform s t

/-- The address after an instruction that does not branch: the next one, or the target of the branch whose delay slot this was
(spec/43_jumps_branches.md R400). -/
def nextPc (s : State) : Dword :=
  match s.delay with
  | none => s.pc + 4
  | some t => t

/-- Control went on with the next instruction. -/
def WentOn (s t : State) : Prop := t.pc = nextPc s ∧ t.delay = none

/-- The only effect is that `r` holds `v`; register 0 discards it (spec/10_state.md R21). -/
structure WritesGpr (r : RegNum) (v : Dword) (s t : State) : Prop where
  gpr : ∀ q, readGpr t q = if q = r ∧ q ≠ 0 then v else readGpr s q
  hiLo : t.hi = s.hi ∧ t.lo = s.lo
  fpu : SameFpu s t
  system : SameSystem s t
  memory : SameMemory s t
  control : WentOn s t

/-- No effect but going on. -/
structure NoEffect (s t : State) : Prop where
  cpu : SameCpu s t
  fpu : SameFpu s t
  system : SameSystem s t
  memory : SameMemory s t
  control : WentOn s t

/-- The only effect is on HI and LO. -/
structure WritesHiLo (hi lo : Dword) (s t : State) : Prop where
  gpr : ∀ r, readGpr t r = readGpr s r
  hiLo : t.hi = hi ∧ t.lo = lo
  fpu : SameFpu s t
  system : SameSystem s t
  memory : SameMemory s t
  control : WentOn s t

/-! ## Integers of register values -/

/-- The signed value of the low word. -/
def s32 (d : Dword) : Int := (low32 d).toInt
/-- The unsigned value of the low word. -/
def u32 (d : Dword) : Int := (low32 d).toNat
/-- The signed value. -/
def s64 (d : Dword) : Int := d.toInt
/-- The unsigned value. -/
def u64 (d : Dword) : Int := d.toNat
/-- A 32-bit result in a register: an integer modulo 2^32, sign-extended (spec/41_alu.md R311). -/
def word32 (n : Int) : Dword := (BitVec.ofInt 32 n).signExtend 64
/-- A 64-bit result: an integer modulo 2^64. -/
def word64 (n : Int) : Dword := BitVec.ofInt 64 n
/-- 1 or 0. -/
def flag (p : Bool) : Dword := if p then 1 else 0

/-! ## Results of the integer instructions, as the rules state them -/

/-- A result for a general register; `wide` for a 64-bit operation, `proper` for operands that are sign-extended where they must be. -/
structure GprResult where
  rd : RegNum
  value : Dword
  wide : Bool
  proper : Bool

/-- Immediate and three-operand instructions that raise no Overflow (spec/41_alu.md R316 to R338). -/
def aluResult (s : State) : Instr → Option GprResult
  | .addiu rt rs imm => some ⟨rt, word32 (s32 (readGpr s rs) + imm.toInt), false, isSext32 (readGpr s rs)⟩
  | .slti rt rs imm => some ⟨rt, flag (s64 (readGpr s rs) < imm.toInt), false, true⟩
  | .sltiu rt rs imm => some ⟨rt, flag (u64 (readGpr s rs) < u64 (word64 imm.toInt)), false, true⟩
  | .andi rt rs imm => some ⟨rt, readGpr s rs &&& BitVec.ofNat 64 imm.toNat, false, true⟩
  | .ori rt rs imm => some ⟨rt, readGpr s rs ||| BitVec.ofNat 64 imm.toNat, false, true⟩
  | .xori rt rs imm => some ⟨rt, readGpr s rs ^^^ BitVec.ofNat 64 imm.toNat, false, true⟩
  | .lui rt imm => some ⟨rt, word32 (imm.toNat * 2 ^ 16), false, true⟩
  | .daddiu rt rs imm => some ⟨rt, word64 (s64 (readGpr s rs) + imm.toInt), true, true⟩
  | .addu rd rs rt =>
    some ⟨rd, word32 (s32 (readGpr s rs) + s32 (readGpr s rt)), false, isSext32 (readGpr s rs) && isSext32 (readGpr s rt)⟩
  | .subu rd rs rt =>
    some ⟨rd, word32 (s32 (readGpr s rs) - s32 (readGpr s rt)), false, isSext32 (readGpr s rs) && isSext32 (readGpr s rt)⟩
  | .and rd rs rt => some ⟨rd, readGpr s rs &&& readGpr s rt, false, true⟩
  | .or rd rs rt => some ⟨rd, readGpr s rs ||| readGpr s rt, false, true⟩
  | .xor rd rs rt => some ⟨rd, readGpr s rs ^^^ readGpr s rt, false, true⟩
  | .nor rd rs rt => some ⟨rd, ~~~(readGpr s rs ||| readGpr s rt), false, true⟩
  | .slt rd rs rt => some ⟨rd, flag (s64 (readGpr s rs) < s64 (readGpr s rt)), false, true⟩
  | .sltu rd rs rt => some ⟨rd, flag (u64 (readGpr s rs) < u64 (readGpr s rt)), false, true⟩
  | .daddu rd rs rt => some ⟨rd, word64 (s64 (readGpr s rs) + s64 (readGpr s rt)), true, true⟩
  | .dsubu rd rs rt => some ⟨rd, word64 (s64 (readGpr s rs) - s64 (readGpr s rt)), true, true⟩
  | _ => none

/-- Shifts: left is multiplication by a power of two, right is division, rounded down (spec/41_alu.md R340 to R354). That SLLV asks nothing
of the upper bits of rs, which R343 has it ignore, is the model's choice (log entry 33). -/
def shiftResult (s : State) : Instr → Option GprResult
  | .sll rd rt sa => some ⟨rd, word32 (u32 (readGpr s rt) * 2 ^ sa.toNat), false, isSext32 (readGpr s rt)⟩
  | .srl rd rt sa => some ⟨rd, word32 (u32 (readGpr s rt) / 2 ^ sa.toNat), false, isSext32 (readGpr s rt)⟩
  | .sra rd rt sa => some ⟨rd, word32 (s32 (readGpr s rt) / 2 ^ sa.toNat), false, isSext32 (readGpr s rt)⟩
  | .sllv rd rt rs =>
    some ⟨rd, word32 (u32 (readGpr s rt) * 2 ^ ((readGpr s rs).toNat % 32)), false, isSext32 (readGpr s rt)⟩
  | .srlv rd rt rs =>
    some ⟨rd, word32 (u32 (readGpr s rt) / 2 ^ ((readGpr s rs).toNat % 32)), false, isSext32 (readGpr s rs) && isSext32 (readGpr s rt)⟩
  | .srav rd rt rs =>
    some ⟨rd, word32 (s32 (readGpr s rt) / 2 ^ ((readGpr s rs).toNat % 32)), false, isSext32 (readGpr s rs) && isSext32 (readGpr s rt)⟩
  | .dsll rd rt sa => some ⟨rd, word64 (u64 (readGpr s rt) * 2 ^ sa.toNat), true, true⟩
  | .dsrl rd rt sa => some ⟨rd, word64 (u64 (readGpr s rt) / 2 ^ sa.toNat), true, true⟩
  | .dsra rd rt sa => some ⟨rd, word64 (s64 (readGpr s rt) / 2 ^ sa.toNat), true, true⟩
  | .dsll32 rd rt sa => some ⟨rd, word64 (u64 (readGpr s rt) * 2 ^ (sa.toNat + 32)), true, true⟩
  | .dsrl32 rd rt sa => some ⟨rd, word64 (u64 (readGpr s rt) / 2 ^ (sa.toNat + 32)), true, true⟩
  | .dsra32 rd rt sa => some ⟨rd, word64 (s64 (readGpr s rt) / 2 ^ (sa.toNat + 32)), true, true⟩
  | .dsllv rd rt rs => some ⟨rd, word64 (u64 (readGpr s rt) * 2 ^ ((readGpr s rs).toNat % 64)), true, true⟩
  | .dsrlv rd rt rs => some ⟨rd, word64 (u64 (readGpr s rt) / 2 ^ ((readGpr s rs).toNat % 64)), true, true⟩
  | .dsrav rd rt rs => some ⟨rd, word64 (s64 (readGpr s rt) / 2 ^ ((readGpr s rs).toNat % 64)), true, true⟩
  | _ => none

/-- An exact sum or difference, of which the instruction raises Overflow if it is no signed value of the width. -/
structure TrappingResult where
  rd : RegNum
  exact : Int
  wide : Bool
  proper : Bool

/-- ADDI, ADD, SUB, DADDI, DADD, DSUB (spec/41_alu.md R312). -/
def trappingResult (s : State) : Instr → Option TrappingResult
  | .addi rt rs imm => some ⟨rt, s32 (readGpr s rs) + imm.toInt, false, isSext32 (readGpr s rs)⟩
  | .add rd rs rt =>
    some ⟨rd, s32 (readGpr s rs) + s32 (readGpr s rt), false, isSext32 (readGpr s rs) && isSext32 (readGpr s rt)⟩
  | .sub rd rs rt =>
    some ⟨rd, s32 (readGpr s rs) - s32 (readGpr s rt), false, isSext32 (readGpr s rs) && isSext32 (readGpr s rt)⟩
  | .daddi rt rs imm => some ⟨rt, s64 (readGpr s rs) + imm.toInt, true, true⟩
  | .dadd rd rs rt => some ⟨rd, s64 (readGpr s rs) + s64 (readGpr s rt), true, true⟩
  | .dsub rd rs rt => some ⟨rd, s64 (readGpr s rs) - s64 (readGpr s rt), true, true⟩
  | _ => none

/-- An integer is a signed value of 32 or 64 bits. -/
def FitsSigned (wide : Bool) (n : Int) : Prop := if wide then -2 ^ 63 ≤ n ∧ n < 2 ^ 63 else -2 ^ 31 ≤ n ∧ n < 2 ^ 31

/-- Results of a multiply or divide; `known` unless an operand is improper or the divisor is zero. -/
structure HiLoResult where
  hi : Dword
  lo : Dword
  wide : Bool
  known : Bool

/-- Multiply and divide (spec/42_muldiv_moves.md R373 to R383): the halves of the exact product; the quotient toward zero and the
remainder with the sign of the dividend. -/
def hiLoResult (s : State) : Instr → Option HiLoResult
  | .mult rs rt =>
    let p := s32 (readGpr s rs) * s32 (readGpr s rt)
    some ⟨word32 (p / 2 ^ 32), word32 p, false, isSext32 (readGpr s rs) && isSext32 (readGpr s rt)⟩
  | .multu rs rt =>
    let p := u32 (readGpr s rs) * u32 (readGpr s rt)
    some ⟨word32 (p / 2 ^ 32), word32 p, false, isSext32 (readGpr s rs) && isSext32 (readGpr s rt)⟩
  | .dmult rs rt =>
    let p := s64 (readGpr s rs) * s64 (readGpr s rt)
    some ⟨word64 (p / 2 ^ 64), word64 p, true, true⟩
  | .dmultu rs rt =>
    let p := u64 (readGpr s rs) * u64 (readGpr s rt)
    some ⟨word64 (p / 2 ^ 64), word64 p, true, true⟩
  | .div rs rt =>
    let n := s32 (readGpr s rs)
    let d := s32 (readGpr s rt)
    some ⟨word32 (n.tmod d), word32 (n.tdiv d), false, isSext32 (readGpr s rs) && isSext32 (readGpr s rt) && d != 0⟩
  | .divu rs rt =>
    let n := u32 (readGpr s rs)
    let d := u32 (readGpr s rt)
    some ⟨word32 (n % d), word32 (n / d), false, isSext32 (readGpr s rs) && isSext32 (readGpr s rt) && d != 0⟩
  | .ddiv rs rt =>
    let n := s64 (readGpr s rs)
    let d := s64 (readGpr s rt)
    some ⟨word64 (n.tmod d), word64 (n.tdiv d), true, d != 0⟩
  | .ddivu rs rt =>
    let n := u64 (readGpr s rs)
    let d := u64 (readGpr s rt)
    some ⟨word64 (n % d), word64 (n / d), true, d != 0⟩
  | _ => none

/-! ## Jumps and branches (spec/43_jumps_branches.md) -/

/-- A jump or branch: whether it is taken, where to, whether an untaken one nullifies its delay slot, the link register, and
the form the spec gives a behaviour. -/
structure BranchForm where
  taken : Bool
  target : Dword
  likely : Bool
  link : Option RegNum
  legal : Bool

/-- The target of a branch: the delay slot's address plus four times the offset. -/
def relativeTarget (s : State) (offset : BitVec 16) : Dword := word64 (s64 s.pc + 4 + 4 * offset.toInt)

/-- The target of J and JAL: the 256-Mbyte region of the delay slot, four times the index. -/
def regionTarget (s : State) (target : BitVec 26) : Dword :=
  BitVec.ofNat 64 ((s.pc + 4).toNat / 2 ^ 28 * 2 ^ 28 + 4 * target.toNat)

/-- The branches and jumps of the integer unit (R410 to R430). -/
def branchForm (s : State) : Instr → Option BranchForm
  | .j t => some ⟨true, regionTarget s t, false, none, true⟩
  | .jal t => some ⟨true, regionTarget s t, false, some 31, true⟩
  | .jr rs => some ⟨true, readGpr s rs, false, none, true⟩
  | .jalr rd rs => some ⟨true, readGpr s rs, false, some rd, rd != rs⟩
  | .beq rs rt o => some ⟨readGpr s rs = readGpr s rt, relativeTarget s o, false, none, true⟩
  | .bne rs rt o => some ⟨readGpr s rs ≠ readGpr s rt, relativeTarget s o, false, none, true⟩
  | .blez rs o => some ⟨s64 (readGpr s rs) ≤ 0, relativeTarget s o, false, none, true⟩
  | .bgtz rs o => some ⟨0 < s64 (readGpr s rs), relativeTarget s o, false, none, true⟩
  | .bltz rs o => some ⟨s64 (readGpr s rs) < 0, relativeTarget s o, false, none, true⟩
  | .bgez rs o => some ⟨0 ≤ s64 (readGpr s rs), relativeTarget s o, false, none, true⟩
  | .bltzal rs o => some ⟨s64 (readGpr s rs) < 0, relativeTarget s o, false, some 31, rs != 31⟩
  | .bgezal rs o => some ⟨0 ≤ s64 (readGpr s rs), relativeTarget s o, false, some 31, rs != 31⟩
  | .beql rs rt o => some ⟨readGpr s rs = readGpr s rt, relativeTarget s o, true, none, true⟩
  | .bnel rs rt o => some ⟨readGpr s rs ≠ readGpr s rt, relativeTarget s o, true, none, true⟩
  | .blezl rs o => some ⟨s64 (readGpr s rs) ≤ 0, relativeTarget s o, true, none, true⟩
  | .bgtzl rs o => some ⟨0 < s64 (readGpr s rs), relativeTarget s o, true, none, true⟩
  | .bltzl rs o => some ⟨s64 (readGpr s rs) < 0, relativeTarget s o, true, none, true⟩
  | .bgezl rs o => some ⟨0 ≤ s64 (readGpr s rs), relativeTarget s o, true, none, true⟩
  | .bltzall rs o => some ⟨s64 (readGpr s rs) < 0, relativeTarget s o, true, some 31, rs != 31⟩
  | .bgezall rs o => some ⟨0 ≤ s64 (readGpr s rs), relativeTarget s o, true, some 31, rs != 31⟩
  | _ => none

/-- Where control stands after a jump or branch: at the delay slot with the target pending; an untaken likely branch has skipped
its slot (R401, R402). -/
structure Branched (b : BranchForm) (s t : State) : Prop where
  taken : b.taken = true → t.pc = s.pc + 4 ∧ t.delay = some b.target
  untaken : b.taken = false → b.likely = false → t.pc = s.pc + 4 ∧ t.delay = some (s.pc + 8)
  nullified : b.taken = false → b.likely = true → t.pc = s.pc + 8 ∧ t.delay = none
  gpr : ∀ q, readGpr t q = if b.link = some q ∧ q ≠ 0 then s.pc + 8 else readGpr s q
  hiLo : t.hi = s.hi ∧ t.lo = s.lo
  fpu : SameFpu s t
  system : SameSystem s t
  memory : SameMemory s t

/-- The condition of a trap instruction (spec/44_special_traps.md R447 to R458). -/
def trapCondition (s : State) : Instr → Option Bool
  | .tge rs rt _ => some (s64 (readGpr s rt) ≤ s64 (readGpr s rs))
  | .tgeu rs rt _ => some (u64 (readGpr s rt) ≤ u64 (readGpr s rs))
  | .tlt rs rt _ => some (s64 (readGpr s rs) < s64 (readGpr s rt))
  | .tltu rs rt _ => some (u64 (readGpr s rs) < u64 (readGpr s rt))
  | .teq rs rt _ => some (readGpr s rs = readGpr s rt)
  | .tne rs rt _ => some (readGpr s rs ≠ readGpr s rt)
  | .tgei rs imm => some (imm.toInt ≤ s64 (readGpr s rs))
  | .tgeiu rs imm => some (u64 (word64 imm.toInt) ≤ u64 (readGpr s rs))
  | .tlti rs imm => some (s64 (readGpr s rs) < imm.toInt)
  | .tltiu rs imm => some (u64 (readGpr s rs) < u64 (word64 imm.toInt))
  | .teqi rs imm => some (readGpr s rs = word64 imm.toInt)
  | .tnei rs imm => some (readGpr s rs ≠ word64 imm.toInt)
  | _ => none


/-! ## Loads and stores -/

/-- The unsigned value of bytes, lowest address first, in a byte order (spec/20_memory.md R133). -/
def natOfBytes (bigEndian : Bool) (bs : List Byte) : Nat :=
  (if bigEndian then bs else bs.reverse).foldl (fun n b => n * 256 + b.toNat) 0

/-- The register value of an `n`-byte quantity. -/
def loadedValue (signed : Bool) (n : Nat) (v : Nat) : Dword :=
  if signed = true ∧ 2 ^ (8 * n - 1) ≤ v then word64 (v - 2 ^ (8 * n)) else word64 v

/-- A load of a general register: destination, address, bytes, extension, whether it is a 64-bit operation, and whether it sets the
link. -/
structure LoadForm where
  rt : RegNum
  va : Dword
  n : Nat
  signed : Bool
  wide : Bool
  linked : Bool

/-- The effective address: base register plus signed offset (spec/40_loads_stores.md R260). -/
def effectiveAddress (s : State) (base : RegNum) (offset : BitVec 16) : Dword := word64 (s64 (readGpr s base) + offset.toInt)

/-- LB to LD, LL, LLD (spec/40_loads_stores.md R265 to R271, R285, R286). -/
def loadForm (s : State) : Instr → Option LoadForm
  | .lb rt o b => some ⟨rt, effectiveAddress s b o, 1, true, false, false⟩
  | .lbu rt o b => some ⟨rt, effectiveAddress s b o, 1, false, false, false⟩
  | .lh rt o b => some ⟨rt, effectiveAddress s b o, 2, true, false, false⟩
  | .lhu rt o b => some ⟨rt, effectiveAddress s b o, 2, false, false, false⟩
  | .lw rt o b => some ⟨rt, effectiveAddress s b o, 4, true, false, false⟩
  | .lwu rt o b => some ⟨rt, effectiveAddress s b o, 4, false, true, false⟩
  | .ld rt o b => some ⟨rt, effectiveAddress s b o, 8, true, true, false⟩
  | .ll rt o b => some ⟨rt, effectiveAddress s b o, 4, true, false, true⟩
  | .lld rt o b => some ⟨rt, effectiveAddress s b o, 8, true, true, true⟩
  | _ => none

/-- A left or right access: the register, the address, the unit, the side, and whether it is a 64-bit operation. -/
structure PartForm where
  rt : RegNum
  va : Dword
  size : Nat
  left : Bool
  wide : Bool

/-- LWL, LWR, LDL, LDR (R277 to R280). -/
def loadPartForm (s : State) : Instr → Option PartForm
  | .lwl rt o b => some ⟨rt, effectiveAddress s b o, 4, true, false⟩
  | .lwr rt o b => some ⟨rt, effectiveAddress s b o, 4, false, false⟩
  | .ldl rt o b => some ⟨rt, effectiveAddress s b o, 8, true, true⟩
  | .ldr rt o b => some ⟨rt, effectiveAddress s b o, 8, false, true⟩
  | _ => none

/-- SWL, SWR, SDL, SDR (R281 to R284). -/
def storePartForm (s : State) : Instr → Option PartForm
  | .swl rt o b => some ⟨rt, effectiveAddress s b o, 4, true, false⟩
  | .swr rt o b => some ⟨rt, effectiveAddress s b o, 4, false, false⟩
  | .sdl rt o b => some ⟨rt, effectiveAddress s b o, 8, true, true⟩
  | .sdr rt o b => some ⟨rt, effectiveAddress s b o, 8, false, true⟩
  | _ => none

/-- A store: the value whose low bytes go out, the address, the bytes, the unit (coprocessor 1 or none), the gate, the even register
a doubleword needs. -/
structure StoreForm where
  value : Dword
  va : Dword
  n : Nat
  wide : Bool

/-- SB, SH, SW, SD (R272 to R275). -/
def storeForm (s : State) : Instr → Option StoreForm
  | .sb rt o b => some ⟨readGpr s rt, effectiveAddress s b o, 1, false⟩
  | .sh rt o b => some ⟨readGpr s rt, effectiveAddress s b o, 2, false⟩
  | .sw rt o b => some ⟨readGpr s rt, effectiveAddress s b o, 4, false⟩
  | .sd rt o b => some ⟨readGpr s rt, effectiveAddress s b o, 8, true⟩
  | _ => none

/-- The bytes of the register's `size` low bytes that a left or right store moves, lowest address first: the `n` most or least
significant ones in the byte order of memory. -/
def partBytes (bigEndian left : Bool) (size n : Nat) (v : Dword) : List Byte :=
  let be := beBytes size v
  let moved := if left then be.take n else be.drop (size - n)
  if bigEndian then moved else moved.reverse

/-- The register after a left or right load: the loaded bytes replace the most or least significant ones. -/
def mergedValue (bigEndian left : Bool) (size : Nat) (old : Dword) (bs : List Byte) : Dword :=
  let be := beBytes size old
  let got := if bigEndian then bs else bs.reverse
  loadedValue (size == 4) size (natOfBytes true (if left then got ++ be.drop got.length else be.take (size - got.length) ++ got))

/-- The external agent answers a read with good data (spec/49_system_interface.md R705). -/
def GoodAnswer (r : ReadResponse) : Prop := r.erroneous = false ∧ r.badParity = 0 ∧ r.unanswered = false

/-- A 64-bit operation executes (spec/60_exceptions.md R821). -/
def WideOk (wide : Bool) (s : State) : Prop := wide = true → is64 (seen .usable s).cp0.status = true

/-- An access outside reverse-endian User mode; what the order of bytes is in that mode is the model's choice (log entry 10). -/
def PlainOrder (s : State) : Prop := reverseEndian (seen .data s).cp0.status = false

/-- An aligned access of `n` bytes that translates. -/
def Reaches (s : State) (kind : AccessKind) (va : Dword) (n : Nat) (pa : PAddr) (c : BitVec 3) : Prop :=
  va.toNat % n = 0 ∧ dataAddress s kind n va = .ok (pa, c)

/-- The bytes the external agent has at an address once the buffered writes have been sent: memory's, or a device's (spec/20_memory.md
R141, R142). That a read waits for those writes is the choice `ReadsDrainWriteBuffer` = true (R173, log entry 42). -/
def answerBytes (s : State) (pa : PAddr) (n : Nat) : List Byte :=
  physReadBytes s.physMap (drainAll s).mem s.inp.dataResponse.device pa.toNat n

/-- A byte of memory once the buffered writes have been sent. -/
def sentByte (s : State) (a : Nat) : Byte := memRead (drainAll s).mem a

/-- Once the buffered writes have been sent, memory holds `bs` from the physical address on, where the physical map has plain memory, and is
elsewhere as it was. -/
def StoredInMemory (pa : PAddr) (bs : List Byte) (s t : State) : Prop :=
  (∀ k, (h : k < bs.length) → sentByte t ((pa.toNat + k) % memSize) =
    if kindAt s.physMap ((pa.toNat + k) % memSize) = .memory then bs[k] else sentByte s ((pa.toNat + k) % memSize)) ∧
  ∀ a, (∀ k < bs.length, (pa.toNat + k) % memSize ≠ a) → sentByte t a = sentByte s a

/-- The `n` oldest buffered writes have been sent: the bus has seen them, memory holds them, and nothing else has gone out. -/
def SentFirst (n : Nat) (s t : State) : Prop := t.bus = (drainSome n s).bus ∧ ∀ a, memRead t.mem a = memRead (drainSome n s).mem a

/-- One write request has been buffered behind the earlier ones, none of which is lost: the `n` oldest have been sent to make room, the
others are still in the buffer (spec/20_memory.md R172). -/
def Buffered (va : Dword) (pa : PAddr) (bs : List Byte) (s t : State) : Prop :=
  ∃ n, t.wb = s.wb.drop n ++ [.single pa (va.extractLsb' 12 2) bs] ∧ SentFirst n s t

/-- Nothing has been sent to memory or buffered for it. -/
def SameOutside (s t : State) : Prop := t.wb = s.wb ∧ ∀ a, memRead t.mem a = memRead s.mem a

/-! ## Cache lines -/

/-- Exactly one line of the data cache has changed, to `l`; of the FIFO bit of its set nothing is said. -/
structure PutDLine (i : Nat) (way : Bool) (l : DLine) (s t : State) : Prop where
  line : dwayOf (dsetAt t i) way = l
  other : dwayOf (dsetAt t i) (!way) = dwayOf (dsetAt s i) (!way)
  sets : ∀ j, j ≠ i → dsetAt t j = dsetAt s j

/-- Exactly one line of the data cache has changed, to `l`, and nothing else of it, the FIFO bit of the set included. -/
structure OnlyDLine (i : Nat) (way : Bool) (l : DLine) (s t : State) : Prop extends PutDLine i way l s t where
  fifo : (dsetAt t i).fifo = (dsetAt s i).fifo

/-- Exactly one line of the instruction cache has changed, to `l`; of the FIFO bit of its set nothing is said. -/
structure PutILine (i : Nat) (way : Bool) (l : ILine) (s t : State) : Prop where
  line : iwayOf (isetAt t i) way = l
  other : iwayOf (isetAt t i) (!way) = iwayOf (isetAt s i) (!way)
  sets : ∀ j, j ≠ i → isetAt t j = isetAt s j

/-- Exactly one line of the instruction cache has changed, to `l`, and nothing else of it, the FIFO bit of the set included. -/
structure OnlyILine (i : Nat) (way : Bool) (l : ILine) (s t : State) : Prop extends PutILine i way l s t where
  fifo : (isetAt t i).fifo = (isetAt s i).fifo

/-- The data cache is as before. -/
def SameDCache (s t : State) : Prop := ∀ j, dsetAt t j = dsetAt s j
/-- The instruction cache is as before. -/
def SameICache (s t : State) : Prop := ∀ j, isetAt t j = isetAt s j
/-- The secondary cache is as before. -/
def SameSCache (s t : State) : Prop := ∀ j, slineAt t j = slineAt s j

/-- What a line leaving the data cache does to the link: broken if the line held the link address (spec/20_memory.md R181). -/
def LinkBroken (l : DLine) (i : Nat) (s t : State) : Prop :=
  t.linkAddr = s.linkAddr ∧ t.linkKnown = s.linkKnown ∧
    t.llBit = (s.llBit && !(dvalid l && lineOf s.linkAddr == lineAddress l.tag i))

/-- A line leaving the data cache goes to memory if it is valid and modified: it stands in the write buffer with its check bits, behind
everything else; else nothing is sent (spec/20_memory.md R190, spec/49_system_interface.md R721). -/
def WrittenBack (l : DLine) (i : Nat) (s t : State) : Prop :=
  if dvalid l && l.w then
    StoredInMemory (lineAddress l.tag i) (lineBytes l.data 0 32) s t ∧
      ∃ vi retained, t.wb = [.block (lineAddress l.tag i) vi retained l.wbPage (lineBytes l.data 0 32) l.par]
  else SameOutside s t

/-- What that does to the secondary cache before the line itself is sent: the entries buffered before it have been sent; else nothing. -/
def SecondaryWrittenBack (l : DLine) (s t : State) : Prop :=
  if dvalid l && l.w then SameSCache (drainAll s) t else SameSCache s t

/-- An access finds a line of the data cache: no tag it compares has wrong parity, and its line's check bits are right. -/
def LineHeld (s : State) (va : Dword) (pa : PAddr) (way : Bool) (l : DLine) : Prop :=
  s.inp.dataResponse.tagError = false ∧ dsetBad (dsetAt s (setIndex va)) = false ∧
    dhit (dsetAt s (setIndex va)) (primaryTag pa) = some way ∧ l = dwayOf (dsetAt s (setIndex va)) way ∧ badBytes l.data l.par = 0

/-- An access finds no line; the tags it compares are right. -/
def NoLine (s : State) (va : Dword) (pa : PAddr) : Prop :=
  s.inp.dataResponse.tagError = false ∧ dsetBad (dsetAt s (setIndex va)) = false ∧ dhit (dsetAt s (setIndex va)) (primaryTag pa) = none

/-- A block read is answered with the line `d`: by the secondary cache if it takes part and holds the line, without an error in the
doubleword asked for; else by the external agent, with good data (spec/49_system_interface.md R701, R720). -/
def BlockAnswered (s : State) (pa : PAddr) (c : BitVec 3) (d : LineData) : Prop :=
  let l := slineAt (drainAll s) (scacheIndex s.boot pa)
  if scacheInUse s (seen .data s).cp0 c = true ∧ l.valid = true ∧ l.tag = scacheTag pa then
    d = (l.data, l.par) ∧ badBytes l.data l.par &&& byteMask (8 * (lineOffset pa / 8)) 8 = 0
  else GoodAnswer s.inp.dataResponse ∧ d.1 = lineOfBytes (answerBytes s (lineOf pa) 32) ∧ d.2 = linePar d.1

/-- A block read answered with `d` has left it in the secondary cache, if that takes part (R194, R720). -/
def SecondaryFilled (pa : PAddr) (c : BitVec 3) (d : LineData) (s t : State) : Prop :=
  ∀ j, slineAt t j = if scacheInUse s (seen .data s).cp0 c = true ∧ j = scacheIndex s.boot pa then ⟨true, scacheTag pa, d.1, d.2⟩
    else slineAt (drainAll s) j

/-- The line a refill replaces: `old`, in the way the FIFO bit names, the model's reading of FIFO refill (log entry 13); it is not modified
with wrong parity. -/
def Victim (s : State) (va : Dword) (old : DLine) : Prop :=
  old = dwayOf (dsetAt s (setIndex va)) (dsetAt s (setIndex va)).fifo ∧ ((dvalid old && old.w) = true → badBytes old.data old.par = 0)

/-- The line `d` has been brought in over `old` (spec/20_memory.md R190, R191, R193): Dirty Exclusive and unmodified, its tag right, the FIFO
bit flipped; `old` has gone to memory if it was modified. -/
structure LineFilled (va : Dword) (pa : PAddr) (c : BitVec 3) (old : DLine) (d : LineData) (s t : State) : Prop where
  line : ∃ l, l.data = d.1 ∧ l.par = d.2 ∧ l.state = 3 ∧ l.tag = primaryTag pa ∧ l.w = false ∧ dtagBad l = false ∧
    PutDLine (setIndex va) (dsetAt s (setIndex va)).fifo l s t
  fifo : (dsetAt t (setIndex va)).fifo = !(dsetAt s (setIndex va)).fifo
  memory : WrittenBack old (setIndex va) (drainAll s) t
  secondary : SecondaryFilled pa c d s t
  icache : SameICache s t
  map : t.physMap = s.physMap ∧ t.boot = s.boot

/-- The line with the bytes from offset `o` on replaced, as the store of `bs` leaves it; the other bytes are kept. -/
def StoredInLine (o : Nat) (bs : List Byte) (old new : BitVec 256) : Prop :=
  (∀ k, (h : k < bs.length) → lineByte new (o + k) = bs[k]) ∧ ∀ k < 32, (k < o ∨ o + bs.length ≤ k) → lineByte new k = lineByte old k

/-- The check bits after a store of `n` bytes at offset `o`: those bytes' even parity, or their bits of ECC while Status.CE is set
(spec/10_state.md R80; the order of the bits of ECC is the model's choice, log entry 52); the other bytes' bits are kept. -/
def StoredPar (bigEndian : Bool) (cp : Cp0) (o n : Nat) (old new : DLine) : Prop :=
  ∀ k < 32, new.par.getLsbD k =
    if o ≤ k ∧ k < o + n then
      if cp.status.ce then cp.ecc.getLsbD (if bigEndian then 7 - k % 8 else k % 8) else parityOf (lineByte new.data k) 8
    else old.par.getLsbD k

/-- A store into the line of a way, with CP0 as the store sees it (spec/20_memory.md R191, Table 8.2, R193): a write-back store marks it
modified and sends nothing, a write-through store goes to memory too, past the secondary cache, and does not mark it. The tag's parity is
right. -/
def StoredHeld (cp : Cp0) (va : Dword) (pa : PAddr) (c : BitVec 3) (way : Bool) (bs : List Byte) (s t : State) : Prop :=
  let l := dwayOf (dsetAt s (setIndex va)) way
  ∃ l', OnlyDLine (setIndex va) way l' s t ∧ StoredInLine (lineOffset pa) bs l.data l'.data ∧
    StoredPar s.boot.bigEndianMem cp (lineOffset pa) bs.length l l' ∧ l'.state = 3 ∧ l'.tag = l.tag ∧ dtagBad l' = false ∧
    SameICache s t ∧
    if c = 3 then l'.w = true ∧ SameOutside s t ∧ SameSCache s t
    else l'.w = l.w ∧ Buffered va pa bs s t ∧ StoredInMemory pa bs s t ∧ SameSCache (drainAll s) (drainAll t)

/-! ## What loads and stores do, by attribute, hit and miss -/

/-- The link after a load: set by a linked one, else as `kept` says (spec/40_loads_stores.md R285). -/
def LinkAfter (linked : Bool) (pa : PAddr) (kept : Prop) (t : State) : Prop :=
  if linked then t.llBit = true ∧ t.linkAddr = pa ∧ t.linkKnown = true else kept

/-- An uncached load answered with good data delivers the agent's bytes and leaves memory as sending the buffered writes does. -/
def UncachedLoad (pa : PAddr) (n : Nat) (reg : List Byte → State → Prop) (s : State) (r : Result) : Prop :=
  GoodAnswer s.inp.dataResponse → ∃ t, r = .next t ∧ reg (answerBytes s pa n) t ∧ SameMemory (drainAll s) t ∧ SameLink s t

/-- A cached load that hits delivers the line's bytes and changes nothing. -/
def LoadHit (linked : Bool) (va : Dword) (pa : PAddr) (n : Nat) (reg : List Byte → State → Prop) (s : State) (r : Result) : Prop :=
  ∀ way l, LineHeld s va pa way l →
    ∃ t, r = .next t ∧ reg (lineBytes l.data (lineOffset pa) n) t ∧ SameMemory s t ∧ LinkAfter linked pa (SameLink s t) t

/-- A cached load that misses brings the line in and delivers its bytes. -/
def LoadMiss (linked : Bool) (va : Dword) (pa : PAddr) (c : BitVec 3) (n : Nat) (reg : List Byte → State → Prop) (s : State)
    (r : Result) : Prop :=
  ∀ old d, NoLine s va pa → Victim s va old → BlockAnswered s pa c d →
    ∃ t, r = .next t ∧ reg (lineBytes d.1 (lineOffset pa) n) t ∧ LineFilled va pa c old d s t ∧
      LinkAfter linked pa (LinkBroken old (setIndex va) s t) t

/-- An uncached store is one write request of its own size and address behind the earlier ones (spec/20_memory.md R172, R192). -/
def UncachedStore (va : Dword) (pa : PAddr) (bs : List Byte) (rest : State → Prop) (s : State) (r : Result) : Prop :=
  ∃ t, r = .next t ∧ rest t ∧ StoredInMemory pa bs s t ∧ Buffered va pa bs s t ∧ SameDCache s t ∧ SameICache s t ∧
    SameSCache (drainAll s) (drainAll t) ∧ SameLink s t

/-- A cached store that hits stores into the line. -/
def StoreHit (va : Dword) (pa : PAddr) (c : BitVec 3) (bs : List Byte) (rest : State → Prop) (s : State) (r : Result) : Prop :=
  ∀ way l, LineHeld s va pa way l → ∃ t, r = .next t ∧ rest t ∧ StoredHeld (seen .data s).cp0 va pa c way bs s t ∧
    SameLink s t

/-- A cached store that misses (Table 8.2): with attribute 0 it goes to memory alone; else the line is brought in, giving the state `u`,
and stored into. -/
def StoreMiss (va : Dword) (pa : PAddr) (c : BitVec 3) (bs : List Byte) (rest : State → Prop) (s : State) (r : Result) : Prop :=
  (c = 0 → NoLine s va pa → UncachedStore va pa bs rest s r) ∧
  ∀ old d, c ≠ 0 → NoLine s va pa → Victim s va old → BlockAnswered s pa c d →
    ∃ t u, r = .next t ∧ rest t ∧ u.cp0 = s.cp0 ∧ LineFilled va pa c old d s u ∧
      StoredHeld (seen .data s).cp0 va pa c (dsetAt s (setIndex va)).fifo bs u t ∧ LinkBroken old (setIndex va) s t

/-- Everything but memory, caches, the buffer and the link is as before, and control went on. -/
structure StoreRest (s t : State) : Prop where
  cpu : SameCpu s t
  fpu : SameFpu s t
  cp0 : t.cp0 = s.cp0
  tlb : t.tlb = s.tlb
  platform : SamePlatform s t
  control : WentOn s t

/-- The register effect of a load of a general register; a linked one also writes LLAddr. -/
structure LoadsGpr (r : RegNum) (v : Dword) (linked : Bool) (pa : PAddr) (s t : State) : Prop where
  gpr : ∀ q, readGpr t q = if q = r ∧ q ≠ 0 then v else readGpr s q
  hiLo : t.hi = s.hi ∧ t.lo = s.lo
  fpu : SameFpu s t
  cp0 : t.cp0 = if linked then { s.cp0 with llAddr := pa.extractLsb' 4 32 } else s.cp0
  tlb : t.tlb = s.tlb
  platform : SamePlatform s t
  control : WentOn s t

/-- The register a load delivers its bytes to. -/
def LoadForm.delivers (f : LoadForm) (pa : PAddr) (s : State) (bs : List Byte) (t : State) : Prop :=
  LoadsGpr f.rt (loadedValue f.signed f.n (natOfBytes s.boot.bigEndianMem bs)) f.linked pa s t

/-- The register a left or right load merges its bytes into. -/
def PartForm.delivers (f : PartForm) (s : State) (bs : List Byte) (t : State) : Prop :=
  LoadsGpr f.rt (mergedValue s.boot.bigEndianMem f.left f.size (readGpr s f.rt) bs) false 0 s t

/-! ## Coprocessors and gates (spec/30_encoding.md R236, R237) -/

/-- The instructions of coprocessor 0. -/
def usesCop0 : Instr → Bool
  | .mfc0 _ _ | .mtc0 _ _ | .dmfc0 _ _ | .dmtc0 _ _ | .cacheIIndexInvalidate _ _ | .cacheIIndexLoadTag _ _
  | .cacheIIndexStoreTag _ _ | .cacheIHitInvalidate _ _ | .cacheIFill _ _ | .cacheIHitWriteback _ _
  | .cacheDIndexWritebackInvalidate _ _ | .cacheDIndexLoadTag _ _ | .cacheDIndexStoreTag _ _
  | .cacheDCreateDirtyExclusive _ _ | .cacheDHitInvalidate _ _ | .cacheDHitWritebackInvalidate _ _
  | .cacheDHitWriteback _ _ | .cacheSValidClear _ _ | .cacheSIndexLoadTag _ _ | .cacheSIndexStoreTag _ _
  | .cacheSCachePageInvalidate _ _ | .tlbr | .tlbwi | .tlbwr | .tlbp | .eret | .wait => true
  | _ => false

/-- The instructions of coprocessor 1, and MOVF and MOVT, which read a condition bit. -/
def usesCop1 : Instr → Bool
  | .movf _ _ _ | .movt _ _ _ | .lwc1 _ _ _ | .ldc1 _ _ _ | .swc1 _ _ _ | .sdc1 _ _ _ | .lwxc1 _ _ _ | .ldxc1 _ _ _
  | .swxc1 _ _ _ | .sdxc1 _ _ _ | .mfc1 _ _ | .mtc1 _ _ | .dmfc1 _ _ | .dmtc1 _ _ | .cfc1 _ _ | .ctc1 _ _ | .movS _ _
  | .movD _ _ | .movfS _ _ _ | .movtS _ _ _ | .movzS _ _ _ | .movnS _ _ _ | .movfD _ _ _ | .movtD _ _ _ | .movzD _ _ _
  | .movnD _ _ _ | .addS _ _ _ | .addD _ _ _ | .subS _ _ _ | .subD _ _ _ | .mulS _ _ _ | .mulD _ _ _ | .divS _ _ _
  | .divD _ _ _ | .sqrtS _ _ | .sqrtD _ _ | .absS _ _ | .absD _ _ | .negS _ _ | .negD _ _ | .recipS _ _ | .recipD _ _
  | .rsqrtS _ _ | .rsqrtD _ _ | .maddS _ _ _ _ | .maddD _ _ _ _ | .msubS _ _ _ _ | .msubD _ _ _ _ | .nmaddS _ _ _ _
  | .nmaddD _ _ _ _ | .nmsubS _ _ _ _ | .nmsubD _ _ _ _ | .roundWS _ _ | .roundWD _ _ | .truncWS _ _ | .truncWD _ _
  | .ceilWS _ _ | .ceilWD _ _ | .floorWS _ _ | .floorWD _ _ | .cvtWS _ _ | .cvtWD _ _ | .roundLS _ _ | .roundLD _ _
  | .truncLS _ _ | .truncLD _ _ | .ceilLS _ _ | .ceilLD _ _ | .floorLS _ _ | .floorLD _ _ | .cvtLS _ _ | .cvtLD _ _
  | .cvtSD _ _ | .cvtSW _ _ | .cvtSL _ _ | .cvtDS _ _ | .cvtDW _ _ | .cvtDL _ _ | .cFS _ _ _ | .cFD _ _ _ | .cUnS _ _ _
  | .cUnD _ _ _ | .cEqS _ _ _ | .cEqD _ _ _ | .cUeqS _ _ _ | .cUeqD _ _ _ | .cOltS _ _ _ | .cOltD _ _ _ | .cUltS _ _ _
  | .cUltD _ _ _ | .cOleS _ _ _ | .cOleD _ _ _ | .cUleS _ _ _ | .cUleD _ _ _ | .cSfS _ _ _ | .cSfD _ _ _ | .cNgleS _ _ _
  | .cNgleD _ _ _ | .cSeqS _ _ _ | .cSeqD _ _ _ | .cNglS _ _ _ | .cNglD _ _ _ | .cLtS _ _ _ | .cLtD _ _ _ | .cNgeS _ _ _
  | .cNgeD _ _ _ | .cLeS _ _ _ | .cLeD _ _ _ | .cNgtS _ _ _ | .cNgtD _ _ _ | .bc1f _ _ | .bc1t _ _ | .bc1fl _ _
  | .bc1tl _ _ | .prefx => true
  | _ => false

/-- The 64-bit operations. -/
def isWide : Instr → Bool
  | .lwu _ _ _ | .ld _ _ _ | .sd _ _ _ | .ldl _ _ _ | .ldr _ _ _ | .sdl _ _ _ | .sdr _ _ _ | .lld _ _ _ | .scd _ _ _
  | .daddi _ _ _ | .daddiu _ _ _ | .dadd _ _ _ | .daddu _ _ _ | .dsub _ _ _ | .dsubu _ _ _ | .dsll _ _ _ | .dsrl _ _ _
  | .dsra _ _ _ | .dsll32 _ _ _ | .dsrl32 _ _ _ | .dsra32 _ _ _ | .dsllv _ _ _ | .dsrlv _ _ _ | .dsrav _ _ _
  | .dmult _ _ | .dmultu _ _ | .ddiv _ _ | .ddivu _ _ | .dmfc0 _ _ | .dmtc0 _ _ | .dmfc1 _ _ | .dmtc1 _ _ => true
  | _ => false

/-- The MIPS IV instructions, among them compares and branches that name another condition bit than 0. -/
def isMips4 : Instr → Bool
  | .cFS cc _ _ => cc != 0
  | .cFD cc _ _ => cc != 0
  | .cUnS cc _ _ => cc != 0
  | .cUnD cc _ _ => cc != 0
  | .cEqS cc _ _ => cc != 0
  | .cEqD cc _ _ => cc != 0
  | .cUeqS cc _ _ => cc != 0
  | .cUeqD cc _ _ => cc != 0
  | .cOltS cc _ _ => cc != 0
  | .cOltD cc _ _ => cc != 0
  | .cUltS cc _ _ => cc != 0
  | .cUltD cc _ _ => cc != 0
  | .cOleS cc _ _ => cc != 0
  | .cOleD cc _ _ => cc != 0
  | .cUleS cc _ _ => cc != 0
  | .cUleD cc _ _ => cc != 0
  | .cSfS cc _ _ => cc != 0
  | .cSfD cc _ _ => cc != 0
  | .cNgleS cc _ _ => cc != 0
  | .cNgleD cc _ _ => cc != 0
  | .cSeqS cc _ _ => cc != 0
  | .cSeqD cc _ _ => cc != 0
  | .cNglS cc _ _ => cc != 0
  | .cNglD cc _ _ => cc != 0
  | .cLtS cc _ _ => cc != 0
  | .cLtD cc _ _ => cc != 0
  | .cNgeS cc _ _ => cc != 0
  | .cNgeD cc _ _ => cc != 0
  | .cLeS cc _ _ => cc != 0
  | .cLeD cc _ _ => cc != 0
  | .cNgtS cc _ _ => cc != 0
  | .cNgtD cc _ _ => cc != 0
  | .bc1f cc _ => cc != 0
  | .bc1t cc _ => cc != 0
  | .bc1fl cc _ => cc != 0
  | .bc1tl cc _ => cc != 0
  | .pref _ _ _ | .movn _ _ _ | .movz _ _ _ | .movf _ _ _ | .movt _ _ _ | .lwxc1 _ _ _ | .ldxc1 _ _ _ | .swxc1 _ _ _
  | .sdxc1 _ _ _ | .movfS _ _ _ | .movtS _ _ _ | .movzS _ _ _ | .movnS _ _ _ | .movfD _ _ _ | .movtD _ _ _
  | .movzD _ _ _ | .movnD _ _ _ | .recipS _ _ | .recipD _ _ | .rsqrtS _ _ | .rsqrtD _ _ | .maddS _ _ _ _
  | .maddD _ _ _ _ | .msubS _ _ _ _ | .msubD _ _ _ _ | .nmaddS _ _ _ _ | .nmaddD _ _ _ _ | .nmsubS _ _ _ _
  | .nmsubD _ _ _ _ | .prefx => true
  | _ => false

/-- Coprocessor 1 is usable. -/
def Cp1Ok (s : State) : Prop := (seen .usable s).cp0.status.cu.getLsbD 1 = true
/-- MIPS IV instructions execute. -/
def Mips4Ok (s : State) : Prop := mips4 (seen .usable s).cp0.status = true
/-- Coprocessor 0 is usable. -/
def Cp0Ok (s : State) : Prop := cp0Usable (seen .usable s).cp0.status = true
/-- These floating-point registers may be named: any while FR = 1, even ones while FR = 0. -/
def FprsOk (ns : List RegNum) (s : State) : Prop := frSeen s = true ∨ ∀ n ∈ ns, n.getLsbD 0 = false

/-! ## Floating-point operations (spec/47_fpu_arith.md) -/

/-- A floating-point operation: the destination and its format, the registers it names, its exceptions and default result. -/
structure FpForm where
  f : Fmt
  fd : RegNum
  srcs : List RegNum
  out : FpOut
  mips4 : Bool

/-- The computational and conversion instructions (R580 to R612). -/
def fpForm (s : State) : Instr → Option FpForm
  | .addS fd fs ft => some ⟨.S, fd, [fs, ft], fpAdd .S s.fcr31 (readFpr .S s fs) (readFpr .S s ft), false⟩
  | .addD fd fs ft => some ⟨.D, fd, [fs, ft], fpAdd .D s.fcr31 (readFpr .D s fs) (readFpr .D s ft), false⟩
  | .subS fd fs ft => some ⟨.S, fd, [fs, ft], fpSub .S s.fcr31 (readFpr .S s fs) (readFpr .S s ft), false⟩
  | .subD fd fs ft => some ⟨.D, fd, [fs, ft], fpSub .D s.fcr31 (readFpr .D s fs) (readFpr .D s ft), false⟩
  | .mulS fd fs ft => some ⟨.S, fd, [fs, ft], fpMul .S s.fcr31 (readFpr .S s fs) (readFpr .S s ft), false⟩
  | .mulD fd fs ft => some ⟨.D, fd, [fs, ft], fpMul .D s.fcr31 (readFpr .D s fs) (readFpr .D s ft), false⟩
  | .divS fd fs ft => some ⟨.S, fd, [fs, ft], fpDiv .S s.fcr31 (readFpr .S s fs) (readFpr .S s ft), false⟩
  | .divD fd fs ft => some ⟨.D, fd, [fs, ft], fpDiv .D s.fcr31 (readFpr .D s fs) (readFpr .D s ft), false⟩
  | .sqrtS fd fs => some ⟨.S, fd, [fs], fpSqrt .S s.fcr31 (readFpr .S s fs), false⟩
  | .sqrtD fd fs => some ⟨.D, fd, [fs], fpSqrt .D s.fcr31 (readFpr .D s fs), false⟩
  | .absS fd fs => some ⟨.S, fd, [fs], fpAbs .S (readFpr .S s fs), false⟩
  | .absD fd fs => some ⟨.D, fd, [fs], fpAbs .D (readFpr .D s fs), false⟩
  | .negS fd fs => some ⟨.S, fd, [fs], fpNeg .S (readFpr .S s fs), false⟩
  | .negD fd fs => some ⟨.D, fd, [fs], fpNeg .D (readFpr .D s fs), false⟩
  | .recipS fd fs =>
    some ⟨.S, fd, [fs], fpRecip .S s.fcr31 (readFpr .S s fs) (freeAt s 0).toNat (freeBitAt s 1), true⟩
  | .recipD fd fs =>
    some ⟨.D, fd, [fs], fpRecip .D s.fcr31 (readFpr .D s fs) (freeAt s 0).toNat (freeBitAt s 1), true⟩
  | .rsqrtS fd fs =>
    some ⟨.S, fd, [fs], fpRsqrt .S s.fcr31 (readFpr .S s fs) (freeAt s 0).toNat (freeBitAt s 1), true⟩
  | .rsqrtD fd fs =>
    some ⟨.D, fd, [fs], fpRsqrt .D s.fcr31 (readFpr .D s fs) (freeAt s 0).toNat (freeBitAt s 1), true⟩
  | .maddS fd fr fs ft =>
    some ⟨.S, fd, [fr, fs, ft], fpMulAdd .S s.fcr31 false false (readFpr .S s fr) (readFpr .S s fs) (readFpr .S s ft), true⟩
  | .maddD fd fr fs ft =>
    some ⟨.D, fd, [fr, fs, ft], fpMulAdd .D s.fcr31 false false (readFpr .D s fr) (readFpr .D s fs) (readFpr .D s ft), true⟩
  | .msubS fd fr fs ft =>
    some ⟨.S, fd, [fr, fs, ft], fpMulAdd .S s.fcr31 true false (readFpr .S s fr) (readFpr .S s fs) (readFpr .S s ft), true⟩
  | .msubD fd fr fs ft =>
    some ⟨.D, fd, [fr, fs, ft], fpMulAdd .D s.fcr31 true false (readFpr .D s fr) (readFpr .D s fs) (readFpr .D s ft), true⟩
  | .nmaddS fd fr fs ft =>
    some ⟨.S, fd, [fr, fs, ft], fpMulAdd .S s.fcr31 false true (readFpr .S s fr) (readFpr .S s fs) (readFpr .S s ft), true⟩
  | .nmaddD fd fr fs ft =>
    some ⟨.D, fd, [fr, fs, ft], fpMulAdd .D s.fcr31 false true (readFpr .D s fr) (readFpr .D s fs) (readFpr .D s ft), true⟩
  | .nmsubS fd fr fs ft =>
    some ⟨.S, fd, [fr, fs, ft], fpMulAdd .S s.fcr31 true true (readFpr .S s fr) (readFpr .S s fs) (readFpr .S s ft), true⟩
  | .nmsubD fd fr fs ft =>
    some ⟨.D, fd, [fr, fs, ft], fpMulAdd .D s.fcr31 true true (readFpr .D s fr) (readFpr .D s fs) (readFpr .D s ft), true⟩
  | .roundWS fd fs => some ⟨.S, fd, [fs], fpToW .S 0 (readFpr .S s fs), false⟩
  | .roundWD fd fs => some ⟨.S, fd, [fs], fpToW .D 0 (readFpr .D s fs), false⟩
  | .truncWS fd fs => some ⟨.S, fd, [fs], fpToW .S 1 (readFpr .S s fs), false⟩
  | .truncWD fd fs => some ⟨.S, fd, [fs], fpToW .D 1 (readFpr .D s fs), false⟩
  | .ceilWS fd fs => some ⟨.S, fd, [fs], fpToW .S 2 (readFpr .S s fs), false⟩
  | .ceilWD fd fs => some ⟨.S, fd, [fs], fpToW .D 2 (readFpr .D s fs), false⟩
  | .floorWS fd fs => some ⟨.S, fd, [fs], fpToW .S 3 (readFpr .S s fs), false⟩
  | .floorWD fd fs => some ⟨.S, fd, [fs], fpToW .D 3 (readFpr .D s fs), false⟩
  | .cvtWS fd fs => some ⟨.S, fd, [fs], fpToW .S s.fcr31.rm (readFpr .S s fs), false⟩
  | .cvtWD fd fs => some ⟨.S, fd, [fs], fpToW .D s.fcr31.rm (readFpr .D s fs), false⟩
  | .roundLS fd fs => some ⟨.D, fd, [fs], fpToL .S 0 (readFpr .S s fs), false⟩
  | .roundLD fd fs => some ⟨.D, fd, [fs], fpToL .D 0 (readFpr .D s fs), false⟩
  | .truncLS fd fs => some ⟨.D, fd, [fs], fpToL .S 1 (readFpr .S s fs), false⟩
  | .truncLD fd fs => some ⟨.D, fd, [fs], fpToL .D 1 (readFpr .D s fs), false⟩
  | .ceilLS fd fs => some ⟨.D, fd, [fs], fpToL .S 2 (readFpr .S s fs), false⟩
  | .ceilLD fd fs => some ⟨.D, fd, [fs], fpToL .D 2 (readFpr .D s fs), false⟩
  | .floorLS fd fs => some ⟨.D, fd, [fs], fpToL .S 3 (readFpr .S s fs), false⟩
  | .floorLD fd fs => some ⟨.D, fd, [fs], fpToL .D 3 (readFpr .D s fs), false⟩
  | .cvtLS fd fs => some ⟨.D, fd, [fs], fpToL .S s.fcr31.rm (readFpr .S s fs), false⟩
  | .cvtLD fd fs => some ⟨.D, fd, [fs], fpToL .D s.fcr31.rm (readFpr .D s fs), false⟩
  | .cvtSD fd fs => some ⟨.S, fd, [fs], fpConvert .D .S s.fcr31 (readFpr .D s fs), false⟩
  | .cvtSW fd fs => some ⟨.S, fd, [fs], fpFromW .S s.fcr31 (readFpr .S s fs), false⟩
  | .cvtSL fd fs => some ⟨.S, fd, [fs], fpFromL .S s.fcr31 (readFpr .D s fs), false⟩
  | .cvtDS fd fs => some ⟨.D, fd, [fs], fpConvert .S .D s.fcr31 (readFpr .S s fs), false⟩
  | .cvtDW fd fs => some ⟨.D, fd, [fs], fpFromW .D s.fcr31 (readFpr .S s fs), false⟩
  | .cvtDL fd fs => some ⟨.D, fd, [fs], fpFromL .D s.fcr31 (readFpr .D s fs), false⟩
  | _ => none

/-- A compare: the format, the condition, the condition bit, the operands' registers. -/
structure CompareForm where
  f : Fmt
  cond : BitVec 4
  cc : BitVec 3
  fs : RegNum
  ft : RegNum

/-- The compares (R622 to R637). -/
def compareForm : Instr → Option CompareForm
  | .cFS cc fs ft => some ⟨.S, 0, cc, fs, ft⟩
  | .cFD cc fs ft => some ⟨.D, 0, cc, fs, ft⟩
  | .cUnS cc fs ft => some ⟨.S, 1, cc, fs, ft⟩
  | .cUnD cc fs ft => some ⟨.D, 1, cc, fs, ft⟩
  | .cEqS cc fs ft => some ⟨.S, 2, cc, fs, ft⟩
  | .cEqD cc fs ft => some ⟨.D, 2, cc, fs, ft⟩
  | .cUeqS cc fs ft => some ⟨.S, 3, cc, fs, ft⟩
  | .cUeqD cc fs ft => some ⟨.D, 3, cc, fs, ft⟩
  | .cOltS cc fs ft => some ⟨.S, 4, cc, fs, ft⟩
  | .cOltD cc fs ft => some ⟨.D, 4, cc, fs, ft⟩
  | .cUltS cc fs ft => some ⟨.S, 5, cc, fs, ft⟩
  | .cUltD cc fs ft => some ⟨.D, 5, cc, fs, ft⟩
  | .cOleS cc fs ft => some ⟨.S, 6, cc, fs, ft⟩
  | .cOleD cc fs ft => some ⟨.D, 6, cc, fs, ft⟩
  | .cUleS cc fs ft => some ⟨.S, 7, cc, fs, ft⟩
  | .cUleD cc fs ft => some ⟨.D, 7, cc, fs, ft⟩
  | .cSfS cc fs ft => some ⟨.S, 8, cc, fs, ft⟩
  | .cSfD cc fs ft => some ⟨.D, 8, cc, fs, ft⟩
  | .cNgleS cc fs ft => some ⟨.S, 9, cc, fs, ft⟩
  | .cNgleD cc fs ft => some ⟨.D, 9, cc, fs, ft⟩
  | .cSeqS cc fs ft => some ⟨.S, 10, cc, fs, ft⟩
  | .cSeqD cc fs ft => some ⟨.D, 10, cc, fs, ft⟩
  | .cNglS cc fs ft => some ⟨.S, 11, cc, fs, ft⟩
  | .cNglD cc fs ft => some ⟨.D, 11, cc, fs, ft⟩
  | .cLtS cc fs ft => some ⟨.S, 12, cc, fs, ft⟩
  | .cLtD cc fs ft => some ⟨.D, 12, cc, fs, ft⟩
  | .cNgeS cc fs ft => some ⟨.S, 13, cc, fs, ft⟩
  | .cNgeD cc fs ft => some ⟨.D, 13, cc, fs, ft⟩
  | .cLeS cc fs ft => some ⟨.S, 14, cc, fs, ft⟩
  | .cLeD cc fs ft => some ⟨.D, 14, cc, fs, ft⟩
  | .cNgtS cc fs ft => some ⟨.S, 15, cc, fs, ft⟩
  | .cNgtD cc fs ft => some ⟨.D, 15, cc, fs, ft⟩
  | _ => none

/-- The value of a finite pattern: `(-1)^s * m * 2^e` (R571). -/
def fpValue (f : Fmt) (v : Dword) : ℚ :=
  (if fpSign f v then -1 else 1) * (fpMagnitude f v).1 * (2 : ℚ) ^ (fpMagnitude f v).2

/-- A finite number: a zero or a normalized or denormalized one. -/
def fpFinite (f : Fmt) (v : Dword) : Prop := fpExp f v ≠ f.expMax

/-- The finite pattern `v` is what the exact value `r` rounds to: the nearest number, of two equally near ones that with an even fraction;
the nearest one toward zero; the least one above; the greatest one below, by RM (spec/10_state.md R110). -/
def RoundsTo (f : Fmt) (rm : BitVec 2) (v : Dword) (r : ℝ) : Prop :=
  fpFinite f v ∧
  (rm = 0 → ∀ c, fpFinite f c → |(fpValue f v : ℝ) - r| ≤ |(fpValue f c : ℝ) - r| ∧
    (fpValue f c ≠ fpValue f v → |(fpValue f v : ℝ) - r| = |(fpValue f c : ℝ) - r| → fpFrac f v % 2 = 0)) ∧
  (rm = 1 → 0 ≤ (fpValue f v : ℝ) * r ∧ |(fpValue f v : ℝ)| ≤ |r| ∧
    ∀ c, fpFinite f c → |(fpValue f c : ℝ)| ≤ |r| → |fpValue f c| ≤ |fpValue f v|) ∧
  (rm = 2 → r ≤ (fpValue f v : ℝ) ∧ ∀ c, fpFinite f c → r ≤ (fpValue f c : ℝ) → fpValue f v ≤ fpValue f c) ∧
  (rm = 3 → (fpValue f v : ℝ) ≤ r ∧ ∀ c, fpFinite f c → (fpValue f c : ℝ) ≤ r → fpValue f c ≤ fpValue f v)

/-- The integer `n` is what `r` rounds to (spec/10_state.md R110, spec/47_fpu_arith.md R600). -/
def RoundsToInt (rm : BitVec 2) (n : ℤ) (r : ℚ) : Prop :=
  (rm = 0 → |n - r| ≤ 1 / 2 ∧ (|n - r| = 1 / 2 → n % 2 = 0)) ∧ (rm = 1 → 0 ≤ n * r ∧ |(n : ℚ)| ≤ |r| ∧ |r| < |(n : ℚ)| + 1) ∧
    (rm = 2 → r ≤ n ∧ n < r + 1) ∧ (rm = 3 → n ≤ r ∧ r < n + 1)

/-- A number of `p` binary digits, its exponent without bounds (spec/47_fpu_arith.md R575 (c)). -/
def Digits (p : ℕ) (y : ℝ) : Prop := ∃ n e : ℤ, |n| < 2 ^ p ∧ y = n * (2 : ℝ) ^ e

/-- The number `y` is what the exact value `r` rounds to, to the precision of the format with unbounded exponent: the nearest, of two
equally near ones that with an even last digit; the nearest toward zero; the least one above; the greatest one below, by RM (R575 (c),
spec/10_state.md R110). -/
def RoundsFree (f : Fmt) (rm : BitVec 2) (y r : ℝ) : Prop :=
  Digits f.prec y ∧
  (rm = 0 → ∀ c, Digits f.prec c → |y - r| ≤ |c - r| ∧ (c ≠ y → |y - r| = |c - r| → Digits f.frac y)) ∧
  (rm = 1 → 0 ≤ y * r ∧ |y| ≤ |r| ∧ ∀ c, Digits f.prec c → |c| ≤ |r| → |c| ≤ |y|) ∧
  (rm = 2 → r ≤ y ∧ ∀ c, Digits f.prec c → r ≤ c → y ≤ c) ∧
  (rm = 3 → y ≤ r ∧ ∀ c, Digits f.prec c → c ≤ r → c ≤ y)

/-- `MinNorm` of a format (R571). -/
def minNormal (f : Fmt) : ℚ := 2 ^ (1 - f.bias : ℤ)
/-- `MaxFinite` of a format (R571). -/
def maxFinite (f : Fmt) : ℚ := (2 ^ f.prec - 1) * 2 ^ (f.bias - f.frac : ℤ)

/-- The pattern `v` is of this kind and sign. -/
def KindSign (f : Fmt) (k : FpKind) (neg : Bool) (v : Dword) : Prop := fpKind f v = k ∧ fpSign f v = neg

/-- The result of an overflow: infinity, but the largest finite number where the mode rounds toward zero on its side
(spec/48_fpu_exceptions.md R656). -/
def Overflowed (f : Fmt) (rm : BitVec 2) (neg : Bool) (v : Dword) : Prop :=
  if rm = 0 ∨ (rm = 2 ∧ neg = false) ∨ (rm = 3 ∧ neg = true) then KindSign f .infinity neg v
  else KindSign f .normal neg v ∧ |fpValue f v| = maxFinite f

/-- The result of a flushed underflow: zero, but the smallest normalized number where the mode rounds away from zero on its side (R657). -/
def Flushed (f : Fmt) (rm : BitVec 2) (neg : Bool) (v : Dword) : Prop :=
  if (rm = 2 ∧ neg = false) ∨ (rm = 3 ∧ neg = true) then KindSign f .normal neg v ∧ |fpValue f v| = minNormal f
  else KindSign f .zero neg v

/-- What an operation gives whose rounded result, with unbounded exponent, is `y` (R575 (d) to (f), spec/48_fpu_exceptions.md R656 to R658):
a zero; a normalized number, Inexact if and only if `inexact`; an overflow; a tiny result, Unimplemented Operation or flushed. -/
structure OutcomeOf (f : Fmt) (t : Fcr31) (y : ℝ) (inexact : Prop) (o : FpOut) : Prop where
  zero : y = 0 → o.x = 0 ∧ fpKind f o.value = .zero
  normal : (minNormal f : ℝ) ≤ |y| → |y| ≤ (maxFinite f : ℝ) →
    (o.x = 0 ∧ ¬inexact ∨ o.x = xI ∧ inexact) ∧ fpKind f o.value = .normal ∧ (fpValue f o.value : ℝ) = y
  overflow : (maxFinite f : ℝ) < |y| → o.x = xOI ∧ ∃ neg, (neg = true ↔ y < 0) ∧ Overflowed f t.rm neg o.value
  tiny : 0 < |y| → |y| < (minNormal f : ℝ) →
    if t.fs = true ∧ t.enables.getLsbD 1 = false ∧ t.enables.getLsbD 0 = false then
      o.x = xUI ∧ ∃ neg, (neg = true ↔ y < 0) ∧ Flushed f t.rm neg o.value
    else o.x = xE

/-- An operand that is a zero or a normalized number. -/
def Ordinary (f : Fmt) (v : Dword) : Prop := fpKind f v = .zero ∨ fpKind f v = .normal

/-- The operations that round once, on zeros and normalized numbers, with the exact value of their result (spec/47_fpu_arith.md R580 to R586,
R611, R612). -/
inductive ExactResult (f : Fmt) (t : Fcr31) : FpOut → ℝ → Prop
  | add (a b : Dword) : Ordinary f a → Ordinary f b → ExactResult f t (fpAdd f t a b) (fpValue f a + fpValue f b)
  | sub (a b : Dword) : Ordinary f a → Ordinary f b → ExactResult f t (fpSub f t a b) (fpValue f a - fpValue f b)
  | mul (a b : Dword) : Ordinary f a → Ordinary f b → ExactResult f t (fpMul f t a b) (fpValue f a * fpValue f b)
  | div (a b : Dword) : Ordinary f a → fpKind f b = .normal → ExactResult f t (fpDiv f t a b) (fpValue f a / fpValue f b)
  | sqrt (a : Dword) : Ordinary f a → 0 ≤ fpValue f a → ExactResult f t (fpSqrt f t a) (Real.sqrt (fpValue f a))
  | abs (a : Dword) : Ordinary f a → ExactResult f t (fpAbs f a) |(fpValue f a : ℝ)|
  | neg (a : Dword) : Ordinary f a → ExactResult f t (fpNeg f a) (-(fpValue f a : ℝ))
  | convert (g : Fmt) (a : Dword) : Ordinary g a → ExactResult f t (fpConvert g f t a) (fpValue g a)
  | fromW (a : Dword) : ExactResult f t (fpFromW f t a) ((low32 a).toInt)
  | fromL (a : Dword) : -2 ^ 52 ≤ a.toInt → a.toInt ≤ 2 ^ 52 - 1 → ExactResult f t (fpFromL f t a) (a.toInt)

/-- An operation that signals nothing and delivers a pattern of this kind and sign. -/
def Delivers (f : Fmt) (o : FpOut) (k : FpKind) (neg : Bool) : Prop := o.x = 0 ∧ KindSign f k neg o.value

/-- Division by Zero alone, with an infinity of this sign (spec/48_fpu_exceptions.md R660). -/
def DividesByZero (f : Fmt) (o : FpOut) (neg : Bool) : Prop := o.x = xZ ∧ KindSign f .infinity neg o.value

/-- Invalid Operation alone, with the default quiet NaN (spec/48_fpu_exceptions.md R659; its pattern is log entry 40). -/
def IsInvalid (f : Fmt) (o : FpOut) : Prop := o.x = xV ∧ o.value = fpDefaultNaN f

/-- FCR31 after an operation that does not trap: Cause holds its exceptions, the Flags collect them (spec/48_fpu_exceptions.md R651). -/
def fcr31After (s : State) (x : BitVec 6) : Fcr31 := { s.fcr31 with cause := x, flags := s.fcr31.flags ||| x.extractLsb' 0 5 }

/-- Exceptions `x` trap: E, or an exception whose Enable bit is set (R651). -/
def TrapsUnder (t : Fcr31) (x : BitVec 6) : Prop := x.getLsbD 5 = true ∨ ∃ k < 5, x.getLsbD k = true ∧ t.enables.getLsbD k = true

/-- An operation with exceptions `x` traps. -/
def TrapsWith (s : State) (x : BitVec 6) : Prop := TrapsUnder s.fcr31 x

/-- The low word or the doubleword of a floating-point register in a format holds `v`; no register it does not name has changed. -/
structure WritesFpr (f : Fmt) (n : RegNum) (v : Dword) (s t : State) : Prop where
  value : readFpr f t n = (match f with | .S => zext32 (low32 v) | .D => v)
  others : ∀ q, q ≠ n → (f = .D → frSeen s = false → q ≠ n + 1) → readFgr t q = readFgr s q

/-- Everything but the floating-point unit is as before, and control went on. -/
structure FpuOnly (s t : State) : Prop where
  cpu : SameCpu s t
  system : SameSystem s t
  memory : SameMemory s t
  control : WentOn s t

/-! ## Exceptions (spec/60_exceptions.md R760, R761) -/

/-- The exceptions that load BadVAddr and the registers of address translation (R770, R774). -/
def loadsAddress : Exc → Bool
  | .addressError _ _ | .tlbRefill _ _ | .tlbInvalid _ _ | .tlbModified _ => true
  | _ => false

/-- What the general entry leaves: EPC and BD, unless EXL was set; EXL; the unit of Coprocessor Unusable; of CP0 besides only ExcCode, CE
and what an exception of an address loads; everything outside CP0 and control as before. `t` is entered from `s`. -/
structure GeneralEntry (e : Exc) (s t : State) : Prop where
  epc : t.cp0.epc = if s.cp0.status.exl then s.cp0.epc else (if s.delay.isSome then s.pc - 4 else s.pc)
  bd : s.cp0.status.exl = false → t.cp0.cause.bd = s.delay.isSome
  unit : ∀ z, e = .coprocessorUnusable z → t.cp0.cause.ce = z
  status : t.cp0.status = { s.cp0.status with exl := true }
  cp0 : t.cp0 = { s.cp0 with
    epc := t.cp0.epc
    status := t.cp0.status
    cause := { t.cp0.cause with ipSw := s.cp0.cause.ipSw }
    badVAddr := t.cp0.badVAddr
    contextBadVPN2 := t.cp0.contextBadVPN2
    xcontextR := t.cp0.xcontextR
    xcontextBadVPN2 := t.cp0.xcontextBadVPN2
    entryHi := { t.cp0.entryHi with asid := s.cp0.entryHi.asid }
    entryLo0 := t.cp0.entryLo0
    entryLo1 := t.cp0.entryLo1 }
  address : loadsAddress e = false → t.cp0 = { s.cp0 with epc := t.cp0.epc, status := t.cp0.status, cause := t.cp0.cause }
  delay : t.delay = none
  cpu : SameCpu s t
  fpu : SameFpu s t
  tlb : t.tlb = s.tlb
  link : SameLink s t
  platform : SamePlatform { s with entered := true } t
  memory : SameMemory s t

/-- No pending CP0 write is held back from any consumer: every consumer sees the state itself. -/
def Settled (s : State) : Prop := s.inp.stale = []

/-! ## Branches on a condition bit, moves, loads and stores of the floating-point unit -/

/-- The condition bit a branch of coprocessor 1 tests. -/
def fpBranchBit : Instr → Option (BitVec 3)
  | .bc1f cc _ | .bc1t cc _ | .bc1fl cc _ | .bc1tl cc _ => some cc
  | _ => none

/-- The branches on a condition bit of value `c` (spec/47_fpu_arith.md R640). -/
def fpBranchForm (c : Bool) (s : State) : Instr → Option BranchForm
  | .bc1f _ o => some ⟨!c, relativeTarget s o, false, none, true⟩
  | .bc1t _ o => some ⟨c, relativeTarget s o, false, none, true⟩
  | .bc1fl _ o => some ⟨!c, relativeTarget s o, true, none, true⟩
  | .bc1tl _ o => some ⟨c, relativeTarget s o, true, none, true⟩
  | _ => none

/-- A condition bit shows its present value: no compare stands just ahead whose old value the environment lets through
(spec/70_reset_and_hazards.md R872). -/
def FccSettled (s : State) : Prop := s.inp.fccStale = false ∨ s.fccOld = none

/-- A copy between floating-point registers: format, registers, whether it is made, whether it is a MIPS IV instruction. -/
structure FpMoveForm where
  f : Fmt
  fd : RegNum
  fs : RegNum
  moved : Bool
  mips4 : Bool

/-- MOV.fmt and the conditional moves (spec/46_fpu_moves.md R540 to R545). -/
def fpMoveForm (s : State) : Instr → Option FpMoveForm
  | .movS fd fs => some ⟨.S, fd, fs, true, false⟩
  | .movD fd fs => some ⟨.D, fd, fs, true, false⟩
  | .movfS fd fs cc => some ⟨.S, fd, fs, conditionBit s.fcr31 cc = false, true⟩
  | .movfD fd fs cc => some ⟨.D, fd, fs, conditionBit s.fcr31 cc = false, true⟩
  | .movtS fd fs cc => some ⟨.S, fd, fs, conditionBit s.fcr31 cc = true, true⟩
  | .movtD fd fs cc => some ⟨.D, fd, fs, conditionBit s.fcr31 cc = true, true⟩
  | .movzS fd fs rt => some ⟨.S, fd, fs, readGpr s rt = 0, true⟩
  | .movzD fd fs rt => some ⟨.D, fd, fs, readGpr s rt = 0, true⟩
  | .movnS fd fs rt => some ⟨.S, fd, fs, readGpr s rt ≠ 0, true⟩
  | .movnD fd fs rt => some ⟨.D, fd, fs, readGpr s rt ≠ 0, true⟩
  | _ => none

/-- A load or store of a floating-point register; `base` names the base register of an indexed one. -/
structure FpMemForm where
  f : Fmt
  reg : RegNum
  va : Dword
  base : Option RegNum

/-- The sum of base and index registers (spec/46_fpu_moves.md R524). -/
def indexedAddress (s : State) (base index : RegNum) : Dword := word64 (u64 (readGpr s base) + u64 (readGpr s index))

/-- LWC1, LDC1, LWXC1, LDXC1 (R526, R527, R530, R531). -/
def fpLoadForm (s : State) : Instr → Option FpMemForm
  | .lwc1 ft o b => some ⟨.S, ft, effectiveAddress s b o, none⟩
  | .ldc1 ft o b => some ⟨.D, ft, effectiveAddress s b o, none⟩
  | .lwxc1 fd i b => some ⟨.S, fd, indexedAddress s b i, some b⟩
  | .ldxc1 fd i b => some ⟨.D, fd, indexedAddress s b i, some b⟩
  | _ => none

/-- SWC1, SDC1, SWXC1, SDXC1 (R528, R529, R532, R533). -/
def fpStoreForm (s : State) : Instr → Option FpMemForm
  | .swc1 ft o b => some ⟨.S, ft, effectiveAddress s b o, none⟩
  | .sdc1 ft o b => some ⟨.D, ft, effectiveAddress s b o, none⟩
  | .swxc1 fs i b => some ⟨.S, fs, indexedAddress s b i, some b⟩
  | .sdxc1 fs i b => some ⟨.D, fs, indexedAddress s b i, some b⟩
  | _ => none

/-- The bytes of a format. -/
def fmtBytes : Fmt → Nat
  | .S => 4
  | .D => 8

/-- The checks before the address: coprocessor 1, MIPS IV for an indexed form, an even register for a doubleword while FR = 0. -/
def FpMemOk (f : FpMemForm) (s : State) : Prop :=
  Cp1Ok s ∧ (f.base.isSome = true → Mips4Ok s) ∧ (f.f = .D → FprsOk [f.reg] s)

/-- The region of an indexed address is its base's (R524). -/
def SameRegion (f : FpMemForm) (s : State) : Prop :=
  ∀ b, f.base = some b → f.va.toNat / 2 ^ 62 = (readGpr s b).toNat / 2 ^ 62

/-- The register effect of a load of a floating-point register. -/
structure LoadsFpr (f : Fmt) (n : RegNum) (v : Dword) (s t : State) : Prop where
  register : WritesFpr f n v s t
  fcr31 : t.fcr31 = s.fcr31
  cpu : SameCpu s t
  cp0 : t.cp0 = s.cp0
  tlb : t.tlb = s.tlb
  platform : SamePlatform s t
  control : WentOn s t

/-- The register a load of the floating-point unit delivers its bytes to. -/
def FpMemForm.delivers (f : FpMemForm) (s : State) (bs : List Byte) (t : State) : Prop :=
  LoadsFpr f.f f.reg (word64 (natOfBytes s.boot.bigEndianMem bs)) s t

/-- The bytes a store of the floating-point unit sends. -/
def FpMemForm.bytes (f : FpMemForm) (s : State) : List Byte :=
  bytesOfValue s.boot.bigEndianMem (fmtBytes f.f) (readFpr f.f s f.reg)

/-! ## SC and SCD (spec/40_loads_stores.md R287, R288) -/

/-- A store conditional: the register, the address, the bytes, whether it is a 64-bit operation. -/
structure ScForm where
  rt : RegNum
  va : Dword
  n : Nat
  wide : Bool

/-- SC and SCD. -/
def scForm (s : State) : Instr → Option ScForm
  | .sc rt o b => some ⟨rt, effectiveAddress s b o, 4, false⟩
  | .scd rt o b => some ⟨rt, effectiveAddress s b o, 8, true⟩
  | _ => none

/-- What a conditional store that stores leaves besides memory, caches and link: its register holds 1. -/
structure ScRest (r : RegNum) (s t : State) : Prop where
  gpr : ∀ q, readGpr t q = if q = r ∧ q ≠ 0 then 1 else readGpr s q
  hiLo : t.hi = s.hi ∧ t.lo = s.lo
  fpu : SameFpu s t
  cp0 : t.cp0 = s.cp0
  tlb : t.tlb = s.tlb
  platform : SamePlatform s t
  control : WentOn s t

/-! ## CACHE -/

/-- What a CACHE instruction leaves alone; CP0 holds `c`, but for Status.CH, which holds any value (spec/45_cp0_system.md R510). -/
structure CacheFrame (c : Cp0) (s t : State) : Prop where
  cpu : SameCpu s t
  fpu : SameFpu s t
  tlb : t.tlb = s.tlb
  platform : SamePlatform s t
  cp0 : ∃ ch, t.cp0 = { c with status := { c.status with ch := ch } }
  control : WentOn s t

/-- A CACHE instruction may run at an address: CP0 is usable, the address translates (R490). -/
def CacheOk (s : State) (va : Dword) (pa : PAddr) (c : BitVec 3) : Prop :=
  Cp0Ok s ∧ translate (seen .data s) .load va = .ok (pa, c)

/-- The address of a CACHE instruction. -/
def cacheVa (s : State) : Instr → Option Dword
  | .cacheIIndexInvalidate o b | .cacheIIndexLoadTag o b | .cacheIIndexStoreTag o b | .cacheIHitInvalidate o b | .cacheIFill o b
  | .cacheIHitWriteback o b | .cacheDIndexWritebackInvalidate o b | .cacheDIndexLoadTag o b | .cacheDIndexStoreTag o b
  | .cacheDCreateDirtyExclusive o b | .cacheDHitInvalidate o b | .cacheDHitWritebackInvalidate o b | .cacheDHitWriteback o b
  | .cacheSValidClear o b | .cacheSIndexLoadTag o b | .cacheSIndexStoreTag o b | .cacheSCachePageInvalidate o b =>
    some (effectiveAddress s b o)
  | _ => none

/-! ## Bus Error (spec/60_exceptions.md R780) -/

/-- An instruction comes to access `n` bytes of memory: a load, a left or right load, a load of a floating-point register, the same of
stores, a conditional store with the link. -/
inductive ComesTo (i : Instr) (s : State) : AccessKind → Dword → PAddr → BitVec 3 → Nat → Prop
  | load (f : LoadForm) (pa : PAddr) (c : BitVec 3) : loadForm s i = some f → WideOk f.wide s → Reaches s .load f.va f.n pa c →
    (f.linked = true → c ≠ 2) → ComesTo i s .load f.va pa c f.n
  | loadPart (f : PartForm) (pa : PAddr) (c : BitVec 3) (n : Nat) : loadPartForm s i = some f → WideOk f.wide s →
    partAccess .load f.left f.size f.va s = .ok (pa, c, n) → ComesTo i s .load f.va pa c n
  | loadFp (f : FpMemForm) (pa : PAddr) (c : BitVec 3) : fpLoadForm s i = some f → FpMemOk f s → SameRegion f s →
    Reaches s .load f.va (fmtBytes f.f) pa c → ComesTo i s .load f.va pa c (fmtBytes f.f)
  | store (f : StoreForm) (pa : PAddr) (c : BitVec 3) : storeForm s i = some f → WideOk f.wide s → Reaches s .store f.va f.n pa c →
    ComesTo i s .store f.va pa c f.n
  | storePart (f : PartForm) (pa : PAddr) (c : BitVec 3) (n : Nat) : storePartForm s i = some f → WideOk f.wide s →
    partAccess .store f.left f.size f.va s = .ok (pa, c, n) → ComesTo i s .store f.va pa c n
  | storeFp (f : FpMemForm) (pa : PAddr) (c : BitVec 3) : fpStoreForm s i = some f → FpMemOk f s → SameRegion f s →
    Reaches s .store f.va (fmtBytes f.f) pa c → ComesTo i s .store f.va pa c (fmtBytes f.f)
  | storeConditional (f : ScForm) (pa : PAddr) (c : BitVec 3) : scForm s i = some f → WideOk f.wide s →
    Reaches s .store f.va f.n pa c → c ≠ 2 → s.llBit = true → translate (seen .data s) .store f.va = .ok (s.linkAddr, c) → ComesTo i s .store f.va pa c f.n

/-- The external agent answers a read with erroneous data whose parity is right (spec/49_system_interface.md R705, R721). -/
def BadAnswer (r : ReadResponse) : Prop := r.erroneous = true ∧ r.badParity = 0 ∧ r.unanswered = false

/-- A block read goes to the external agent: no secondary cache takes part, or it does not hold the line (R720). -/
def AgentAsked (s : State) (cp : Cp0) (pa : PAddr) (c : BitVec 3) : Prop :=
  let l := slineAt (drainAll s) (scacheIndex s.boot pa)
  ¬(scacheInUse s cp c = true ∧ l.valid = true ∧ l.tag = scacheTag pa)

/-- The place of an address in the secondary cache, if that takes part, is not valid. -/
def SecondaryInvalid (s : State) (cp : Cp0) (pa : PAddr) (c : BitVec 3) (t : State) : Prop :=
  scacheInUse s cp c = true → (slineAt t (scacheIndex s.boot pa)).valid = false

/-- No register has changed, nor the TLB, the link and where control stands: what a read that ended in an exception leaves behind. -/
structure KeptByError (s t : State) : Prop where
  cpu : SameCpu s t
  fpu : SameFpu s t
  system : SameSystem s t
  control : t.pc = s.pc ∧ t.delay = s.delay

/-! ## CP0 registers (spec/45_cp0_system.md R475) -/

/-- The bits a move writes. -/
def cp0Mask (n : BitVec 5) : Dword :=
  match n.toNat with
  | 0 => 0x3F
  | 2 | 3 => 0x3FFFFFFF
  | 4 => 0xFFFFFFFFFF800000
  | 5 => 0x1FFE000
  | 6 => 0x3F
  | 9 | 11 | 17 | 28 | 29 => 0xFFFFFFFF
  | 10 => 0xC00000FFFFFFE0FF
  | 12 => 0xF657FFFF
  | 13 => 0x300
  | 14 | 30 => 0xFFFFFFFFFFFFFFFF
  | 16 => 0x1007
  | 20 => 0xFFFFFFFE00000000
  | 26 => 0xFF
  | _ => 0

/-- A value a move may give a CP0 register: not above 47 for Wired, no reserved attribute for Config, no reserved mode for Status. -/
def Cp0Writable (n : BitVec 5) (v : Dword) : Prop :=
  (n = 6 → v.toNat % 64 ≤ 47) ∧ (n = 16 → v.toNat % 8 < 4) ∧
    (n = 12 → v.toNat / 2 % 2 = 0 → v.toNat / 4 % 2 = 0 → v.toNat / 8 % 4 ≠ 3)

/-- A TLB entry matches region, VPN2 and ASID (spec/20_memory.md R162): every bit of VPN2 the mask does not cover agrees. -/
def EntryMatches (e : TlbEntry) (r : BitVec 2) (vpn2 : BitVec 27) (asid : BitVec 8) : Prop :=
  e.r = r ∧ (∀ k < 27, (k < 12 → e.mask.getLsbD k = false) → e.vpn2.getLsbD k = vpn2.getLsbD k) ∧ (e.g = true ∨ e.asid = asid)

/-! ## The step -/

/-- The step from `s` comes to an instruction, in the state `u`: the environment has had its turn, and no reset, NMI or Standby takes
the step. -/
def Ready (s u : State) : Prop :=
  ∃ t, applyExts (nextInput s).ext (arrived s) = .ok () t ∧ t.inp.reset = none ∧ t.nmiPending = 0 ∧
    (t.standby && !wakes t) = false ∧ noMode t.cp0.status = false ∧ u = t.setStandby false

/-- What Soft Reset and NMI leave of the registers (spec/60_exceptions.md R764). -/
structure SoftEntered (s t : State) : Prop where
  errorEpc : t.cp0.errorEpc = if s.delay.isSome then s.pc - 4 else s.pc
  cp0 : t.cp0 = { s.cp0 with
    errorEpc := t.cp0.errorEpc
    status := { s.cp0.status with bev := true, sr := true, erl := true } }
  control : t.pc = 0xFFFFFFFFBFC00000 ∧ t.delay = none ∧ t.standby = false
  cpu : SameCpu s t
  fpu : SameFpu s t
  tlb : t.tlb = s.tlb
  link : SameLink s t

end Sys2Proof.Machine
end

