-- ==== Sys2Proof/Certificates/Slice0/Obligations.lean ====
section
/-! DEFINITION. Sys2Proof/Certificates/Slice0/Obligations.lean: the statements for the provers, each with the rules of spec/ it formalises.
OBLIGATIONS.json lists them. -/

open Sys2Proof Sys2Proof.Machine

/-! ## Encoding -/

/-- spec/30_encoding.md: decoding the word the encoder writes gives the instruction back, with every operand at every value. -/
def Obligations.DecodeOfEncode : Prop := ∀ i : Instr, decodeWord (encode i) = .ok i

/-- spec/30_encoding.md R221 to R233, R235: a word that decodes is the encoding of its instruction, but for the fields the hardware
ignores: the code of SYSCALL and BREAK, the operands of PREFX. So no word outside the encodings decodes. -/
def Obligations.EncodeOfDecode : Prop :=
  ∀ (w : Word) (i : Instr), decodeWord w = .ok i → i ≠ .syscall → i ≠ .brk → i ≠ .prefx → encode i = w

/-- Words of the spec's own examples, one or more for each class of R226. -/
def Obligations.ExampleWordsDecode : Prop :=
  decodeWord 0x8C820008 = .ok (.lw 2 8 4) ∧ decodeWord 0x2082FFFF = .ok (.addi 2 4 0xFFFF) ∧
    decodeWord 0x00851020 = .ok (.add 2 4 5) ∧ decodeWord 0x00051103 = .ok (.sra 2 5 4) ∧
    decodeWord 0x00850018 = .ok (.mult 4 5) ∧ decodeWord 0x008D1001 = .ok (.movt 2 4 3) ∧
    decodeWord 0x40826000 = .ok (.mtc0 2 12) ∧ decodeWord 0x42000018 = .ok .eret ∧
    decodeWord 0xBC950020 = .ok (.cacheDHitWritebackInvalidate 32 4) ∧ decodeWord 0xC4820008 = .ok (.lwc1 2 8 4) ∧
    decodeWord 0x44C2F800 = .ok (.ctc1 2 31) ∧ decodeWord 0x46202086 = .ok (.movD 2 4) ∧ decodeWord 0x0048D14D = .ok .brk

/-! ## The step -/

/-- spec/43_jumps_branches.md R400, spec/20_memory.md R139: where a step comes to an instruction and its bytes decode, the step runs
exec of it; Random then steps if it was retired, and one instruction of every hazard window has gone by. -/
def Obligations.StepRunsDecodedInstruction : Prop :=
  ∀ (s u v : State) (bs : List Byte) (i : Instr), Ready s u → fetchBytes u = .ok bs v →
    decode v.boot.bigEndianMem bs = .ok i → interruptRequest u = false → step s = aged (retire i (exec i v))

/-- The invariant of a run: every step keeps it. -/
def Obligations.StepKeepsInvariant : Prop := ∀ s t : State, Inv s → step s = .next t → Inv t

/-- The invariant holds after reset. -/
def Obligations.ResetHasInvariant : Prop := Inv State.reset

/-! ## Integer instructions -/

/-- spec/41_alu.md R310, R311, R313, R316 to R322, R324, R326, R328 to R334, R336, R338, R340 to R354: the immediate and three-operand
instructions that raise no Overflow, and the shifts, write their result, and nothing else changes; a 32-bit operation on an improper
operand writes some value. The model's choice (log entry 33): SLLV asks only rt to be a sign-extended word, as R343 has it ignore the upper
bits of rs; SRLV and SRAV ask both, by R311. -/
def Obligations.AluAndShiftResults : Prop :=
  ∀ (i : Instr) (s : State) (w : GprResult), aluResult s i = some w ∨ shiftResult s i = some w → WideOk w.wide s →
    ∃ t v, exec i s = .next t ∧ (w.proper = true → v = w.value) ∧ WritesGpr w.rd v s t

/-- spec/41_alu.md R311 to R313, R315, R323, R325, R327, R335, R337, spec/92_eei_decisions.md D22: a sum or difference that is
a signed value of its width is written; one that is not raises Overflow; on an improper operand either happens, with some value. -/
def Obligations.TrappingArithmetic : Prop :=
  ∀ (i : Instr) (s : State) (w : TrappingResult), trappingResult s i = some w → WideOk w.wide s →
    (w.proper = true → FitsSigned w.wide w.exact →
      ∃ t, exec i s = .next t ∧ WritesGpr w.rd (if w.wide then word64 w.exact else word32 w.exact) s t) ∧
    (w.proper = true → ¬FitsSigned w.wide w.exact → exec i s = .next (takeException .overflow s)) ∧
    (w.proper = false →
      (∃ t v, exec i s = .next t ∧ WritesGpr w.rd v s t) ∨ ∃ n, exec i s = .next (takeException .overflow (s.drawn n)))

/-- spec/42_muldiv_moves.md R370, R373, R375 to R383: products and quotients; some values on an improper operand or a divisor of zero. -/
def Obligations.MultiplyDivide : Prop :=
  ∀ (i : Instr) (s : State) (w : HiLoResult), hiLoResult s i = some w → WideOk w.wide s →
    ∃ t hi lo, exec i s = .next t ∧ (w.known = true → hi = w.hi ∧ lo = w.lo) ∧ WritesHiLo hi lo s t

/-- spec/42_muldiv_moves.md R385 to R388: the moves of HI and LO. -/
def Obligations.HiLoMoves : Prop :=
  ∀ (s : State) (r : RegNum),
    (∃ t, exec (.mfhi r) s = .next t ∧ WritesGpr r s.hi s t) ∧ (∃ t, exec (.mflo r) s = .next t ∧ WritesGpr r s.lo s t) ∧
    (∃ t, exec (.mthi r) s = .next t ∧ WritesHiLo (readGpr s r) s.lo s t) ∧
    ∃ t, exec (.mtlo r) s = .next t ∧ WritesHiLo s.hi (readGpr s r) s t

/-- spec/42_muldiv_moves.md R391 to R394: MOVN and MOVZ, by a register; MOVF and MOVT, by a condition bit, the present
one unless a compare just ahead may still be unseen. -/
def Obligations.ConditionalMoves : Prop :=
  (∀ (s : State) (rd rs rt : RegNum), Mips4Ok s →
    (∃ t, exec (.movn rd rs rt) s = .next t ∧ if readGpr s rt ≠ 0 then WritesGpr rd (readGpr s rs) s t else NoEffect s t) ∧
    ∃ t, exec (.movz rd rs rt) s = .next t ∧ if readGpr s rt = 0 then WritesGpr rd (readGpr s rs) s t else NoEffect s t) ∧
  ∀ (s : State) (rd rs : RegNum) (cc : BitVec 3), Cp1Ok s → Mips4Ok s →
    ∃ c, (FccSettled s → c = conditionBit s.fcr31 cc) ∧
      (∃ t, exec (.movf rd rs cc) s = .next t ∧ if c = false then WritesGpr rd (readGpr s rs) s t else NoEffect s t) ∧
      ∃ t, exec (.movt rd rs cc) s = .next t ∧ if c = true then WritesGpr rd (readGpr s rs) s t else NoEffect s t

/-! ## Jumps and branches -/

/-- spec/43_jumps_branches.md R400 to R405, R410 to R430: every legal jump and branch outside a delay slot. -/
def Obligations.JumpsAndBranches : Prop :=
  ∀ (i : Instr) (s : State) (b : BranchForm), branchForm s i = some b → b.legal = true → s.delay = none →
    ∃ t, exec i s = .next t ∧ Branched b s t

/-- spec/47_fpu_arith.md R640 to R644: the branches on a condition bit. -/
def Obligations.ConditionBranches : Prop :=
  ∀ (i : Instr) (s : State) (cc : BitVec 3), fpBranchBit i = some cc → Cp1Ok s → (cc ≠ 0 → Mips4Ok s) → s.delay = none →
    ∃ c b t, (FccSettled s → c = conditionBit s.fcr31 cc) ∧ fpBranchForm c s i = some b ∧ exec i s = .next t ∧ Branched b s t

/-- spec/43_jumps_branches.md R406, spec/92_eei_decisions.md D25: what the spec has a model refuse: a jump, a branch or ERET in a delay
slot, JALR with rd = rs, a linking branch that tests r31. -/
def Obligations.RefusedControl : Prop :=
  (∀ (i : Instr) (s : State) (b : BranchForm), branchForm s i = some b → s.delay.isSome = true →
    exec i s = .refused .controlInDelaySlot) ∧
  (∀ (i : Instr) (s : State) (cc : BitVec 3), fpBranchBit i = some cc → Cp1Ok s → (cc ≠ 0 → Mips4Ok s) → s.delay.isSome = true →
    exec i s = .refused .controlInDelaySlot) ∧
  (∀ s : State, Cp0Ok s → s.delay.isSome = true → exec .eret s = .refused .controlInDelaySlot) ∧
  (∀ (s : State) (r : RegNum), s.delay = none → exec (.jalr r r) s = .refused .jalrSameRegister) ∧
  ∀ (s : State) (o : BitVec 16), s.delay = none →
    exec (.bltzal 31 o) s = .refused .linkBranchOn31 ∧ exec (.bgezal 31 o) s = .refused .linkBranchOn31 ∧
    exec (.bltzall 31 o) s = .refused .linkBranchOn31 ∧ exec (.bgezall 31 o) s = .refused .linkBranchOn31

/-! ## Traps, system calls, SYNC, prefetch -/

/-- spec/44_special_traps.md R446 to R458: a trap whose condition holds takes the Trap exception; else it has no effect. -/
def Obligations.TrapsOnCondition : Prop :=
  ∀ (i : Instr) (s : State) (c : Bool), trapCondition s i = some c →
    (c = true → exec i s = .next (takeException .trap s)) ∧ (c = false → ∃ t, exec i s = .next t ∧ NoEffect s t)

/-- spec/44_special_traps.md R441, R443, R444: SYSCALL and BREAK, whatever their code, take their exceptions in every mode. -/
def Obligations.SystemCallAndBreak : Prop :=
  (∀ code : BitVec 20, decodeWord (mkCode20 0 code 12) = .ok .syscall ∧ decodeWord (mkCode20 0 code 13) = .ok .brk) ∧
  ∀ s : State, exec .syscall s = .next (takeException .systemCall s) ∧ (takeException .systemCall s).cp0.cause.excCode = 8 ∧
    exec .brk s = .next (takeException .breakpoint s) ∧ (takeException .breakpoint s).cp0.cause.excCode = 9

/-- spec/44_special_traps.md R460, spec/20_memory.md R176: SYNC empties the write buffer; memory then holds what it would have held once
the buffered writes were sent; no register changes, no exception is raised, in any mode. Its code field must be zero (spec/30_encoding.md R235
(b)). spec/20_memory.md R194, spec/49_system_interface.md R720, R721: a buffered line reaches the secondary cache, with its check bits, if that is
in use and the line's page is a write-back page, and only then; which page is the line's is the model's choice (log entry 55). -/
def Obligations.SyncEmptiesWriteBuffer : Prop :=
  (∀ code : BitVec 20, decodeWord (mkCode20 0 code 15) = if code = 0 then .ok .sync else .error (.mustBeZero .none)) ∧
  (∀ s : State, ∃ t, exec .sync s = .next t ∧ t.wb = [] ∧ (∀ a, memRead t.mem a = sentByte s a) ∧ t.dcache = s.dcache ∧
    t.icache = s.icache ∧ SameCpu s t ∧ SameFpu s t ∧ SameSystem s t ∧ WentOn s t) ∧
  (∀ (s : State) (pa : PAddr) (vi : BitVec 2) (retained wbPage : Bool) (bs : List Byte) (par : BitVec 32),
    s.wb = [.block pa vi retained wbPage bs par] →
    ∃ t, exec .sync s = .next t ∧ ∀ j, slineAt t j =
      if wbPage = true ∧ s.boot.scEnable = true ∧ s.cp0.configSE = true ∧ j = scacheIndex s.boot pa then
        ⟨true, scacheTag pa, lineOfBytes bs, par⟩ else slineAt s j) ∧
  ∀ s : State, (∀ e ∈ s.wb, isBlock e = false) → ∃ t, exec .sync s = .next t ∧ SameSCache s t

/-- spec/40_loads_stores.md R290, spec/46_fpu_moves.md R534: PREF and PREFX have no effect. -/
def Obligations.PrefetchHasNoEffect : Prop :=
  ∀ s : State, Mips4Ok s →
    (∀ (hint : BitVec 5) (offset : BitVec 16) (base : RegNum), ∃ t, exec (.pref hint offset base) s = .next t ∧ NoEffect s t) ∧
    (Cp1Ok s → ∃ t, exec .prefx s = .next t ∧ NoEffect s t)

/-! ## Memory -/

/-- spec/20_memory.md R133: the value of bytes in big-endian order has the byte at the lowest address most significant, in little-endian
order least significant; a store does the inverse. -/
def Obligations.ByteOrder : Prop :=
  (∀ (n : Nat) (v : Dword) (k : Nat), n ≤ 8 → k < n →
    (bytesOfValue true n v)[k]? = some (v.extractLsb' (8 * (n - 1 - k)) 8) ∧
      (bytesOfValue false n v)[k]? = some (v.extractLsb' (8 * k) 8)) ∧
  ∀ (big : Bool) (n : Nat) (v : Dword), n ≤ 8 →
    (bytesOfValue big n v).length = n ∧ valueOfBytes big (bytesOfValue big n v) = v &&& BitVec.ofNat 64 (2 ^ (8 * n) - 1)

/-- spec/20_memory.md R136: a halfword, word or doubleword access that is not aligned raises Address Error, with code AdEL or AdES and
the failing address in BadVAddr, in loads, linked loads, stores, conditional stores, those of the floating-point registers, and in the
fetch. -/
def Obligations.MisalignedAddressError : Prop :=
  (∀ (s : State) (store : Bool) (va : Dword), (takeException (.addressError store va) s).cp0.badVAddr = va ∧
    (takeException (.addressError store va) s).cp0.cause.excCode = if store then 5 else 4) ∧
  (∀ (i : Instr) (s : State) (f : LoadForm), loadForm s i = some f → WideOk f.wide s → f.va.toNat % f.n ≠ 0 →
    exec i s = .next (takeException (.addressError false f.va) s)) ∧
  (∀ (i : Instr) (s : State) (f : StoreForm), storeForm s i = some f → WideOk f.wide s → f.va.toNat % f.n ≠ 0 →
    exec i s = .next (takeException (.addressError true f.va) s)) ∧
  (∀ (i : Instr) (s : State) (f : ScForm), scForm s i = some f → WideOk f.wide s → f.va.toNat % f.n ≠ 0 →
    exec i s = .next (takeException (.addressError true f.va) s)) ∧
  (∀ (i : Instr) (s : State) (f : FpMemForm), fpLoadForm s i = some f → FpMemOk f s → SameRegion f s →
    f.va.toNat % fmtBytes f.f ≠ 0 → exec i s = .next (takeException (.addressError false f.va) s)) ∧
  (∀ (i : Instr) (s : State) (f : FpMemForm), fpStoreForm s i = some f → FpMemOk f s → SameRegion f s →
    f.va.toNat % fmtBytes f.f ≠ 0 → exec i s = .next (takeException (.addressError true f.va) s)) ∧
  ∀ s : State, s.pc.toNat % 4 ≠ 0 → fetchBytes s = .exc (.addressError false s.pc) s

/-- spec/40_loads_stores.md R261, spec/20_memory.md R139, spec/45_cp0_system.md R490: an aligned access, a fetch or a CACHE instruction whose
address does not translate takes the exception of the translation. spec/60_exceptions.md R780: so does a read that is answered with erroneous
data take Bus Error, of a load, of a store that brings its line in, of a fetch; no register changes, the place of the line is invalid in the
primary cache and in the secondary one, and the line that was there goes to memory if it is modified (its place, and that it goes: log entry
13; that a store takes it, by R780 where R261 has loads only: log entry 58). A step that a fetch ends so enters that exception. -/
def Obligations.AccessExceptionsTaken : Prop :=
  (∀ (i : Instr) (s : State) (f : LoadForm) (e : Exc), loadForm s i = some f → WideOk f.wide s → f.va.toNat % f.n = 0 →
    translate (seen .data s) .load f.va = .error (.exc e) → exec i s = .next (takeException e s)) ∧
  (∀ (i : Instr) (s : State) (f : StoreForm) (e : Exc), storeForm s i = some f → WideOk f.wide s → f.va.toNat % f.n = 0 →
    translate (seen .data s) .store f.va = .error (.exc e) → exec i s = .next (takeException e s)) ∧
  (∀ (i : Instr) (s : State) (f : ScForm) (e : Exc), scForm s i = some f → WideOk f.wide s → f.va.toNat % f.n = 0 →
    translate (seen .data s) .store f.va = .error (.exc e) → exec i s = .next (takeException e s)) ∧
  (∀ (i : Instr) (s : State) (f : PartForm) (e : Exc), loadPartForm s i = some f → WideOk f.wide s →
    translate (seen .data s) .load f.va = .error (.exc e) → exec i s = .next (takeException e s)) ∧
  (∀ (i : Instr) (s : State) (f : PartForm) (e : Exc), storePartForm s i = some f → WideOk f.wide s →
    translate (seen .data s) .store f.va = .error (.exc e) → exec i s = .next (takeException e s)) ∧
  (∀ (i : Instr) (s : State) (f : FpMemForm) (e : Exc), fpLoadForm s i = some f → FpMemOk f s → SameRegion f s →
    f.va.toNat % fmtBytes f.f = 0 → translate (seen .data s) .load f.va = .error (.exc e) →
    exec i s = .next (takeException e s)) ∧
  (∀ (i : Instr) (s : State) (f : FpMemForm) (e : Exc), fpStoreForm s i = some f → FpMemOk f s → SameRegion f s →
    f.va.toNat % fmtBytes f.f = 0 → translate (seen .data s) .store f.va = .error (.exc e) →
    exec i s = .next (takeException e s)) ∧
  (∀ (i : Instr) (s : State) (va : Dword) (e : Exc), cacheVa s i = some va → Cp0Ok s →
    translate (seen .data s) .load va = .error (.exc e) → exec i s = .next (takeException e s)) ∧
  (∀ (s : State) (e : Exc), s.pc.toNat % 4 = 0 → translate (seen .fetch s) .fetch s.pc = .error (.exc e) → fetchBytes s = .exc e s) ∧
  (∀ (s u v : State) (e : Exc), Ready s u → fetchBytes u = .exc e v → step s = .next (age (takeException e v))) ∧
  (∀ (i : Instr) (s : State) (kind : AccessKind) (va : Dword) (pa : PAddr) (c : BitVec 3) (n : Nat), Memory.wf s.mem →
    ComesTo i s kind va pa c n → BadAnswer s.inp.dataResponse →
    (kind = .load → c = 2 → ∃ t, exec i s = .next (takeException (.busError false) t) ∧ KeptByError s t ∧ SameMemory (drainAll s) t) ∧
    ∀ old, c ≠ 2 → (kind = .store → c ≠ 0) → NoLine s va pa → Victim s va old → AgentAsked s (seen .data s).cp0 pa c →
      ∃ t l, exec i s = .next (takeException (.busError false) t) ∧ KeptByError s t ∧ l.state = 0 ∧
        OnlyDLine (setIndex va) (dsetAt s (setIndex va)).fifo l s t ∧ SameICache s t ∧
        SecondaryInvalid s (seen .data s).cp0 pa c t ∧ WrittenBack old (setIndex va) (drainAll s) t) ∧
  ∀ (s : State) (pa : PAddr) (c : BitVec 3), s.pc.toNat % 4 = 0 → translate (seen .fetch s) .fetch s.pc = .ok (pa, c) →
    BadAnswer s.inp.fetchResponse →
    (c = 2 → ∃ t, fetchBytes s = .exc (.busError true) t ∧ KeptByError s t ∧ SameMemory (drainAll s) t) ∧
    (c ≠ 2 → s.inp.fetchResponse.tagError = false → isetBad (isetAt (seen .fetch s) (setIndex s.pc)) = false →
      ihit (isetAt (seen .fetch s) (setIndex s.pc)) (primaryTag pa) = none → AgentAsked s (seen .fetch s).cp0 pa c →
      ∃ t way l, fetchBytes s = .exc (.busError true) t ∧ KeptByError s t ∧ l.valid = false ∧
        OnlyILine (setIndex s.pc) way l s t ∧ SameDCache s t ∧ SecondaryInvalid s (seen .fetch s).cp0 pa c t ∧
        SameOutside (drainAll s) t)

/-- spec/40_loads_stores.md R265 to R271, spec/20_memory.md R192: an uncached load answered with good data. That it is answered behind the
buffered writes is the model's choice `ReadsDrainWriteBuffer` = true (R173, D11, log entry 42). R182 has a model refuse an uncached LL or
LLD. -/
def Obligations.UncachedLoads : Prop :=
  ∀ (i : Instr) (s : State) (f : LoadForm) (pa : PAddr), loadForm s i = some f → WideOk f.wide s → PlainOrder s →
    Reaches s .load f.va f.n pa 2 →
    (f.linked = false → UncachedLoad pa f.n (f.delivers pa s) s (exec i s)) ∧ (f.linked = true → exec i s = .refused .llUncached)

/-- spec/20_memory.md R191: a cached load that hits takes its bytes from the line; memory and caches are as before. A linked one sets the
link. -/
def Obligations.CachedLoadHits : Prop :=
  ∀ (i : Instr) (s : State) (f : LoadForm) (pa : PAddr) (c : BitVec 3), loadForm s i = some f → WideOk f.wide s → PlainOrder s →
    Reaches s .load f.va f.n pa c → c ≠ 2 → LoadHit f.linked f.va pa f.n (f.delivers pa s) s (exec i s)

/-- spec/20_memory.md R181, R190, R191, R193, R194, spec/49_system_interface.md R701, R720: a cached load that misses brings the line in, from
the secondary cache or from memory, which then leaves it in the secondary cache too, if that is in use; the line it replaces goes to memory
if it is modified, and a link to it breaks; a linked load then sets the link. The model's choices: the way replaced is the one the FIFO bit
names, which flips (log entry 13), and the read is answered behind the buffered writes (log entry 42). -/
def Obligations.CachedLoadMisses : Prop :=
  ∀ (i : Instr) (s : State) (f : LoadForm) (pa : PAddr) (c : BitVec 3), Memory.wf s.mem → loadForm s i = some f → WideOk f.wide s →
    PlainOrder s → Reaches s .load f.va f.n pa c → c ≠ 2 → LoadMiss f.linked f.va pa c f.n (f.delivers pa s) s (exec i s)

/-- spec/40_loads_stores.md R276: the bytes a left or right instruction touches, outside reverse-endian mode: from the address to the
end of its word or doubleword, or from its start to the address, by side and byte order. -/
def Obligations.UnalignedPartBytes : Prop :=
  ∀ (s : State) (kind : AccessKind) (left : Bool) (size : Nat) (va : Dword) (pa : PAddr) (c : BitVec 3), size = 4 ∨ size = 8 →
    reverseEndian (seen .data s).cp0.status = false → translate (seen .data s) kind va = .ok (pa, c) →
    pa.toNat % size = va.toNat % size →
    ∃ first n, partAccess kind left size va s = .ok (first, c, n) ∧
      if left = (seen .data s).boot.bigEndianMem then first = pa ∧ n = size - va.toNat % size
      else first.toNat = pa.toNat - pa.toNat % size ∧ n = va.toNat % size + 1

/-- spec/40_loads_stores.md R276 to R284: LWL, LWR, LDL and LDR replace the left or right bytes of the register; SWL, SWR, SDL and SDR store
them: at an uncached address, in a line that is held, in one that is not. The model's choices: reads are answered behind the buffered writes
(log entry 42), the way a miss replaces (log entry 13), the even parity of the bytes a cached store leaves in the line (log entry 16) and the
order of the bits of ECC (log entry 52). -/
def Obligations.PartAccesses : Prop :=
  (∀ (i : Instr) (s : State) (f : PartForm) (pa : PAddr) (c : BitVec 3) (n : Nat), Memory.wf s.mem → loadPartForm s i = some f →
    WideOk f.wide s → PlainOrder s → partAccess .load f.left f.size f.va s = .ok (pa, c, n) →
    (c = 2 → UncachedLoad pa n (f.delivers s) s (exec i s)) ∧
    (c ≠ 2 → LoadHit false f.va pa n (f.delivers s) s (exec i s) ∧ LoadMiss false f.va pa c n (f.delivers s) s (exec i s))) ∧
  ∀ (i : Instr) (s : State) (f : PartForm) (pa : PAddr) (c : BitVec 3) (n : Nat) (bs : List Byte), Memory.wf s.mem →
    storePartForm s i = some f → WideOk f.wide s → PlainOrder s → partAccess .store f.left f.size f.va s = .ok (pa, c, n) →
    bs = partBytes s.boot.bigEndianMem f.left f.size n (readGpr s f.rt) →
    (c = 2 → UncachedStore f.va pa bs (StoreRest s) s (exec i s)) ∧
    (c ≠ 2 → StoreHit f.va pa c bs (StoreRest s) s (exec i s) ∧ StoreMiss f.va pa c bs (StoreRest s) s (exec i s))

/-- spec/40_loads_stores.md R272 to R275, spec/20_memory.md R172, R192: an uncached store is one write request of its own size and
address behind the earlier ones, none of which is lost; the caches of instructions and data and every register are as before. -/
def Obligations.UncachedStores : Prop :=
  ∀ (i : Instr) (s : State) (f : StoreForm) (pa : PAddr), Memory.wf s.mem → storeForm s i = some f → WideOk f.wide s → PlainOrder s →
    Reaches s .store f.va f.n pa 2 →
    UncachedStore f.va pa (bytesOfValue s.boot.bigEndianMem f.n f.value) (StoreRest s) s (exec i s)

/-- spec/20_memory.md R191 (Table 8.2), R193, R194: a cached store that hits stores into the line; a write-back store marks it modified and
sends nothing, a write-through store also goes to memory and does not mark it; one that misses goes to memory alone with attribute 0, else it
brings the line in first. spec/10_state.md R80: the check bits of the stored bytes. The model's choices: the way a miss replaces (log entry 13),
its read behind the buffered writes (log entry 42), even parity (log entry 16; spec/49_system_interface.md R721 marks it general knowledge), the
order of the bits of ECC (log entry 52). -/
def Obligations.CachedStores : Prop :=
  ∀ (i : Instr) (s : State) (f : StoreForm) (pa : PAddr) (c : BitVec 3) (bs : List Byte), Memory.wf s.mem → storeForm s i = some f →
    WideOk f.wide s → PlainOrder s → Reaches s .store f.va f.n pa c → c ≠ 2 → bs = bytesOfValue s.boot.bigEndianMem f.n f.value →
    StoreHit f.va pa c bs (StoreRest s) s (exec i s) ∧ StoreMiss f.va pa c bs (StoreRest s) s (exec i s)

/-- spec/40_loads_stores.md R287, R288, spec/20_memory.md R181, R182: SC and SCD are refused at an uncached address, and at another address
than that of the LL they go with; without the link they store nothing and write 0; with it they store as a cached store does and write 1.
The model's choices: an SC with the link broken goes with the LL since the last ERET or cold reset, and an SC with the unspecified link of a
cold reset is held to the unspecified link address (log entry 54); the way a miss replaces and
its read behind the buffered writes (log entries 13, 42); of the stored bytes' check bits the even parity (log entry 16) and the order of the
bits of ECC (log entry 52). -/
def Obligations.StoreConditional : Prop :=
  ∀ (i : Instr) (s : State) (f : ScForm) (pa : PAddr) (c : BitVec 3) (bs : List Byte), Memory.wf s.mem → scForm s i = some f →
    WideOk f.wide s → PlainOrder s → Reaches s .store f.va f.n pa c → bs = bytesOfValue s.boot.bigEndianMem f.n (readGpr s f.rt) →
    (c = 2 → exec i s = .refused .scUncached) ∧
    (c ≠ 2 → s.llBit = true ∨ s.linkKnown = true → pa ≠ s.linkAddr → exec i s = .refused .scOtherAddress) ∧
    (c ≠ 2 → s.llBit = false → s.linkKnown = false ∨ pa = s.linkAddr → ∃ t, exec i s = .next t ∧ WritesGpr f.rt 0 s t) ∧
    (c ≠ 2 → s.llBit = true → pa = s.linkAddr →
      StoreHit f.va pa c bs (ScRest f.rt s) s (exec i s) ∧ StoreMiss f.va pa c bs (ScRest f.rt s) s (exec i s))

/-! ## Address translation -/

/-- spec/20_memory.md R152 to R157, R159: the segments. With ERL set the low 2 Gbytes are unmapped and uncached. With 32-bit addressing user
mode has the low 2 Gbytes, mapped; kernel mode has besides them kseg0 and kseg1, unmapped, and the mapped top of the address space;
supervisor mode the low 2 Gbytes and sseg. With 64-bit addressing the user region is 1 Tbyte, supervisor mode has xsseg and csseg besides,
kernel mode xksseg, xkphys, xkseg and the four compatibility segments. -/
def Obligations.AddressSegments : Prop :=
  ∀ (t : StatusReg) (k0 : BitVec 3) (va : Dword),
    (t.erl = true → va < 0x80000000 → segmentOf t k0 va = .unmapped (BitVec.ofNat 36 va.toNat) 2) ∧
    (t.erl = false → va < 0x80000000 → segmentOf t k0 va = .mapped) ∧
    (extendedAddressing t = false → 0x80000000 ≤ va →
      (modeOf t = .user → segmentOf t k0 va = .addressError) ∧
      (modeOf t = .supervisor →
        segmentOf t k0 va = if 0xFFFFFFFFC0000000 ≤ va ∧ va ≤ 0xFFFFFFFFDFFFFFFF then .mapped else .addressError) ∧
      (modeOf t = .kernel → va < 0xFFFFFFFF80000000 → segmentOf t k0 va = .addressError)) ∧
    (extendedAddressing t = true → 0x80000000 ≤ va → va < 0x10000000000 → segmentOf t k0 va = .mapped) ∧
    (extendedAddressing t = true → 0x10000000000 ≤ va →
      (modeOf t = .user → segmentOf t k0 va = .addressError) ∧
      (modeOf t = .supervisor → segmentOf t k0 va =
        if (0x4000000000000000 ≤ va ∧ va ≤ 0x400000FFFFFFFFFF) ∨ (0xFFFFFFFFC0000000 ≤ va ∧ va ≤ 0xFFFFFFFFDFFFFFFF) then .mapped
        else .addressError) ∧
      (modeOf t = .kernel → va < 0x8000000000000000 →
        segmentOf t k0 va = if 0x4000000000000000 ≤ va ∧ va ≤ 0x400000FFFFFFFFFF then .mapped else .addressError) ∧
      (modeOf t = .kernel → 0x8000000000000000 ≤ va → va < 0xC000000000000000 →
        segmentOf t k0 va = if va.toNat / 2 ^ 36 % 2 ^ 23 = 0 then
          .unmapped (BitVec.ofNat 36 (va.toNat % 2 ^ 36)) (BitVec.ofNat 3 (va.toNat / 2 ^ 59 % 8)) else .addressError) ∧
      (modeOf t = .kernel → 0xC000000000000000 ≤ va → va < 0xFFFFFFFF80000000 →
        segmentOf t k0 va = if va ≤ 0xC00000FF7FFFFFFF then .mapped else .addressError)) ∧
    (modeOf t = .kernel → 0xFFFFFFFF80000000 ≤ va → va < 0xFFFFFFFFA0000000 →
      segmentOf t k0 va = .unmapped (BitVec.ofNat 36 (va.toNat % 2 ^ 29)) k0) ∧
    (modeOf t = .kernel → 0xFFFFFFFFA0000000 ≤ va → va < 0xFFFFFFFFC0000000 →
      segmentOf t k0 va = .unmapped (BitVec.ofNat 36 (va.toNat % 2 ^ 29)) 2) ∧
    (modeOf t = .kernel → 0xFFFFFFFFC0000000 ≤ va → segmentOf t k0 va = .mapped)

/-- spec/20_memory.md R162 to R165: a mapped address no entry matches raises TLB Refill; one that exactly entry `i` matches raises TLB
Invalid or TLB Modified by the half's V and D bits, or translates to that half's page; two matches are refused. -/
def Obligations.TlbTranslation : Prop :=
  ∀ (v : State) (kind : AccessKind) (va : Dword), segmentOf v.cp0.status v.cp0.configK0 va = .mapped →
    ((∀ j : Fin 48, ¬EntryMatches v.tlb[j] (va.extractLsb' 62 2) (va.extractLsb' 13 27) v.cp0.entryHi.asid) →
      translate v kind va = .error (.exc (.tlbRefill (kind == .store) va))) ∧
    (∀ (i : Fin 48) (w : Nat) (pfn : BitVec 24) (c : BitVec 3) (d valid : Bool),
      (∀ j : Fin 48, EntryMatches v.tlb[j] (va.extractLsb' 62 2) (va.extractLsb' 13 27) v.cp0.entryHi.asid ↔ j = i) →
      pageWidth v.tlb[i].mask = some w →
      (pfn, c, d, valid) = (if va.toNat / 2 ^ w % 2 = 1 then (v.tlb[i].pfn1, v.tlb[i].c1, v.tlb[i].d1, v.tlb[i].v1)
        else (v.tlb[i].pfn0, v.tlb[i].c0, v.tlb[i].d0, v.tlb[i].v0)) →
      (valid = false → translate v kind va = .error (.exc (.tlbInvalid (kind == .store) va))) ∧
      (valid = true → kind = .store → d = false → translate v kind va = .error (.exc (.tlbModified va))) ∧
      (valid = true → (kind = .store → d = true) → c < 4 →
        translate v kind va = .ok (BitVec.ofNat 36 (pfn.toNat * 2 ^ 12 / 2 ^ w * 2 ^ w + va.toNat % 2 ^ w), c))) ∧
    ∀ i j : Fin 48, i ≠ j → EntryMatches v.tlb[i] (va.extractLsb' 62 2) (va.extractLsb' 13 27) v.cp0.entryHi.asid →
      EntryMatches v.tlb[j] (va.extractLsb' 62 2) (va.extractLsb' 13 27) v.cp0.entryHi.asid →
      translate v kind va = .error (.refuse .tlbMultipleMatch)

/-! ## CP0 -/

/-- spec/45_cp0_system.md R471, R473: MFC0 reads the low 32 bits of a CP0 register, sign-extended; DMFC0 all 64 bits of a 64-bit one;
the register as the reader sees it. -/
def Obligations.MovesFromCp0 : Prop :=
  ∀ (s : State) (rt rd : RegNum), Cp0Ok s → cp0Exists rd = true →
    (∃ t, exec (.mfc0 rt rd) s = .next t ∧
      WritesGpr rt (word32 ((cp0Value (seen .cp0Read s) rd).toNat % 2 ^ 32 : Nat)) s t) ∧
    (WideOk true s → cp0Is64 rd = true →
      ∃ t, exec (.dmfc0 rt rd) s = .next t ∧ WritesGpr rt (cp0Value (seen .cp0Read s) rd) s t)

/-- spec/45_cp0_system.md R472, R474, R475: a move to a CP0 register writes exactly the register's writable bits; Wired also sets Random
to 47, Compare withdraws the timer interrupt, which of Cause can change IP7 only; no other CP0 register and nothing outside CP0 changes, but
for the floating-point registers when FR changes, and the caches when K0 or SE does. -/
def Obligations.MovesToCp0 : Prop :=
  ∀ (i : Instr) (s : State) (rt rd : RegNum), Cp0Ok s → cp0Exists rd = true → Cp0Writable rd (readGpr s rt) →
    (i = .mtc0 rt rd ∨ (i = .dmtc0 rt rd ∧ WideOk true s ∧ cp0Is64 rd = true)) →
    ∃ t, exec i s = .next t ∧
      cp0Value t rd = (readGpr s rt &&& cp0Mask rd) ||| (cp0Value s rd &&& ~~~cp0Mask rd) ∧
      (∀ m, cp0Exists m = true → m ≠ rd → ¬(rd = 6 ∧ m = 1) → ¬(rd = 11 ∧ m = 13) → cp0Value t m = cp0Value s m) ∧
      (rd = 6 → t.cp0.random = 47) ∧
      (rd = 11 → t.timerInt = false ∧ cp0Value t 13 &&& ~~~0x8000 = cp0Value s 13 &&& ~~~0x8000) ∧
      (rd ≠ 11 → t.timerInt = s.timerInt) ∧ SameCpu s t ∧ t.tlb = s.tlb ∧ SameLink s t ∧ t.fcr31 = s.fcr31 ∧
      (t.cp0.status.fr = s.cp0.status.fr → t.fgr = s.fgr) ∧ t.wb = s.wb ∧ t.intReg = s.intReg ∧ t.standby = s.standby ∧ t.boot = s.boot ∧
      (∀ a, memRead t.mem a = memRead s.mem a) ∧
      (t.cp0.configK0 = s.cp0.configK0 → t.cp0.configSE = s.cp0.configSE → SameDCache s t ∧ SameICache s t ∧ SameSCache s t) ∧
      WentOn s t

/-- What the spec has a model refuse: moves of reserved CP0 registers, doubleword moves of 32-bit ones, values of Wired, Config and Status
without a meaning (spec/10_state.md R41, R61, spec/45_cp0_system.md R473, R474, spec/92_eei_decisions.md D26, D35, D39); CACHE operations on
lines by content at an uncached address, a tag of a state the processor does not use, the secondary ones without a secondary cache or
without flash clear, a page that is not aligned (spec/45_cp0_system.md R490, R494, R500, R505, R508); TLBR and TLBWI of an entry above 47, TLBWI and
TLBWR with a PageMask outside the table, a reserved attribute or a page frame below the page size (R482, R483, R484); an odd floating-point
register while FR = 0 (spec/46_fpu_moves.md R521, spec/47_fpu_arith.md R574). -/
def Obligations.RefusedForms : Prop :=
  (∀ (s : State) (rt rd : RegNum), Cp0Ok s →
    (cp0Exists rd = false →
      exec (.mfc0 rt rd) s = .refused .reservedCp0Register ∧ exec (.mtc0 rt rd) s = .refused .reservedCp0Register) ∧
    (WideOk true s → cp0Exists rd = false →
      exec (.dmfc0 rt rd) s = .refused .reservedCp0Register ∧ exec (.dmtc0 rt rd) s = .refused .reservedCp0Register) ∧
    (WideOk true s → cp0Exists rd = true → cp0Is64 rd = false →
      exec (.dmfc0 rt rd) s = .refused .doublewordMoveOf32 ∧ exec (.dmtc0 rt rd) s = .refused .doublewordMoveOf32) ∧
    (47 < (readGpr s rt).toNat % 64 → exec (.mtc0 rt 6) s = .refused .wiredRange) ∧
    (4 ≤ (readGpr s rt).toNat % 8 → exec (.mtc0 rt 16) s = .refused .reservedAttribute) ∧
    ((readGpr s rt).toNat / 2 % 16 = 12 → exec (.mtc0 rt 12) s = .refused .reservedMode)) ∧
  (∀ (s : State) (o : BitVec 16) (b : RegNum) (pa : PAddr) (c : BitVec 3), CacheOk s (effectiveAddress s b o) pa c →
    (c = 2 → ∀ i ∈ [Instr.cacheIHitInvalidate o b, .cacheIFill o b, .cacheIHitWriteback o b, .cacheDCreateDirtyExclusive o b,
      .cacheDHitInvalidate o b, .cacheDHitWritebackInvalidate o b, .cacheDHitWriteback o b], exec i s = .refused .cacheOpUncached) ∧
    ((tagLoSeen s).extractLsb' 6 2 ≠ 0 → exec (.cacheIIndexStoreTag o b) s = .refused .cacheTagState) ∧
    ((tagLoSeen s).extractLsb' 6 2 = 1 ∨ (tagLoSeen s).extractLsb' 6 2 = 2 →
      exec (.cacheDIndexStoreTag o b) s = .refused .cacheTagState) ∧
    (s.boot.scEnable = false → ∀ i ∈ [Instr.cacheSValidClear o b, .cacheSIndexLoadTag o b, .cacheSIndexStoreTag o b,
      .cacheSCachePageInvalidate o b], exec i s = .refused .noSecondaryCache) ∧
    (s.boot.scEnable = true → s.boot.scFlashClear = false → exec (.cacheSValidClear o b) s = .refused .noFlashClear) ∧
    (s.boot.scEnable = true → pa.toNat % 2 ^ 12 ≠ 0 →
      exec (.cacheSCachePageInvalidate o b) s = .refused .pageInvalidateAlignment)) ∧
  (∀ (i : Instr) (s : State) (f : FpForm), fpForm s i = some f → Cp1Ok s → (f.mips4 = true → Mips4Ok s) →
    ¬FprsOk (f.fd :: f.srcs) s → exec i s = .refused .oddFpr) ∧
  (∀ (i : Instr) (s : State) (c : CompareForm), compareForm i = some c → Cp1Ok s → (c.cc ≠ 0 → Mips4Ok s) →
    ¬FprsOk [c.fs, c.ft] s → exec i s = .refused .oddFpr) ∧
  (∀ (i : Instr) (s : State) (f : FpMoveForm), fpMoveForm s i = some f → Cp1Ok s → (f.mips4 = true → Mips4Ok s) →
    ¬FprsOk [f.fd, f.fs] s → exec i s = .refused .oddFpr) ∧
  (∀ (s : State) (rt fs : RegNum), Cp1Ok s → WideOk true s → ¬FprsOk [fs] s →
    exec (.dmfc1 rt fs) s = .refused .oddFpr ∧ exec (.dmtc1 rt fs) s = .refused .oddFpr) ∧
  (∀ (i : Instr) (s : State) (f : FpMemForm), fpLoadForm s i = some f ∨ fpStoreForm s i = some f → f.f = .D → Cp1Ok s →
    (f.base.isSome = true → Mips4Ok s) → SameRegion f s → ¬FprsOk [f.reg] s → exec i s = .refused .oddFpr) ∧
  (∀ s : State, Cp0Ok s → Settled s → 48 ≤ s.cp0.index.toNat →
    exec .tlbr s = .refused .tlbIndexRange ∧ exec .tlbwi s = .refused .tlbIndexRange) ∧
  ∀ (i : Instr) (s : State) (k : Fin 48), Cp0Ok s → Settled s →
    (i = .tlbwi ∧ s.cp0.index.toNat = k.val ∨ i = .tlbwr ∧ s.cp0.random.toNat = k.val) →
    (pageWidth s.cp0.pageMask = none → exec i s = .refused .pageMaskUndefined) ∧
    ∀ w, pageWidth s.cp0.pageMask = some w →
      (4 ≤ s.cp0.entryLo0.c ∨ 4 ≤ s.cp0.entryLo1.c → exec i s = .refused .reservedAttribute) ∧
      (s.cp0.entryLo0.c < 4 → s.cp0.entryLo1.c < 4 →
        s.cp0.entryLo0.pfn.toNat % 2 ^ (w - 12) ≠ 0 ∨ s.cp0.entryLo1.pfn.toNat % 2 ^ (w - 12) ≠ 0 → exec i s = .refused .pfnBelowPageSize)

/-- spec/45_cp0_system.md R481, R482, where no pending write is held back. TLBP: Index names the one entry EntryHi matches, or P is set;
two matches are refused. TLBR loads PageMask, EntryHi and both EntryLo from the entry Index names, which is below 48. Nothing else
changes. -/
def Obligations.TlbProbeAndRead : Prop :=
  (∀ s : State, Cp0Ok s → Settled s →
    (∀ i : Fin 48, (∀ j : Fin 48, EntryMatches s.tlb[j] s.cp0.entryHi.r s.cp0.entryHi.vpn2 s.cp0.entryHi.asid ↔ j = i) →
      ∃ t, exec .tlbp s = .next t ∧ t.cp0 = { s.cp0 with indexP := false, index := BitVec.ofNat 6 i.val } ∧ t.tlb = s.tlb ∧
        SameCpu s t ∧ SameFpu s t ∧ SameLink s t ∧ SamePlatform s t ∧ SameMemory s t ∧ WentOn s t) ∧
    ((∀ j : Fin 48, ¬EntryMatches s.tlb[j] s.cp0.entryHi.r s.cp0.entryHi.vpn2 s.cp0.entryHi.asid) →
      ∃ t v, exec .tlbp s = .next t ∧ t.cp0 = { s.cp0 with indexP := true, index := v } ∧ t.tlb = s.tlb ∧
        SameCpu s t ∧ SameFpu s t ∧ SameLink s t ∧ SamePlatform s t ∧ SameMemory s t ∧ WentOn s t) ∧
    ∀ i j : Fin 48, i ≠ j → EntryMatches s.tlb[i] s.cp0.entryHi.r s.cp0.entryHi.vpn2 s.cp0.entryHi.asid →
      EntryMatches s.tlb[j] s.cp0.entryHi.r s.cp0.entryHi.vpn2 s.cp0.entryHi.asid → exec .tlbp s = .refused .tlbMultipleMatch) ∧
  ∀ (s : State) (i : Fin 48), Cp0Ok s → Settled s → s.cp0.index = BitVec.ofNat 6 i.val →
    ∃ t, exec .tlbr s = .next t ∧
      t.cp0 = { s.cp0 with
        pageMask := s.tlb[i].mask
        entryHi := ⟨s.tlb[i].r, s.tlb[i].vpn2, s.tlb[i].asid⟩
        entryLo0 := ⟨s.tlb[i].pfn0, s.tlb[i].c0, s.tlb[i].d0, s.tlb[i].v0, s.tlb[i].g⟩
        entryLo1 := ⟨s.tlb[i].pfn1, s.tlb[i].c1, s.tlb[i].d1, s.tlb[i].v1, s.tlb[i].g⟩ } ∧
      t.tlb = s.tlb ∧ SameCpu s t ∧ SameFpu s t ∧ SameLink s t ∧ SamePlatform s t ∧ SameMemory s t ∧ WentOn s t

/-- spec/45_cp0_system.md R483, R484, spec/10_state.md R46: TLBWI writes the entry Index names, TLBWR the one Random names, from
PageMask, EntryHi and both EntryLo, when mask, attributes and page frames are legal; every other entry and everything else is as before;
TLBWR leaves the wired entries alone. The model's choice (log entry 34): a write that makes two entries able to match one address is made,
though R483 lists it among the refused; the access that two entries match is what is refused. -/
def Obligations.TlbWrites : Prop :=
  (∀ (i : Instr) (s : State) (k : Fin 48) (w : Nat), Cp0Ok s → Settled s →
    (i = .tlbwi ∧ s.cp0.index.toNat = k.val ∨ i = .tlbwr ∧ s.cp0.random.toNat = k.val) → pageWidth s.cp0.pageMask = some w →
    s.cp0.entryLo0.c < 4 → s.cp0.entryLo1.c < 4 → s.cp0.entryLo0.pfn.toNat % 2 ^ (w - 12) = 0 →
    s.cp0.entryLo1.pfn.toNat % 2 ^ (w - 12) = 0 →
    ∃ t, exec i s = .next t ∧
      t.tlb[k] = { mask := s.cp0.pageMask, r := s.cp0.entryHi.r,
                   vpn2 := s.cp0.entryHi.vpn2 &&& ~~~(s.cp0.pageMask.setWidth 27), asid := s.cp0.entryHi.asid,
                   g := s.cp0.entryLo0.g && s.cp0.entryLo1.g,
                   pfn0 := s.cp0.entryLo0.pfn, c0 := s.cp0.entryLo0.c, d0 := s.cp0.entryLo0.d, v0 := s.cp0.entryLo0.v,
                   pfn1 := s.cp0.entryLo1.pfn, c1 := s.cp0.entryLo1.c, d1 := s.cp0.entryLo1.d, v1 := s.cp0.entryLo1.v } ∧
      (∀ j : Fin 48, j ≠ k → t.tlb[j] = s.tlb[j]) ∧ t.cp0 = s.cp0 ∧ SameCpu s t ∧ SameFpu s t ∧ SameLink s t ∧ SamePlatform s t ∧
      SameMemory s t ∧ WentOn s t) ∧
  ∀ (s t : State) (j : Fin 48), Inv s → exec .tlbwr s = .next t → j.val < s.cp0.wired.toNat → t.tlb[j] = s.tlb[j]

/-- spec/45_cp0_system.md R486: ERET, where no pending write is held back: to ErrorEPC clearing ERL, or to EPC clearing EXL; no delay
slot; the link breaks; no other register changes. -/
def Obligations.ExceptionReturn : Prop :=
  ∀ s : State, Cp0Ok s → Settled s → s.delay = none →
    ∃ t, exec .eret s = .next t ∧ t.delay = none ∧ t.llBit = false ∧ t.linkKnown = false ∧ t.linkAddr = s.linkAddr ∧
      t.tlb = s.tlb ∧ SameCpu s t ∧ SameFpu s t ∧ SameMemory s t ∧ SamePlatform s t ∧
      if s.cp0.status.erl then t.pc = s.cp0.errorEpc ∧ t.cp0 = { s.cp0 with status := { s.cp0.status with erl := false } }
      else t.pc = s.cp0.epc ∧ t.cp0 = { s.cp0 with status := { s.cp0.status with exl := false } }

/-- spec/45_cp0_system.md R512: WAIT enters Standby if the bus is idle, which it is not while a write is buffered; no register changes.
spec/60_exceptions.md R830: in Standby, with no wake event, no instruction executes and every register keeps its value: no interrupt pin,
NMI* or ExtRqst* is asserted, no external request comes, and no timer interrupt. The model's choice (log entry 27): the timer latch alone is no
timer interrupt while TmrIntEn takes it off IP7 (R793), nor is the Interrupt register a wake event. -/
def Obligations.WaitAndStandby : Prop :=
  (∀ s : State, Cp0Ok s →
    ∃ t, exec .wait s = .next t ∧ t.standby = (s.standby || s.inp.sysADIdle && s.wb.isEmpty) ∧ SameCpu s t ∧ SameFpu s t ∧
      t.cp0 = s.cp0 ∧ t.tlb = s.tlb ∧ SameLink s t ∧ SameMemory s t ∧ t.timerInt = s.timerInt ∧ t.intReg = s.intReg ∧
      t.boot = s.boot ∧ WentOn s t) ∧
  ∀ s t : State, applyExts (nextInput s).ext (arrived s) = .ok () t → t.inp.reset = none → t.nmiPending = 0 →
    t.standby = true → (t.intPin = 0 ∧ t.nmiPin = false ∧ (t.timerInt = false ∨ t.boot.tmrIntEn = true) ∧
      t.inp.extRqst = false ∧ t.inp.ext = []) →
    ∃ u, step s = .next u ∧ u.standby = true ∧ u.pc = t.pc ∧ u.delay = t.delay ∧ SameCpu t u ∧ SameFpu t u ∧ u.cp0 = t.cp0 ∧
      u.tlb = t.tlb ∧ SameLink t u ∧ SameMemory t u

/-! ## CACHE -/

/-- spec/45_cp0_system.md R492 to R497: the operations on the instruction cache at an address that translates: Index Invalidate, Hit
Invalidate (a line held, or none), Index Load Tag, Index Store Tag of an invalid state, which leaves the FIFO bit open, Fill, Hit Writeback of
a line with right parity, which stands in the write buffer behind everything else. The model's choices: an Index operation names its way by
address bit 14 (log entry 30, PRESUMED); the way of a Fill, and that the FIFO bit then names the other (log entry 13); a Fill takes bit k of
ECC for word k of the line in memory order (log entry 52) and reads behind the buffered writes (log entry 42); the check bits of a line written back (log entry 53), and that its page is the access's (log entry 55). -/
def Obligations.InstructionCacheOperations : Prop :=
  ∀ (s : State) (o : BitVec 16) (b : RegNum) (va : Dword) (pa : PAddr) (c : BitVec 3), va = effectiveAddress s b o →
    CacheOk s va pa c →
    (∃ t, exec (.cacheIIndexInvalidate o b) s = .next t ∧ CacheFrame s.cp0 s t ∧ SameOutside s t ∧ SameDCache s t ∧
      SameSCache s t ∧ SameLink s t ∧
      OnlyILine (setIndex va) (va.getLsbD 14) (itagged { iwayOf (isetAt s (setIndex va)) (va.getLsbD 14) with valid := false }) s t) ∧
    (c ≠ 2 → ∃ t, exec (.cacheIHitInvalidate o b) s = .next t ∧ CacheFrame s.cp0 s t ∧ SameOutside s t ∧ SameDCache s t ∧
      SameSCache s t ∧ SameLink s t ∧ (ihit (isetAt s (setIndex va)) (primaryTag pa) = none → SameICache s t) ∧
      ∀ way, ihit (isetAt s (setIndex va)) (primaryTag pa) = some way →
        OnlyILine (setIndex va) way (itagged { iwayOf (isetAt s (setIndex va)) way with valid := false }) s t) ∧
    (∃ t v, exec (.cacheIIndexLoadTag o b) s = .next t ∧ CacheFrame { s.cp0 with tagLo := v, tagHi := 0 } s t ∧
      v.extractLsb' 8 24 = (iwayOf (isetAt s (setIndex va)) (va.getLsbD 14)).tag ∧
      (v.extractLsb' 6 2 = 0 ↔ (iwayOf (isetAt s (setIndex va)) (va.getLsbD 14)).valid = false) ∧ SameICache s t ∧
      SameOutside s t ∧ SameDCache s t ∧ SameSCache s t ∧ SameLink s t) ∧
    ((tagLoSeen s).extractLsb' 6 2 = 0 → ∃ t l, exec (.cacheIIndexStoreTag o b) s = .next t ∧ CacheFrame s.cp0 s t ∧
      SameOutside s t ∧ SameDCache s t ∧ SameSCache s t ∧ SameLink s t ∧ l.valid = false ∧ l.tag = (tagLoSeen s).extractLsb' 8 24 ∧
      PutILine (setIndex va) (va.getLsbD 14) l s t) ∧
    (∀ d, c ≠ 2 → BlockAnswered s pa c d →
      ∃ t l, exec (.cacheIFill o b) s = .next t ∧ CacheFrame s.cp0 s t ∧ SameOutside (drainAll s) t ∧ SameDCache s t ∧ SameLink s t ∧
        SecondaryFilled pa c d s t ∧ l.valid = true ∧ l.tag = primaryTag pa ∧ itagBad l = false ∧ l.data = d.1 ∧
        l.par = (seen .data s).cp0.ecc ∧
        ∀ way, way = (ihit (isetAt s (setIndex va)) (primaryTag pa)).getD (isetAt s (setIndex va)).fifo →
          PutILine (setIndex va) way l s t ∧ (isetAt t (setIndex va)).fifo = !way) ∧
    (c ≠ 2 → ihit (isetAt s (setIndex va)) (primaryTag pa) = none → ∃ t, exec (.cacheIHitWriteback o b) s = .next t ∧
      CacheFrame s.cp0 s t ∧ SameOutside s t ∧ SameICache s t ∧ SameDCache s t ∧ SameSCache s t ∧ SameLink s t) ∧
    ∀ way l, Memory.wf s.mem → c ≠ 2 → ihit (isetAt s (setIndex va)) (primaryTag pa) = some way →
      l = iwayOf (isetAt s (setIndex va)) way → wordPar (linePar l.data) 8 = l.par →
      ∃ t vi, exec (.cacheIHitWriteback o b) s = .next t ∧ CacheFrame s.cp0 s t ∧
        StoredInMemory (lineAddress l.tag (setIndex va)) (lineBytes l.data 0 32) s t ∧
        t.wb = [.block (lineAddress l.tag (setIndex va)) vi true (c == 3) (lineBytes l.data 0 32) (linePar l.data)] ∧
        SameSCache (drainAll s) t ∧ SameICache s t ∧ SameDCache s t ∧ SameLink s t

/-- spec/45_cp0_system.md R498 to R504, spec/20_memory.md R181: the operations on the data cache at an address that translates:
write-back of a modified line with right parity, which then stands in the write buffer behind everything else, invalidation, which breaks a
link to the line, the tag moves; a line that is not modified Hit Writeback leaves alone, and Index Store Tag leaves the FIFO bit open. Create
Dirty Exclusive marks a held line modified; else it makes the line in the way the FIFO bit names, without reading memory, and the line it replaces goes to memory
if it is modified. The model's choices: an Index operation names its way by address bit 14 (log entry 30, PRESUMED); the way Create Dirty
Exclusive replaces (log entries 13, 18); that it keeps the state of a held line, also state 1 or 2 (log entry 56); the order of the bits of
ECC (log entry 52). -/
def Obligations.DataCacheOperations : Prop :=
  (∀ (s : State) (o : BitVec 16) (b : RegNum) (va : Dword) (pa : PAddr) (c : BitVec 3), Memory.wf s.mem →
    va = effectiveAddress s b o → CacheOk s va pa c →
    (∀ l, l = dwayOf (dsetAt s (setIndex va)) (va.getLsbD 14) → ((dvalid l && l.w) = true → badBytes l.data l.par = 0) →
      ∃ t, exec (.cacheDIndexWritebackInvalidate o b) s = .next t ∧ CacheFrame s.cp0 s t ∧ WrittenBack l (setIndex va) s t ∧
        SecondaryWrittenBack l s t ∧ LinkBroken l (setIndex va) s t ∧ SameICache s t ∧
        OnlyDLine (setIndex va) (va.getLsbD 14) (dtagged { l with state := 0 }) s t) ∧
    (c ≠ 2 → dhit (dsetAt s (setIndex va)) (primaryTag pa) = none →
      (∃ t, exec (.cacheDHitInvalidate o b) s = .next t ∧ CacheFrame s.cp0 s t ∧ SameOutside s t ∧ SameDCache s t ∧
        SameICache s t ∧ SameSCache s t ∧ SameLink s t) ∧
      (∃ t, exec (.cacheDHitWritebackInvalidate o b) s = .next t ∧ CacheFrame s.cp0 s t ∧ SameOutside s t ∧ SameDCache s t ∧
        SameICache s t ∧ SameSCache s t ∧ SameLink s t) ∧
      ∃ t, exec (.cacheDHitWriteback o b) s = .next t ∧ CacheFrame s.cp0 s t ∧ SameOutside s t ∧ SameDCache s t ∧
        SameICache s t ∧ SameSCache s t ∧ SameLink s t) ∧
    (∀ way l, c ≠ 2 → dhit (dsetAt s (setIndex va)) (primaryTag pa) = some way → l = dwayOf (dsetAt s (setIndex va)) way →
      (∃ t, exec (.cacheDHitInvalidate o b) s = .next t ∧ CacheFrame s.cp0 s t ∧ SameOutside s t ∧ LinkBroken l (setIndex va) s t ∧
        SameICache s t ∧ SameSCache s t ∧ OnlyDLine (setIndex va) way (dtagged { l with state := 0 }) s t) ∧
      (badBytes l.data l.par = 0 →
        (∃ t, exec (.cacheDHitWritebackInvalidate o b) s = .next t ∧ CacheFrame s.cp0 s t ∧ WrittenBack l (setIndex va) s t ∧
          SecondaryWrittenBack l s t ∧ LinkBroken l (setIndex va) s t ∧ SameICache s t ∧
          OnlyDLine (setIndex va) way (dtagged { l with state := 0 }) s t) ∧
        (l.w = true → ∃ t, exec (.cacheDHitWriteback o b) s = .next t ∧ CacheFrame s.cp0 s t ∧ WrittenBack l (setIndex va) s t ∧
          SameSCache (drainAll s) t ∧ SameLink s t ∧ SameICache s t ∧
          OnlyDLine (setIndex va) way (dtagged { l with w := false }) s t)) ∧
      (l.w = false → ∃ t, exec (.cacheDHitWriteback o b) s = .next t ∧ CacheFrame s.cp0 s t ∧ SameOutside s t ∧ SameDCache s t ∧
        SameICache s t ∧ SameSCache s t ∧ SameLink s t)) ∧
    (∃ t v p, exec (.cacheDIndexLoadTag o b) s = .next t ∧ CacheFrame { s.cp0 with tagLo := v, tagHi := 0, ecc := p } s t ∧
      v.extractLsb' 8 24 = (dwayOf (dsetAt s (setIndex va)) (va.getLsbD 14)).tag ∧
      v.extractLsb' 6 2 = (dwayOf (dsetAt s (setIndex va)) (va.getLsbD 14)).state ∧
      (∀ k < 8, p.getLsbD (if s.boot.bigEndianMem then 7 - k else k) =
        (dwayOf (dsetAt s (setIndex va)) (va.getLsbD 14)).par.getLsbD (va.toNat / 8 % 4 * 8 + k)) ∧
      SameDCache s t ∧ SameICache s t ∧ SameSCache s t ∧ SameOutside s t ∧ SameLink s t) ∧
    ((tagLoSeen s).extractLsb' 6 2 = 0 ∨ (tagLoSeen s).extractLsb' 6 2 = 3 → ∃ t l, exec (.cacheDIndexStoreTag o b) s = .next t ∧
      CacheFrame s.cp0 s t ∧ SameOutside s t ∧ SameICache s t ∧ SameSCache s t ∧ l.state = (tagLoSeen s).extractLsb' 6 2 ∧
      l.tag = (tagLoSeen s).extractLsb' 8 24 ∧ l.data = (dwayOf (dsetAt s (setIndex va)) (va.getLsbD 14)).data ∧
      LinkBroken (dwayOf (dsetAt s (setIndex va)) (va.getLsbD 14)) (setIndex va) s t ∧
      PutDLine (setIndex va) (va.getLsbD 14) l s t)) ∧
  ∀ (s : State) (o : BitVec 16) (b : RegNum) (va : Dword) (pa : PAddr) (c : BitVec 3), Memory.wf s.mem →
    va = effectiveAddress s b o → CacheOk s va pa c → c ≠ 2 →
    (∀ way, dhit (dsetAt s (setIndex va)) (primaryTag pa) = some way →
      ∃ t, exec (.cacheDCreateDirtyExclusive o b) s = .next t ∧ CacheFrame s.cp0 s t ∧ SameOutside s t ∧ SameICache s t ∧
        SameLink s t ∧ SameSCache s t ∧
        OnlyDLine (setIndex va) way (dtagged { dwayOf (dsetAt s (setIndex va)) way with w := true, wbPage := c == 3 }) s t) ∧
    ∀ old, dhit (dsetAt s (setIndex va)) (primaryTag pa) = none →
      old = dwayOf (dsetAt s (setIndex va)) (dsetAt s (setIndex va)).fifo →
      ((dvalid old && old.w) = true → badBytes old.data old.par = 0) →
      ∃ t l, exec (.cacheDCreateDirtyExclusive o b) s = .next t ∧ CacheFrame s.cp0 s t ∧ WrittenBack old (setIndex va) s t ∧
        SecondaryWrittenBack old s t ∧ LinkBroken old (setIndex va) s t ∧ SameICache s t ∧ l.state = 3 ∧ l.tag = primaryTag pa ∧ l.w = true ∧
        dtagBad l = false ∧ badBytes l.data l.par = 0 ∧ PutDLine (setIndex va) (dsetAt s (setIndex va)).fifo l s t ∧
        (dsetAt t (setIndex va)).fifo = !(dsetAt s (setIndex va)).fifo

/-- spec/45_cp0_system.md R505 to R508: the operations on the secondary cache, where one is configured: clearing every valid bit, the tag
moves, the 128 lines of a page. That they run whatever Config.SE holds is the model's choice (log entry 20): R505 says that it is not
stated. -/
def Obligations.SecondaryCacheOperations : Prop :=
  ∀ (s : State) (o : BitVec 16) (b : RegNum) (va : Dword) (pa : PAddr) (c : BitVec 3), va = effectiveAddress s b o →
    CacheOk s va pa c → s.boot.scEnable = true →
    (s.boot.scFlashClear = true → ∃ t, exec (.cacheSValidClear o b) s = .next t ∧ CacheFrame s.cp0 s t ∧ SameOutside s t ∧
      SameDCache s t ∧ SameICache s t ∧ SameLink s t ∧ ∀ j, (slineAt t j).valid = false) ∧
    (∃ t v, exec (.cacheSIndexLoadTag o b) s = .next t ∧ CacheFrame { s.cp0 with tagLo := v } s t ∧ SameOutside s t ∧
      SameDCache s t ∧ SameICache s t ∧ SameSCache s t ∧ SameLink s t ∧
      v.extractLsb' 15 17 = (slineAt s (scacheIndex s.boot pa)).tag ∧
      v.getLsbD 12 = (slineAt s (scacheIndex s.boot pa)).valid) ∧
    (∃ t, exec (.cacheSIndexStoreTag o b) s = .next t ∧ CacheFrame s.cp0 s t ∧ SameOutside s t ∧ SameDCache s t ∧ SameICache s t ∧
      SameLink s t ∧ (∀ j, j ≠ scacheIndex s.boot pa → slineAt t j = slineAt s j) ∧
      slineAt t (scacheIndex s.boot pa) = { slineAt s (scacheIndex s.boot pa) with
        valid := (tagLoSeen s).getLsbD 12, tag := (tagLoSeen s).extractLsb' 15 17 }) ∧
    (pa.toNat % 2 ^ 12 = 0 → ∃ t, exec (.cacheSCachePageInvalidate o b) s = .next t ∧ CacheFrame s.cp0 s t ∧ SameOutside s t ∧
      SameDCache s t ∧ SameICache s t ∧ SameLink s t ∧
      ∀ j, slineAt t j = if scacheIndex s.boot pa ≤ j ∧ j < scacheIndex s.boot pa + 128 then
        { slineAt s j with valid := (tagLoSeen s).getLsbD 12, tag := (tagLoSeen s).extractLsb' 15 17 } else slineAt s j)

/-! ## The gates (spec/30_encoding.md R236, R237) -/

/-- spec/30_encoding.md R236, spec/45_cp0_system.md R470: every instruction of coprocessor 0 while it is not usable takes Coprocessor
Unusable, and so does every instruction of coprocessor 1, MOVF and MOVT. -/
def Obligations.CoprocessorUnusable : Prop :=
  (∀ (i : Instr) (s : State), usesCop0 i = true → ¬Cp0Ok s → exec i s = .next (takeException (.coprocessorUnusable 0) s)) ∧
  ∀ (i : Instr) (s : State), usesCop1 i = true → ¬Cp1Ok s → exec i s = .next (takeException (.coprocessorUnusable 1) s)

/-- spec/30_encoding.md R237, R239: once its coprocessor is usable, a 64-bit operation while they are off, or a MIPS IV instruction
in User mode without CU3, takes Reserved Instruction. -/
def Obligations.InstructionSetGates : Prop :=
  (∀ (i : Instr) (s : State), isWide i = true → (usesCop0 i = true → Cp0Ok s) → (usesCop1 i = true → Cp1Ok s) →
    is64 (seen .usable s).cp0.status = false → exec i s = .next (takeException .reservedInstruction s)) ∧
  ∀ (i : Instr) (s : State), isMips4 i = true → (usesCop1 i = true → Cp1Ok s) → ¬Mips4Ok s →
    exec i s = .next (takeException .reservedInstruction s)

/-- spec/30_encoding.md R234, R235, R236, R238, R239, spec/47_fpu_arith.md R646, spec/45_cp0_system.md R491: the words that are no instruction,
and what a step does that comes to one: Reserved Instruction for an undefined opcode, function or code, and for an undefined word of
coprocessor 0, once it is usable; Unimplemented Operation for an undefined word of coprocessor 1, once it is usable, also of a MIPS IV function,
without its gate (the model's choice, log entry 57); Coprocessor Unusable, or Reserved Instruction, for a word of coprocessor 2; a refusal for
an instruction with a field that must be zero and is not, and for an undefined CACHE operation. -/
def Obligations.UndecodedWords : Prop :=
  (∀ (s u v : State) (bs : List Byte) (e : DecodeError), Ready s u → fetchBytes u = .ok bs v →
    decode v.boot.bigEndianMem bs = .error e → interruptRequest u = false → step s = aged (rejected e v)) ∧
  (∀ s : State, rejected .reserved s = .next (takeException .reservedInstruction s) ∧
    (¬Cp0Ok s → ∀ e ∈ [DecodeError.cop0Undefined, .mustBeZero .cop0, .cacheUndefined],
      rejected e s = .next (takeException (.coprocessorUnusable 0) s)) ∧
    (Cp0Ok s → rejected .cop0Undefined s = .next (takeException .reservedInstruction s) ∧
      rejected (.mustBeZero .cop0) s = .refused .fieldNotZero ∧ rejected .cacheUndefined s = .refused .cacheOperationUndefined) ∧
    (¬Cp1Ok s → ∀ e ∈ [DecodeError.cop1Undefined, .mustBeZero .cop1], rejected e s = .next (takeException (.coprocessorUnusable 1) s)) ∧
    (Cp1Ok s → rejected .cop1Undefined s = .next (takeException .floatingPoint (s.setFcr31 { s.fcr31 with cause := 0x20 })) ∧
      rejected (.mustBeZero .cop1) s = .refused .fieldNotZero) ∧
    rejected .cop2 s = .next (takeException
      (if (seen .usable s).cp0.status.cu.getLsbD 2 = true then .reservedInstruction else .coprocessorUnusable 2) s) ∧
    rejected (.mustBeZero .none) s = .refused .fieldNotZero) ∧
  ∀ (w : Word) (op rs rt fn : Nat), op = w.toNat / 2 ^ 26 → rs = w.toNat / 2 ^ 21 % 32 → rt = w.toNat / 2 ^ 16 % 32 → fn = w.toNat % 64 →
    (op ∈ [28, 29, 30, 31, 59] ∨ op = 0 ∧ fn ∈ [5, 14, 21, 40, 41, 53, 55, 57, 61] ∨
      op = 1 ∧ (rt ∈ [4, 5, 6, 7, 13, 15] ∨ 20 ≤ rt) ↔ decodeWord w = .error .reserved) ∧
    (op = 16 ∧ (rs < 16 ∧ rs ∉ [0, 1, 4, 5] ∨ 16 ≤ rs ∧ fn ∉ [1, 2, 6, 8, 24, 32]) ↔ decodeWord w = .error .cop0Undefined) ∧
    (op = 17 ∧ (rs ∈ [3, 7, 18, 19] ∨ 9 ≤ rs ∧ rs ≤ 15 ∨ 22 ≤ rs ∨ rs ∈ [20, 21] ∧ fn ∉ [32, 33] ∨ rs = 16 ∧ fn = 32 ∨ rs = 17 ∧ fn = 33 ∨
        rs ∈ [16, 17] ∧ (fn ∈ [16, 20, 34, 35] ∨ 23 ≤ fn ∧ fn ≤ 31 ∨ 38 ≤ fn ∧ fn ≤ 47)) ∨
      op = 19 ∧ fn ∉ [0, 1, 8, 9, 15, 32, 33, 40, 41, 48, 49, 56, 57] ↔ decodeWord w = .error .cop1Undefined) ∧
    (op ∈ [18, 50, 54, 58, 62] ↔ decodeWord w = .error .cop2) ∧
    (op = 47 ∧ (rt ∈ [2, 6, 10, 12, 14, 15, 18, 19, 22, 29] ∨ 26 ≤ rt) ↔ decodeWord w = .error .cacheUndefined)

/-- spec/60_exceptions.md R820, R821: the mode, and 64-bit operations and addressing in it. -/
def Obligations.ModesAndWidths : Prop :=
  ∀ t : StatusReg,
    (modeOf t = .kernel ↔ t.ksu = 0 ∨ t.exl = true ∨ t.erl = true) ∧
    (modeOf t = .supervisor ↔ t.ksu = 1 ∧ t.exl = false ∧ t.erl = false) ∧
    (noMode t = false → (modeOf t = .user ↔ t.ksu = 2 ∧ t.exl = false ∧ t.erl = false)) ∧
    (is64 t = true ↔ modeOf t = .kernel ∨ modeOf t = .supervisor ∧ t.sx = true ∨ modeOf t = .user ∧ t.ux = true) ∧
    (extendedAddressing t = true ↔
      modeOf t = .kernel ∧ t.kx = true ∨ modeOf t = .supervisor ∧ t.sx = true ∨ modeOf t = .user ∧ t.ux = true)

/-- spec/45_cp0_system.md R470, spec/60_exceptions.md R820: while coprocessor 0 is not usable no instruction changes the TLB, the boot
mode, Standby, the timer latch or a CP0 register other than LLAddr, unless it takes an exception, which leaves
the processor in Kernel mode with the TLB as it was. -/
def Obligations.UnprivilegedCannotChangeSystem : Prop :=
  ∀ (i : Instr) (s t : State), ¬Cp0Ok s → s.entered = false → exec i s = .next t →
    (t.entered = false → t.cp0 = { s.cp0 with llAddr := t.cp0.llAddr } ∧ t.tlb = s.tlb ∧ t.boot = s.boot ∧ t.standby = s.standby ∧
      t.timerInt = s.timerInt ∧ t.intReg = s.intReg) ∧
    (t.entered = true → modeOf t.cp0.status = .kernel ∧ t.tlb = s.tlb ∧ t.boot = s.boot ∧ t.standby = s.standby)

/-! ## Floating point -/

/-- spec/48_fpu_exceptions.md R651, spec/47_fpu_arith.md R574, R580 to R612: every computational and conversion instruction traps with
Cause written and nothing else, or writes Cause, the Flags and its result, and nothing else changes. -/
def Obligations.FpOperations : Prop :=
  ∀ (i : Instr) (s : State) (f : FpForm), fpForm s i = some f → Cp1Ok s → (f.mips4 = true → Mips4Ok s) →
    FprsOk (f.fd :: f.srcs) s →
    (TrapsWith s f.out.x →
      ∃ n, exec i s = .next (takeException .floatingPoint ((s.drawn n).setFcr31 { s.fcr31 with cause := f.out.x }))) ∧
    (¬TrapsWith s f.out.x →
      ∃ t, exec i s = .next t ∧ WritesFpr f.f f.fd f.out.value s t ∧ t.fcr31 = fcr31After s f.out.x ∧ FpuOnly s t)

/-- spec/47_fpu_arith.md R620 to R637, spec/48_fpu_exceptions.md R651: every compare writes its condition bit from the relation of its
operands, or traps. The relation of two numbers is that of their values, an infinity of its sign beyond all of them; with a NaN it is
unordered. -/
def Obligations.FpCompares : Prop :=
  (∀ (i : Instr) (s : State) (c : CompareForm) (x : BitVec 6) (r : FpRelation), compareForm i = some c → Cp1Ok s →
    (c.cc ≠ 0 → Mips4Ok s) → FprsOk [c.fs, c.ft] s → r = fpRelation c.f (readFpr c.f s c.fs) (readFpr c.f s c.ft) →
    x = (if fpKind c.f (readFpr c.f s c.fs) = .signalingNaN ∨ fpKind c.f (readFpr c.f s c.ft) = .signalingNaN ∨
      c.cond.getLsbD 3 = true ∧ r = .unordered then xV else 0) →
    (TrapsWith s x → exec i s = .next (takeException .floatingPoint (s.setFcr31 { s.fcr31 with cause := x }))) ∧
    (¬TrapsWith s x → ∃ t, exec i s = .next t ∧
      (∀ k, conditionBit t.fcr31 k = if k = c.cc then (r = .less ∧ c.cond.getLsbD 2 = true) ∨ (r = .equal ∧ c.cond.getLsbD 1 = true) ∨
        (r = .unordered ∧ c.cond.getLsbD 0 = true) else conditionBit s.fcr31 k) ∧
      t.fcr31 = { fcr31After s x with fcc := t.fcr31.fcc } ∧ (∀ q, readFgr t q = readFgr s q) ∧ FpuOnly s t)) ∧
  ∀ (f : Fmt) (a b : Dword),
    (fpFinite f a → fpFinite f b → (fpRelation f a b = .less ↔ fpValue f a < fpValue f b) ∧
      (fpRelation f a b = .equal ↔ fpValue f a = fpValue f b) ∧ (fpRelation f a b = .greater ↔ fpValue f b < fpValue f a)) ∧
    (fpIsNaN f a = false → fpIsNaN f b = false → fpKind f a = .infinity ∨ fpKind f b = .infinity →
      (fpRelation f a b = .equal ↔ ∃ neg, KindSign f .infinity neg a ∧ KindSign f .infinity neg b) ∧
      (fpRelation f a b = .less ↔ KindSign f .infinity true a ∧ ¬KindSign f .infinity true b ∨
        KindSign f .infinity false b ∧ ¬KindSign f .infinity false a) ∧
      (fpRelation f a b = .greater ↔ KindSign f .infinity false a ∧ ¬KindSign f .infinity false b ∨
        KindSign f .infinity true b ∧ ¬KindSign f .infinity true a)) ∧
    (fpIsNaN f a = true ∨ fpIsNaN f b = true ↔ fpRelation f a b = .unordered)

/-- spec/47_fpu_arith.md R575 (c) to (f), R580 to R588, R590 to R593, R600, R611, R612, spec/48_fpu_exceptions.md R656 to R658,
spec/10_state.md R110: the results on zeros and normalized numbers. A sum, a difference, a product, a quotient, a square root, ABS, NEG, a
conversion to floating point gives the outcome of its exact value rounded with unbounded exponent: nothing signaled if that is exact and
in the normal range, Inexact alone if it is not exact, Overflow and Inexact, Unimplemented Operation or a flush where it is tiny. A
multiply-add is the multiplication, then the addition or subtraction, as those operations perform them, its exceptions those of both; a product
that traps or is invalid ends it (log entry 37, the model's reading). A reciprocal (of a square root) has the outcome of some number within the
tolerance of the exact value, exact or not, and a reciprocal that is a number of the format is delivered exactly (log entry 38). A conversion
to fixed point gives the integer that the value rounds to, if it is in range. -/
def Obligations.RoundedArithmetic : Prop :=
  (∀ (f : Fmt) (t : Fcr31) (o : FpOut) (r y : ℝ), ExactResult f t o r → RoundsFree f t.rm y r → OutcomeOf f t y (y ≠ r) o) ∧
  (∀ (f : Fmt) (t : Fcr31) (sub neg : Bool) (a b r : Dword) (p q o : FpOut),
    (∀ v ∈ [r, a, b], Ordinary f v ∨ fpKind f v = .infinity) → p = fpMul f t a b →
    q = (if sub then fpSub f t p.value r else fpAdd f t p.value r) → o = fpMulAdd f t sub neg r a b →
    (TrapsUnder t p.x ∨ p.x = xV → o = p) ∧
    (¬TrapsUnder t p.x → p.x ≠ xV → o.x = (if q.x = xE then xE else p.x ||| q.x) ∧
      o.value = if neg = true ∧ q.x ≠ xV then fpNegate f q.value else q.value)) ∧
  (∀ (f : Fmt) (t : Fcr31) (sub neg : Bool) (a b r : Dword) (o : FpOut), fpFinite f a → fpFinite f b → fpFinite f r →
    o = fpMulAdd f t sub neg r a b → o.x = 0 ∨ (o.x = xI ∧ t.enables.getLsbD 0 = false) →
    ∃ p v w, RoundsTo f t.rm p (fpValue f a * fpValue f b) ∧ w = (if sub then fpValue f p - fpValue f r else fpValue f p + fpValue f r) ∧
      RoundsTo f t.rm v w ∧ fpFinite f o.value ∧ fpValue f o.value = (if neg then -fpValue f v else fpValue f v) ∧
      (o.x = 0 ↔ fpValue f p = fpValue f a * fpValue f b ∧ fpValue f v = w)) ∧
  (∀ (f : Fmt) (t : Fcr31) (a : Dword) (k ulp : Nat) (i : Bool) (o : FpOut) (r : ℝ), fpKind f a = .normal →
    (o = fpRecip f t a k i ∧ r = 1 / fpValue f a ∧ ulp = Config.recipUlp ∨
      o = fpRsqrt f t a k i ∧ fpSign f a = false ∧ r = 1 / Real.sqrt (fpValue f a) ∧ ulp = Config.rsqrtUlp) →
    (∃ y inexact, Digits f.prec y ∧ OutcomeOf f t y inexact o ∧
      ∀ u : ℤ, (2 : ℝ) ^ (u + f.frac) ≤ |r| → |r| < (2 : ℝ) ^ (u + f.prec) → |y - r| ≤ (max 1 ulp : Nat) * (2 : ℝ) ^ u) ∧
    ∀ c, o = fpRecip f t a k i → r = 1 / fpValue f a → fpKind f c = .normal → (fpValue f c : ℝ) = r →
      (o.x = 0 ∨ o.x = xI) ∧ fpFinite f o.value ∧ (fpValue f o.value : ℝ) = r) ∧
  ∀ (f : Fmt) (rm : BitVec 2) (a : Dword) (bits : Nat) (o : FpOut), Ordinary f a →
    (o = fpToW f rm a ∧ bits = 31 ∨ o = fpToL f rm a ∧ bits = 53) →
    ∃ n : ℤ, RoundsToInt rm n (fpValue f a) ∧
      if -2 ^ bits ≤ n ∧ n ≤ 2 ^ bits - 1 then o = ⟨if n = fpValue f a then 0 else xI, BitVec.ofInt 64 n⟩ else o.x = xE

/-- spec/47_fpu_arith.md R575 (a), (b), (e), R580 to R588, R600 (a) to (c), R611, R612, spec/48_fpu_exceptions.md R659, R660: the operands that are
no plain numbers. A denormalized number or a quiet NaN is Unimplemented Operation alone; else a signaling NaN is Invalid Operation, with the
default quiet NaN as result; no result of an operation that completes is denormalized. Infinities, zeros, divisions by zero, the invalid
cases of each operation, the signs of their results. A conversion to fixed point of a NaN or an infinity. The patterns of the default results
are the spec's proposals (log entry 40). -/
def Obligations.SpecialOperands : Prop :=
  (∀ (f : Fmt) (t : Fcr31) (sub neg i : Bool) (k : Nat) (ops : List Dword) (a b r : Dword) (o : FpOut),
    (ops = [a, b] ∧ (o = fpAdd f t a b ∨ o = fpSub f t a b ∨ o = fpMul f t a b ∨ o = fpDiv f t a b) ∨
      ops = [a] ∧ (o = fpSqrt f t a ∨ o = fpAbs f a ∨ o = fpNeg f a ∨ o = fpRecip f t a k i ∨ o = fpRsqrt f t a k i) ∨
      ops = [r, a, b] ∧ o = fpMulAdd f t sub neg r a b) →
    ((∃ v ∈ ops, fpKind f v = .denormal ∨ fpKind f v = .quietNaN) → o.x = xE) ∧
    ((∀ v ∈ ops, fpKind f v ≠ .denormal ∧ fpKind f v ≠ .quietNaN) → (∃ v ∈ ops, fpKind f v = .signalingNaN) → IsInvalid f o)) ∧
  (∀ (f g : Fmt) (t : Fcr31) (sub neg i : Bool) (k : Nat) (a b r : Dword) (o : FpOut),
    (o = fpAdd f t a b ∨ o = fpSub f t a b ∨ o = fpMul f t a b ∨ o = fpDiv f t a b ∨ o = fpSqrt f t a ∨ o = fpAbs f a ∨ o = fpNeg f a ∨
      o = fpRecip f t a k i ∨ o = fpRsqrt f t a k i ∨ o = fpMulAdd f t sub neg r a b ∨ o = fpConvert g f t a ∨ o = fpFromW f t a ∨
      o = fpFromL f t a) → o.x.getLsbD 5 = false → fpKind f o.value ≠ .denormal) ∧
  (∀ (f : Fmt) (t : Fcr31) (a b : Dword) (o : FpOut) (sb : Bool),
    (o = fpAdd f t a b ∧ sb = fpSign f b ∨ o = fpSub f t a b ∧ sb = !fpSign f b) →
    (fpKind f a = .infinity → fpKind f b = .infinity → if fpSign f a = sb then Delivers f o .infinity sb else IsInvalid f o) ∧
    (fpKind f a = .infinity → Ordinary f b → Delivers f o .infinity (fpSign f a)) ∧
    (Ordinary f a → fpKind f b = .infinity → Delivers f o .infinity sb) ∧
    (Ordinary f a → Ordinary f b → fpValue f a = (if fpSign f b = sb then -fpValue f b else fpValue f b) →
      Delivers f o .zero (if fpSign f a = sb then sb else t.rm == 3))) ∧
  (∀ (f : Fmt) (t : Fcr31) (a b : Dword) (neg : Bool), neg = (fpSign f a != fpSign f b) →
    (fpKind f a = .infinity ∧ fpKind f b = .zero ∨ fpKind f a = .zero ∧ fpKind f b = .infinity → IsInvalid f (fpMul f t a b)) ∧
    (fpKind f a = .infinity ∧ (fpKind f b = .infinity ∨ fpKind f b = .normal) ∨ fpKind f a = .normal ∧ fpKind f b = .infinity →
      Delivers f (fpMul f t a b) .infinity neg) ∧
    (fpKind f a = .zero ∧ Ordinary f b ∨ Ordinary f a ∧ fpKind f b = .zero → Delivers f (fpMul f t a b) .zero neg) ∧
    (fpKind f a = .zero ∧ fpKind f b = .zero ∨ fpKind f a = .infinity ∧ fpKind f b = .infinity → IsInvalid f (fpDiv f t a b)) ∧
    (fpKind f a = .infinity ∧ Ordinary f b → Delivers f (fpDiv f t a b) .infinity neg) ∧
    (fpKind f a = .normal ∧ fpKind f b = .zero → DividesByZero f (fpDiv f t a b) neg) ∧
    (fpKind f a = .zero ∧ fpKind f b = .normal ∨ Ordinary f a ∧ fpKind f b = .infinity → Delivers f (fpDiv f t a b) .zero neg)) ∧
  (∀ (f : Fmt) (t : Fcr31) (a : Dword) (k : Nat) (i : Bool) (kind : FpKind), fpKind f a = kind →
    (kind = .zero ∨ kind = .infinity → Delivers f (fpAbs f a) kind false ∧ Delivers f (fpNeg f a) kind (!fpSign f a) ∧
      ∀ g, Delivers g (fpConvert f g t a) kind (fpSign f a)) ∧
    (kind = .zero → Delivers f (fpSqrt f t a) .zero (fpSign f a) ∧ DividesByZero f (fpRecip f t a k i) (fpSign f a) ∧
      DividesByZero f (fpRsqrt f t a k i) (fpSign f a)) ∧
    (kind = .normal ∨ kind = .infinity → fpSign f a = true → IsInvalid f (fpSqrt f t a) ∧ IsInvalid f (fpRsqrt f t a k i)) ∧
    (kind = .infinity → Delivers f (fpRecip f t a k i) .zero (fpSign f a) ∧
      (fpSign f a = false → Delivers f (fpSqrt f t a) .infinity false ∧ Delivers f (fpRsqrt f t a k i) .zero false)) ∧
    (kind = .denormal ∨ kind = .quietNaN → ∀ g, (fpConvert f g t a).x = xE) ∧
    (kind = .signalingNaN → ∀ g, IsInvalid g (fpConvert f g t a)) ∧
    ∀ rm, (kind = .denormal ∨ kind = .quietNaN ∨ kind = .infinity → (fpToW f rm a).x = xE ∧ (fpToL f rm a).x = xE) ∧
      (kind = .signalingNaN → fpToW f rm a = ⟨xV, 0x7FFFFFFF⟩ ∧ fpToL f rm a = ⟨xV, 0x7FFFFFFFFFFFFFFF⟩)) ∧
  ∀ (f : Fmt) (t : Fcr31) (a : Dword), (low32 a = 0 → Delivers f (fpFromW f t a) .zero false) ∧
    (a = 0 → Delivers f (fpFromL f t a) .zero false) ∧
    (a.toInt < -2 ^ 52 ∨ 2 ^ 52 - 1 < a.toInt → (fpFromL f t a).x = xE)

/-- spec/46_fpu_moves.md R540 to R545: MOV.fmt and the conditional moves copy a register, or change nothing; FCR31 is as before. -/
def Obligations.FpMoves : Prop :=
  ∀ (i : Instr) (s : State) (f : FpMoveForm), fpMoveForm s i = some f → Cp1Ok s → (f.mips4 = true → Mips4Ok s) →
    FprsOk [f.fd, f.fs] s →
    ∃ t, exec i s = .next t ∧ t.fcr31 = s.fcr31 ∧ FpuOnly s t ∧
      if f.moved then WritesFpr f.f f.fd (readFpr f.f s f.fs) s t else ∀ q, readFgr t q = readFgr s q

/-- spec/46_fpu_moves.md R537, R538, R546 to R549, spec/48_fpu_exceptions.md R652: the moves between general and floating-point registers,
and those of FCR0 and FCR31: a Cause bit written with its Enable bit, or E, takes the Floating-Point exception; the other control registers
are refused. FCR31 receives the value given unless an operation is in flight. -/
def Obligations.MovesOfCoprocessor1 : Prop :=
  (∀ (s : State) (rt fs : RegNum), Cp1Ok s →
    (∃ t, exec (.mfc1 rt fs) s = .next t ∧ WritesGpr rt (word32 (s32 (readFgr s fs))) s t) ∧
    (∃ t, exec (.mtc1 rt fs) s = .next t ∧ WritesFpr .S fs (readGpr s rt) s t ∧ t.fcr31 = s.fcr31 ∧ FpuOnly s t) ∧
    (WideOk true s → FprsOk [fs] s →
      (∃ t, exec (.dmfc1 rt fs) s = .next t ∧ WritesGpr rt (readFpr .D s fs) s t) ∧
      ∃ t, exec (.dmtc1 rt fs) s = .next t ∧ WritesFpr .D fs (readGpr s rt) s t ∧ t.fcr31 = s.fcr31 ∧ FpuOnly s t)) ∧
  ∀ (s : State) (rt : RegNum) (w : Word), Cp1Ok s → w = low32 (readGpr s rt) →
    (∃ t, exec (.cfc1 rt 0) s = .next t ∧ WritesGpr rt (sext32 (0#16 ++ 0x23#8 ++ Config.fcr0Rev)) s t) ∧
    (∃ t, exec (.cfc1 rt 31) s = .next t ∧ WritesGpr rt (sext32 (packFcr31 s.fcr31)) s t) ∧
    (∃ t, exec (.ctc1 rt 0) s = .next t ∧ NoEffect s t) ∧
    (s.fpBusy = false → w.getLsbD 17 = false → (∀ k < 5, w.getLsbD (12 + k) = true → w.getLsbD (7 + k) = false) →
      ∃ t, exec (.ctc1 rt 31) s = .next t ∧ packFcr31 t.fcr31 = w &&& 0xFF83FFFF ∧ (∀ q, readFgr t q = readFgr s q) ∧ FpuOnly s t) ∧
    (s.fpBusy = false → w.getLsbD 17 = true ∨ (∃ k < 5, w.getLsbD (12 + k) = true ∧ w.getLsbD (7 + k) = true) →
      ∃ u, exec (.ctc1 rt 31) s = .next (takeException .floatingPoint u) ∧ packFcr31 u.fcr31 = w &&& 0xFF83FFFF ∧
        (∀ q, readFgr u q = readFgr s q) ∧ u.pc = s.pc ∧ u.delay = s.delay ∧ SameCpu s u ∧ SameSystem s u ∧ SameMemory s u) ∧
    ∀ fs, fcrExists fs = false → exec (.cfc1 rt fs) s = .refused .reservedFcr ∧ exec (.ctc1 rt fs) s = .refused .reservedFcr

/-- spec/46_fpu_moves.md R524, R526 to R533: the loads and stores of floating-point registers: at an uncached address, in a line that is held,
in one that is not; an indexed access whose sum leaves the region of its base raises Address Error. The model's choices: reads are answered
behind the buffered writes (log entry 42), the way a miss replaces (log entry 13), the even parity of the bytes a cached store leaves in the
line (log entry 16) and the order of the bits of ECC (log entry 52). -/
def Obligations.FpLoadsAndStores : Prop :=
  (∀ (i : Instr) (s : State) (f : FpMemForm) (pa : PAddr) (c : BitVec 3) (n : Nat), Memory.wf s.mem → fpLoadForm s i = some f →
    FpMemOk f s → SameRegion f s → PlainOrder s → n = fmtBytes f.f → Reaches s .load f.va n pa c →
    (c = 2 → UncachedLoad pa n (f.delivers s) s (exec i s)) ∧
    (c ≠ 2 → LoadHit false f.va pa n (f.delivers s) s (exec i s) ∧ LoadMiss false f.va pa c n (f.delivers s) s (exec i s))) ∧
  (∀ (i : Instr) (s : State) (f : FpMemForm) (pa : PAddr) (c : BitVec 3), Memory.wf s.mem → fpStoreForm s i = some f → FpMemOk f s →
    SameRegion f s → PlainOrder s → Reaches s .store f.va (fmtBytes f.f) pa c →
    (c = 2 → UncachedStore f.va pa (f.bytes s) (StoreRest s) s (exec i s)) ∧
    (c ≠ 2 → StoreHit f.va pa c (f.bytes s) (StoreRest s) s (exec i s) ∧ StoreMiss f.va pa c (f.bytes s) (StoreRest s) s (exec i s))) ∧
  (∀ (i : Instr) (s : State) (f : FpMemForm), fpLoadForm s i = some f → Cp1Ok s → Mips4Ok s → ¬SameRegion f s →
    exec i s = .next (takeException (.addressError false f.va) s)) ∧
  ∀ (i : Instr) (s : State) (f : FpMemForm), fpStoreForm s i = some f → Cp1Ok s → Mips4Ok s → ¬SameRegion f s →
    exec i s = .next (takeException (.addressError true f.va) s)

/-! ## Exceptions, interrupts, resets -/

/-- spec/60_exceptions.md R751, R760, R761, spec/10_state.md R64: the code of every exception; the general entry, where no pending write is
held back from it: what it saves, Status, and the address of its vector; of CP0 it writes nothing else, but what an exception of an address
loads, and outside CP0 and the sequencing state nothing. -/
def Obligations.GeneralExceptionEntry : Prop :=
  (∀ (s : State) (va : Dword) (z : BitVec 2) (code : Exc → BitVec 5), code = (fun e => (takeException e s).cp0.cause.excCode) →
    code .interrupt = 0 ∧ code (.tlbModified va) = 1 ∧ code (.tlbRefill false va) = 2 ∧ code (.tlbInvalid false va) = 2 ∧
    code (.tlbRefill true va) = 3 ∧ code (.tlbInvalid true va) = 3 ∧ code (.addressError false va) = 4 ∧
    code (.addressError true va) = 5 ∧ code (.busError true) = 6 ∧ code (.busError false) = 7 ∧ code .systemCall = 8 ∧
    code .breakpoint = 9 ∧ code .reservedInstruction = 10 ∧ code (.coprocessorUnusable z) = 11 ∧ code .overflow = 12 ∧ code .trap = 13 ∧
    code .floatingPoint = 15) ∧
  ∀ (e : Exc) (s : State), (∀ info, e ≠ .cacheError info) → Settled s →
    GeneralEntry e s (takeException e s) ∧
    ((∀ store va, e ≠ .tlbRefill store va) →
      (takeException e s).pc = (if s.cp0.status.bev then 0xFFFFFFFFBFC00380 else 0xFFFFFFFF80000180)) ∧
    ∀ store va, e = .tlbRefill store va →
      (takeException e s).pc = (if s.cp0.status.bev then 0xFFFFFFFFBFC00200 else 0xFFFFFFFF80000000) +
        (if s.cp0.status.exl then 0x180 else if (if va.toNat / 2 ^ 62 = 0 then s.cp0.status.ux
          else if va.toNat / 2 ^ 62 = 1 ∨ (0xFFFFFFFFC0000000 ≤ va ∧ va ≤ 0xFFFFFFFFDFFFFFFF) then s.cp0.status.sx
          else s.cp0.status.kx) then 0x080 else 0)

/-- spec/60_exceptions.md R774: what the three TLB exceptions load into BadVAddr, Context, XContext and EntryHi; their other fields and
PageMask are kept, Context.PTEBase as the entry sees it (spec/70_reset_and_hazards.md R870: it may still see the old one). R762: the Cache Error
entry. -/
def Obligations.ExceptionRegisters : Prop :=
  (∀ (e : Exc) (s t : State) (va : Dword) (store : Bool),
    (e = .tlbRefill store va ∨ e = .tlbInvalid store va ∨ e = .tlbModified va) → t = takeException e s →
    t.cp0.badVAddr = va ∧ t.cp0.contextBadVPN2 = va.extractLsb' 13 19 ∧ t.cp0.xcontextBadVPN2 = va.extractLsb' 13 27 ∧
      t.cp0.xcontextR = va.extractLsb' 62 2 ∧ t.cp0.entryHi = ⟨va.extractLsb' 62 2, va.extractLsb' 13 27, s.cp0.entryHi.asid⟩ ∧
      t.cp0.contextPTEBase = (seen .excEntry s).cp0.contextPTEBase ∧
      t.cp0.xcontextPTEBase = s.cp0.xcontextPTEBase ∧ t.cp0.pageMask = s.cp0.pageMask) ∧
  ∀ (info : CacheErrReg) (s t : State), Settled s → t = takeException (.cacheError info) s →
    t.cp0 = { s.cp0 with
      errorEpc := if s.delay.isSome then s.pc - 4 else s.pc, cacheErr := info, status := { s.cp0.status with erl := true } } ∧
    t.pc = (if s.cp0.status.bev then 0xFFFFFFFFBFC00300 else 0xFFFFFFFFA0000100) ∧ t.delay = none ∧ SameCpu s t ∧ SameFpu s t ∧
    t.tlb = s.tlb ∧ SameLink s t ∧ SameMemory s t

/-- spec/60_exceptions.md R790: the eight interrupt requests and their masking. -/
def Obligations.InterruptRequests : Prop :=
  ∀ s : State,
    ((pendingBits s).getLsbD 0 = s.cp0.cause.ipSw.getLsbD 0 ∧ (pendingBits s).getLsbD 1 = s.cp0.cause.ipSw.getLsbD 1) ∧
    (∀ n < 5, (pendingBits s).getLsbD (n + 2) = (s.intReg.getLsbD n || s.intPin.getLsbD n)) ∧
    (pendingBits s).getLsbD 7 = (if s.boot.tmrIntEn then s.intReg.getLsbD 5 || s.intPin.getLsbD 5 else s.timerInt) ∧
    (Settled s → (interruptRequest s = true ↔
      (∃ n < 8, (pendingBits s).getLsbD n = true ∧ s.cp0.status.im.getLsbD n = true) ∧ s.cp0.status.ie = true ∧
        s.cp0.status.exl = false ∧ s.cp0.status.erl = false))

/-- spec/60_exceptions.md R791, R752: an enabled interrupt the environment does not defer is taken in place of an instruction that would
complete; an instruction that takes an exception of its own keeps it. -/
def Obligations.InterruptTaken : Prop :=
  ∀ (s u v t : State) (bs : List Byte) (i : Instr), Ready s u → fetchBytes u = .ok bs v →
    decode v.boot.bigEndianMem bs = .ok i → interruptRequest u = true → u.inp.deferInt = false → exec i v = .next t →
    (t.entered = false → step s = .next (age (takeException .interrupt u))) ∧ (t.entered = true → step s = .next (age t))

/-- spec/60_exceptions.md R794, R764, spec/92_eei_decisions.md D36: a rise of the NMI request is an NMI to be taken, before the instruction,
whatever EXL, ERL and IE hold. spec/70_reset_and_hazards.md R852, D8: Soft Reset keeps every register but ErrorEPC and four Status bits and
empties the write buffer; so it does where it cuts an instruction off. The model's choices: that a warm reset gives up the buffered writes and
NMIs not yet taken and keeps the link, that the environment says whether an NMI empties the write buffer, as spec/10_state.md R128 has
it, or keeps it, as R853 has it (log entry 31), how a warm reset cuts an instruction off (log
entry 9). -/
def Obligations.NmiAndSoftReset : Prop :=
  (∀ s : State, (sampleNmi s).nmiSeen = (s.intReg.getLsbD 6 || s.nmiPin) ∧ (sampleNmi s).nmiPending =
    s.nmiPending + if (s.intReg.getLsbD 6 || s.nmiPin) = true ∧ s.nmiSeen = false then 1 else 0) ∧
  (∀ s t : State, applyExts (nextInput s).ext (arrived s) = .ok () t → t.inp.reset = none → t.nmiPending ≠ 0 →
    ∃ u, step s = .next u ∧ SoftEntered t u ∧ u.nmiPending + 1 = t.nmiPending ∧
      (t.inp.nmiEmptiesBuffer = false → SameMemory t u) ∧
      (t.inp.nmiEmptiesBuffer = true → u.wb = [] ∧ SameICache t u ∧ SameDCache t u ∧ SameSCache t u ∧
        (Memory.wf t.mem → ∀ a, (∀ e ∈ t.wb, ∀ k < (entryTarget e).2, ((entryTarget e).1.toNat + k) % memSize ≠ a) →
          memRead u.mem a = memRead t.mem a))) ∧
  ∀ s t : State, applyExts (nextInput s).ext (arrived s) = .ok () t → t.inp.reset = some .warm →
    ∃ u, step s = .next u ∧ SoftEntered t u ∧ u.wb = [] ∧ u.nmiPending = 0

/-- spec/70_reset_and_hazards.md R851: the Reset exception with legal boot-mode settings: Random, Wired, Config.SE, BEV, SR, ERL, PC, the
boot mode; no delay slot, no Standby, an empty write buffer. spec/10_state.md R128: the same of the state after reset. -/
def Obligations.ResetExceptionAndState : Prop :=
  (∀ (s t : State) (b : BootMode), applyExts (nextInput s).ext (arrived s) = .ok () t → t.inp.reset = some (.cold b) →
    bootLegal b = true →
    ∃ u, step s = .next u ∧ u.cp0.random = 47 ∧ u.cp0.wired = 0 ∧ u.cp0.configSE = false ∧ u.cp0.status.bev = true ∧
      u.cp0.status.sr = false ∧ u.cp0.status.erl = true ∧ u.pc = 0xFFFFFFFFBFC00000 ∧ u.delay = none ∧ u.standby = false ∧
      u.wb = [] ∧ u.boot = b ∧ modeOf u.cp0.status = .kernel) ∧
  State.reset.pc = 0xFFFFFFFFBFC00000 ∧ State.reset.delay = none ∧ State.reset.cp0.random = 47 ∧ State.reset.cp0.wired = 0 ∧
    State.reset.cp0.configSE = false ∧ State.reset.cp0.status.bev = true ∧ State.reset.cp0.status.erl = true ∧
    State.reset.cp0.status.sr = false ∧ State.reset.standby = false ∧ State.reset.wb = []

/-- spec/60_exceptions.md R800: a step of the Count agent. spec/49_system_interface.md R715: an external write of a word with 0 on
SysAD[6:4] writes the enabled bits of the Interrupt register; another address writes nothing; another size the spec leaves undefined. -/
def Obligations.CountAndInterruptRegister : Prop :=
  (∀ s : State, (countStep s).cp0.count.toNat = (s.cp0.count.toNat + 1) % 2 ^ 32 ∧
    ((countStep s).timerInt = true ↔ s.timerInt = true ∨ (countStep s).cp0.count = s.cp0.compare) ∧
    (countStep s).cp0 = { s.cp0 with count := (countStep s).cp0.count }) ∧
  ∀ (s : State) (address data : Dword) (size : Nat),
    (size = 4 → address.toNat / 16 % 8 = 0 → ∃ t, applyExt (.write address size data) s = .ok () t ∧
      (∀ n < 7, t.intReg.getLsbD n = if data.getLsbD (16 + n) then data.getLsbD n else s.intReg.getLsbD n) ∧
      t.cp0 = s.cp0 ∧ SameCpu s t ∧ SameFpu s t ∧ SameMemory s t ∧ t.tlb = s.tlb) ∧
    (size = 4 → address.toNat / 16 % 8 ≠ 0 → applyExt (.write address size data) s = .ok () s) ∧
    (size ≠ 4 → applyExt (.write address size data) s = .refuse .externalWriteSize)
end

