-- ==== Sys2Proof/Laws/State.lean ====
section
/-! SUPPORT. Sys2Proof/Laws/State.lean: what each named update leaves in each field, one lemma for each, so that no proof unfolds
a record update. -/

namespace Sys2Proof.Machine

@[simp] theorem State.writeGpr_hi (s : State) (r : RegNum) (v : Dword) : (s.writeGpr r v).hi = s.hi := by
  unfold State.writeGpr; split <;> rfl
@[simp] theorem State.writeGpr_lo (s : State) (r : RegNum) (v : Dword) : (s.writeGpr r v).lo = s.lo := by
  unfold State.writeGpr; split <;> rfl
@[simp] theorem State.writeGpr_pc (s : State) (r : RegNum) (v : Dword) : (s.writeGpr r v).pc = s.pc := by
  unfold State.writeGpr; split <;> rfl
@[simp] theorem State.writeGpr_delay (s : State) (r : RegNum) (v : Dword) : (s.writeGpr r v).delay = s.delay := by
  unfold State.writeGpr; split <;> rfl
@[simp] theorem State.writeGpr_cp0 (s : State) (r : RegNum) (v : Dword) : (s.writeGpr r v).cp0 = s.cp0 := by
  unfold State.writeGpr; split <;> rfl
@[simp] theorem State.writeGpr_tlb (s : State) (r : RegNum) (v : Dword) : (s.writeGpr r v).tlb = s.tlb := by
  unfold State.writeGpr; split <;> rfl
@[simp] theorem State.writeGpr_fgr (s : State) (r : RegNum) (v : Dword) : (s.writeGpr r v).fgr = s.fgr := by
  unfold State.writeGpr; split <;> rfl
@[simp] theorem State.writeGpr_fcr31 (s : State) (r : RegNum) (v : Dword) : (s.writeGpr r v).fcr31 = s.fcr31 := by
  unfold State.writeGpr; split <;> rfl
@[simp] theorem State.writeGpr_llBit (s : State) (r : RegNum) (v : Dword) : (s.writeGpr r v).llBit = s.llBit := by
  unfold State.writeGpr; split <;> rfl
@[simp] theorem State.writeGpr_linkAddr (s : State) (r : RegNum) (v : Dword) : (s.writeGpr r v).linkAddr = s.linkAddr := by
  unfold State.writeGpr; split <;> rfl
@[simp] theorem State.writeGpr_linkKnown (s : State) (r : RegNum) (v : Dword) : (s.writeGpr r v).linkKnown = s.linkKnown := by
  unfold State.writeGpr; split <;> rfl
@[simp] theorem State.writeGpr_intReg (s : State) (r : RegNum) (v : Dword) : (s.writeGpr r v).intReg = s.intReg := by
  unfold State.writeGpr; split <;> rfl
@[simp] theorem State.writeGpr_intPin (s : State) (r : RegNum) (v : Dword) : (s.writeGpr r v).intPin = s.intPin := by
  unfold State.writeGpr; split <;> rfl
@[simp] theorem State.writeGpr_nmiPin (s : State) (r : RegNum) (v : Dword) : (s.writeGpr r v).nmiPin = s.nmiPin := by
  unfold State.writeGpr; split <;> rfl
@[simp] theorem State.writeGpr_nmiSeen (s : State) (r : RegNum) (v : Dword) : (s.writeGpr r v).nmiSeen = s.nmiSeen := by
  unfold State.writeGpr; split <;> rfl
@[simp] theorem State.writeGpr_nmiPending (s : State) (r : RegNum) (v : Dword) : (s.writeGpr r v).nmiPending = s.nmiPending := by
  unfold State.writeGpr; split <;> rfl
@[simp] theorem State.writeGpr_timerInt (s : State) (r : RegNum) (v : Dword) : (s.writeGpr r v).timerInt = s.timerInt := by
  unfold State.writeGpr; split <;> rfl
@[simp] theorem State.writeGpr_standby (s : State) (r : RegNum) (v : Dword) : (s.writeGpr r v).standby = s.standby := by
  unfold State.writeGpr; split <;> rfl
@[simp] theorem State.writeGpr_wb (s : State) (r : RegNum) (v : Dword) : (s.writeGpr r v).wb = s.wb := by
  unfold State.writeGpr; split <;> rfl
@[simp] theorem State.writeGpr_icache (s : State) (r : RegNum) (v : Dword) : (s.writeGpr r v).icache = s.icache := by
  unfold State.writeGpr; split <;> rfl
@[simp] theorem State.writeGpr_icacheRest (s : State) (r : RegNum) (v : Dword) : (s.writeGpr r v).icacheRest = s.icacheRest := by
  unfold State.writeGpr; split <;> rfl
@[simp] theorem State.writeGpr_dcache (s : State) (r : RegNum) (v : Dword) : (s.writeGpr r v).dcache = s.dcache := by
  unfold State.writeGpr; split <;> rfl
@[simp] theorem State.writeGpr_dcacheRest (s : State) (r : RegNum) (v : Dword) : (s.writeGpr r v).dcacheRest = s.dcacheRest := by
  unfold State.writeGpr; split <;> rfl
@[simp] theorem State.writeGpr_scache (s : State) (r : RegNum) (v : Dword) : (s.writeGpr r v).scache = s.scache := by
  unfold State.writeGpr; split <;> rfl
@[simp] theorem State.writeGpr_scacheRest (s : State) (r : RegNum) (v : Dword) : (s.writeGpr r v).scacheRest = s.scacheRest := by
  unfold State.writeGpr; split <;> rfl
@[simp] theorem State.writeGpr_mem (s : State) (r : RegNum) (v : Dword) : (s.writeGpr r v).mem = s.mem := by
  unfold State.writeGpr; split <;> rfl
@[simp] theorem State.writeGpr_physMap (s : State) (r : RegNum) (v : Dword) : (s.writeGpr r v).physMap = s.physMap := by
  unfold State.writeGpr; split <;> rfl
@[simp] theorem State.writeGpr_boot (s : State) (r : RegNum) (v : Dword) : (s.writeGpr r v).boot = s.boot := by
  unfold State.writeGpr; split <;> rfl
@[simp] theorem State.writeGpr_free (s : State) (r : RegNum) (v : Dword) : (s.writeGpr r v).free = s.free := by
  unfold State.writeGpr; split <;> rfl
@[simp] theorem State.writeGpr_inputs (s : State) (r : RegNum) (v : Dword) : (s.writeGpr r v).inputs = s.inputs := by
  unfold State.writeGpr; split <;> rfl
@[simp] theorem State.writeGpr_inp (s : State) (r : RegNum) (v : Dword) : (s.writeGpr r v).inp = s.inp := by
  unfold State.writeGpr; split <;> rfl
@[simp] theorem State.writeGpr_hazards (s : State) (r : RegNum) (v : Dword) : (s.writeGpr r v).hazards = s.hazards := by
  unfold State.writeGpr; split <;> rfl
@[simp] theorem State.writeGpr_fccOld (s : State) (r : RegNum) (v : Dword) : (s.writeGpr r v).fccOld = s.fccOld := by
  unfold State.writeGpr; split <;> rfl
@[simp] theorem State.writeGpr_fpBusy (s : State) (r : RegNum) (v : Dword) : (s.writeGpr r v).fpBusy = s.fpBusy := by
  unfold State.writeGpr; split <;> rfl
@[simp] theorem State.writeGpr_entered (s : State) (r : RegNum) (v : Dword) : (s.writeGpr r v).entered = s.entered := by
  unfold State.writeGpr; split <;> rfl
@[simp] theorem State.writeGpr_bus (s : State) (r : RegNum) (v : Dword) : (s.writeGpr r v).bus = s.bus := by
  unfold State.writeGpr; split <;> rfl
@[simp] theorem State.setHi_gpr (s : State) (v : Dword) : (s.setHi v).gpr = s.gpr := rfl
@[simp] theorem State.setHi_hi (s : State) (v : Dword) : (s.setHi v).hi = v := rfl
@[simp] theorem State.setHi_lo (s : State) (v : Dword) : (s.setHi v).lo = s.lo := rfl
@[simp] theorem State.setHi_pc (s : State) (v : Dword) : (s.setHi v).pc = s.pc := rfl
@[simp] theorem State.setHi_delay (s : State) (v : Dword) : (s.setHi v).delay = s.delay := rfl
@[simp] theorem State.setHi_cp0 (s : State) (v : Dword) : (s.setHi v).cp0 = s.cp0 := rfl
@[simp] theorem State.setHi_tlb (s : State) (v : Dword) : (s.setHi v).tlb = s.tlb := rfl
@[simp] theorem State.setHi_fgr (s : State) (v : Dword) : (s.setHi v).fgr = s.fgr := rfl
@[simp] theorem State.setHi_fcr31 (s : State) (v : Dword) : (s.setHi v).fcr31 = s.fcr31 := rfl
@[simp] theorem State.setHi_llBit (s : State) (v : Dword) : (s.setHi v).llBit = s.llBit := rfl
@[simp] theorem State.setHi_linkAddr (s : State) (v : Dword) : (s.setHi v).linkAddr = s.linkAddr := rfl
@[simp] theorem State.setHi_linkKnown (s : State) (v : Dword) : (s.setHi v).linkKnown = s.linkKnown := rfl
@[simp] theorem State.setHi_intReg (s : State) (v : Dword) : (s.setHi v).intReg = s.intReg := rfl
@[simp] theorem State.setHi_intPin (s : State) (v : Dword) : (s.setHi v).intPin = s.intPin := rfl
@[simp] theorem State.setHi_nmiPin (s : State) (v : Dword) : (s.setHi v).nmiPin = s.nmiPin := rfl
@[simp] theorem State.setHi_nmiSeen (s : State) (v : Dword) : (s.setHi v).nmiSeen = s.nmiSeen := rfl
@[simp] theorem State.setHi_nmiPending (s : State) (v : Dword) : (s.setHi v).nmiPending = s.nmiPending := rfl
@[simp] theorem State.setHi_timerInt (s : State) (v : Dword) : (s.setHi v).timerInt = s.timerInt := rfl
@[simp] theorem State.setHi_standby (s : State) (v : Dword) : (s.setHi v).standby = s.standby := rfl
@[simp] theorem State.setHi_wb (s : State) (v : Dword) : (s.setHi v).wb = s.wb := rfl
@[simp] theorem State.setHi_icache (s : State) (v : Dword) : (s.setHi v).icache = s.icache := rfl
@[simp] theorem State.setHi_icacheRest (s : State) (v : Dword) : (s.setHi v).icacheRest = s.icacheRest := rfl
@[simp] theorem State.setHi_dcache (s : State) (v : Dword) : (s.setHi v).dcache = s.dcache := rfl
@[simp] theorem State.setHi_dcacheRest (s : State) (v : Dword) : (s.setHi v).dcacheRest = s.dcacheRest := rfl
@[simp] theorem State.setHi_scache (s : State) (v : Dword) : (s.setHi v).scache = s.scache := rfl
@[simp] theorem State.setHi_scacheRest (s : State) (v : Dword) : (s.setHi v).scacheRest = s.scacheRest := rfl
@[simp] theorem State.setHi_mem (s : State) (v : Dword) : (s.setHi v).mem = s.mem := rfl
@[simp] theorem State.setHi_physMap (s : State) (v : Dword) : (s.setHi v).physMap = s.physMap := rfl
@[simp] theorem State.setHi_boot (s : State) (v : Dword) : (s.setHi v).boot = s.boot := rfl
@[simp] theorem State.setHi_free (s : State) (v : Dword) : (s.setHi v).free = s.free := rfl
@[simp] theorem State.setHi_inputs (s : State) (v : Dword) : (s.setHi v).inputs = s.inputs := rfl
@[simp] theorem State.setHi_inp (s : State) (v : Dword) : (s.setHi v).inp = s.inp := rfl
@[simp] theorem State.setHi_hazards (s : State) (v : Dword) : (s.setHi v).hazards = s.hazards := rfl
@[simp] theorem State.setHi_fccOld (s : State) (v : Dword) : (s.setHi v).fccOld = s.fccOld := rfl
@[simp] theorem State.setHi_fpBusy (s : State) (v : Dword) : (s.setHi v).fpBusy = s.fpBusy := rfl
@[simp] theorem State.setHi_entered (s : State) (v : Dword) : (s.setHi v).entered = s.entered := rfl
@[simp] theorem State.setHi_bus (s : State) (v : Dword) : (s.setHi v).bus = s.bus := rfl

@[simp] theorem State.setLo_gpr (s : State) (v : Dword) : (s.setLo v).gpr = s.gpr := rfl
@[simp] theorem State.setLo_hi (s : State) (v : Dword) : (s.setLo v).hi = s.hi := rfl
@[simp] theorem State.setLo_lo (s : State) (v : Dword) : (s.setLo v).lo = v := rfl
@[simp] theorem State.setLo_pc (s : State) (v : Dword) : (s.setLo v).pc = s.pc := rfl
@[simp] theorem State.setLo_delay (s : State) (v : Dword) : (s.setLo v).delay = s.delay := rfl
@[simp] theorem State.setLo_cp0 (s : State) (v : Dword) : (s.setLo v).cp0 = s.cp0 := rfl
@[simp] theorem State.setLo_tlb (s : State) (v : Dword) : (s.setLo v).tlb = s.tlb := rfl
@[simp] theorem State.setLo_fgr (s : State) (v : Dword) : (s.setLo v).fgr = s.fgr := rfl
@[simp] theorem State.setLo_fcr31 (s : State) (v : Dword) : (s.setLo v).fcr31 = s.fcr31 := rfl
@[simp] theorem State.setLo_llBit (s : State) (v : Dword) : (s.setLo v).llBit = s.llBit := rfl
@[simp] theorem State.setLo_linkAddr (s : State) (v : Dword) : (s.setLo v).linkAddr = s.linkAddr := rfl
@[simp] theorem State.setLo_linkKnown (s : State) (v : Dword) : (s.setLo v).linkKnown = s.linkKnown := rfl
@[simp] theorem State.setLo_intReg (s : State) (v : Dword) : (s.setLo v).intReg = s.intReg := rfl
@[simp] theorem State.setLo_intPin (s : State) (v : Dword) : (s.setLo v).intPin = s.intPin := rfl
@[simp] theorem State.setLo_nmiPin (s : State) (v : Dword) : (s.setLo v).nmiPin = s.nmiPin := rfl
@[simp] theorem State.setLo_nmiSeen (s : State) (v : Dword) : (s.setLo v).nmiSeen = s.nmiSeen := rfl
@[simp] theorem State.setLo_nmiPending (s : State) (v : Dword) : (s.setLo v).nmiPending = s.nmiPending := rfl
@[simp] theorem State.setLo_timerInt (s : State) (v : Dword) : (s.setLo v).timerInt = s.timerInt := rfl
@[simp] theorem State.setLo_standby (s : State) (v : Dword) : (s.setLo v).standby = s.standby := rfl
@[simp] theorem State.setLo_wb (s : State) (v : Dword) : (s.setLo v).wb = s.wb := rfl
@[simp] theorem State.setLo_icache (s : State) (v : Dword) : (s.setLo v).icache = s.icache := rfl
@[simp] theorem State.setLo_icacheRest (s : State) (v : Dword) : (s.setLo v).icacheRest = s.icacheRest := rfl
@[simp] theorem State.setLo_dcache (s : State) (v : Dword) : (s.setLo v).dcache = s.dcache := rfl
@[simp] theorem State.setLo_dcacheRest (s : State) (v : Dword) : (s.setLo v).dcacheRest = s.dcacheRest := rfl
@[simp] theorem State.setLo_scache (s : State) (v : Dword) : (s.setLo v).scache = s.scache := rfl
@[simp] theorem State.setLo_scacheRest (s : State) (v : Dword) : (s.setLo v).scacheRest = s.scacheRest := rfl
@[simp] theorem State.setLo_mem (s : State) (v : Dword) : (s.setLo v).mem = s.mem := rfl
@[simp] theorem State.setLo_physMap (s : State) (v : Dword) : (s.setLo v).physMap = s.physMap := rfl
@[simp] theorem State.setLo_boot (s : State) (v : Dword) : (s.setLo v).boot = s.boot := rfl
@[simp] theorem State.setLo_free (s : State) (v : Dword) : (s.setLo v).free = s.free := rfl
@[simp] theorem State.setLo_inputs (s : State) (v : Dword) : (s.setLo v).inputs = s.inputs := rfl
@[simp] theorem State.setLo_inp (s : State) (v : Dword) : (s.setLo v).inp = s.inp := rfl
@[simp] theorem State.setLo_hazards (s : State) (v : Dword) : (s.setLo v).hazards = s.hazards := rfl
@[simp] theorem State.setLo_fccOld (s : State) (v : Dword) : (s.setLo v).fccOld = s.fccOld := rfl
@[simp] theorem State.setLo_fpBusy (s : State) (v : Dword) : (s.setLo v).fpBusy = s.fpBusy := rfl
@[simp] theorem State.setLo_entered (s : State) (v : Dword) : (s.setLo v).entered = s.entered := rfl
@[simp] theorem State.setLo_bus (s : State) (v : Dword) : (s.setLo v).bus = s.bus := rfl

@[simp] theorem State.setSeq_gpr (s : State) (p : Dword) (d : Option Dword) : (s.setSeq p d).gpr = s.gpr := rfl
@[simp] theorem State.setSeq_hi (s : State) (p : Dword) (d : Option Dword) : (s.setSeq p d).hi = s.hi := rfl
@[simp] theorem State.setSeq_lo (s : State) (p : Dword) (d : Option Dword) : (s.setSeq p d).lo = s.lo := rfl
@[simp] theorem State.setSeq_pc (s : State) (p : Dword) (d : Option Dword) : (s.setSeq p d).pc = p := rfl
@[simp] theorem State.setSeq_delay (s : State) (p : Dword) (d : Option Dword) : (s.setSeq p d).delay = d := rfl
@[simp] theorem State.setSeq_cp0 (s : State) (p : Dword) (d : Option Dword) : (s.setSeq p d).cp0 = s.cp0 := rfl
@[simp] theorem State.setSeq_tlb (s : State) (p : Dword) (d : Option Dword) : (s.setSeq p d).tlb = s.tlb := rfl
@[simp] theorem State.setSeq_fgr (s : State) (p : Dword) (d : Option Dword) : (s.setSeq p d).fgr = s.fgr := rfl
@[simp] theorem State.setSeq_fcr31 (s : State) (p : Dword) (d : Option Dword) : (s.setSeq p d).fcr31 = s.fcr31 := rfl
@[simp] theorem State.setSeq_llBit (s : State) (p : Dword) (d : Option Dword) : (s.setSeq p d).llBit = s.llBit := rfl
@[simp] theorem State.setSeq_linkAddr (s : State) (p : Dword) (d : Option Dword) : (s.setSeq p d).linkAddr = s.linkAddr := rfl
@[simp] theorem State.setSeq_linkKnown (s : State) (p : Dword) (d : Option Dword) : (s.setSeq p d).linkKnown = s.linkKnown := rfl
@[simp] theorem State.setSeq_intReg (s : State) (p : Dword) (d : Option Dword) : (s.setSeq p d).intReg = s.intReg := rfl
@[simp] theorem State.setSeq_intPin (s : State) (p : Dword) (d : Option Dword) : (s.setSeq p d).intPin = s.intPin := rfl
@[simp] theorem State.setSeq_nmiPin (s : State) (p : Dword) (d : Option Dword) : (s.setSeq p d).nmiPin = s.nmiPin := rfl
@[simp] theorem State.setSeq_nmiSeen (s : State) (p : Dword) (d : Option Dword) : (s.setSeq p d).nmiSeen = s.nmiSeen := rfl
@[simp] theorem State.setSeq_nmiPending (s : State) (p : Dword) (d : Option Dword) : (s.setSeq p d).nmiPending = s.nmiPending := rfl
@[simp] theorem State.setSeq_timerInt (s : State) (p : Dword) (d : Option Dword) : (s.setSeq p d).timerInt = s.timerInt := rfl
@[simp] theorem State.setSeq_standby (s : State) (p : Dword) (d : Option Dword) : (s.setSeq p d).standby = s.standby := rfl
@[simp] theorem State.setSeq_wb (s : State) (p : Dword) (d : Option Dword) : (s.setSeq p d).wb = s.wb := rfl
@[simp] theorem State.setSeq_icache (s : State) (p : Dword) (d : Option Dword) : (s.setSeq p d).icache = s.icache := rfl
@[simp] theorem State.setSeq_icacheRest (s : State) (p : Dword) (d : Option Dword) : (s.setSeq p d).icacheRest = s.icacheRest := rfl
@[simp] theorem State.setSeq_dcache (s : State) (p : Dword) (d : Option Dword) : (s.setSeq p d).dcache = s.dcache := rfl
@[simp] theorem State.setSeq_dcacheRest (s : State) (p : Dword) (d : Option Dword) : (s.setSeq p d).dcacheRest = s.dcacheRest := rfl
@[simp] theorem State.setSeq_scache (s : State) (p : Dword) (d : Option Dword) : (s.setSeq p d).scache = s.scache := rfl
@[simp] theorem State.setSeq_scacheRest (s : State) (p : Dword) (d : Option Dword) : (s.setSeq p d).scacheRest = s.scacheRest := rfl
@[simp] theorem State.setSeq_mem (s : State) (p : Dword) (d : Option Dword) : (s.setSeq p d).mem = s.mem := rfl
@[simp] theorem State.setSeq_physMap (s : State) (p : Dword) (d : Option Dword) : (s.setSeq p d).physMap = s.physMap := rfl
@[simp] theorem State.setSeq_boot (s : State) (p : Dword) (d : Option Dword) : (s.setSeq p d).boot = s.boot := rfl
@[simp] theorem State.setSeq_free (s : State) (p : Dword) (d : Option Dword) : (s.setSeq p d).free = s.free := rfl
@[simp] theorem State.setSeq_inputs (s : State) (p : Dword) (d : Option Dword) : (s.setSeq p d).inputs = s.inputs := rfl
@[simp] theorem State.setSeq_inp (s : State) (p : Dword) (d : Option Dword) : (s.setSeq p d).inp = s.inp := rfl
@[simp] theorem State.setSeq_hazards (s : State) (p : Dword) (d : Option Dword) : (s.setSeq p d).hazards = s.hazards := rfl
@[simp] theorem State.setSeq_fccOld (s : State) (p : Dword) (d : Option Dword) : (s.setSeq p d).fccOld = s.fccOld := rfl
@[simp] theorem State.setSeq_fpBusy (s : State) (p : Dword) (d : Option Dword) : (s.setSeq p d).fpBusy = s.fpBusy := rfl
@[simp] theorem State.setSeq_entered (s : State) (p : Dword) (d : Option Dword) : (s.setSeq p d).entered = s.entered := rfl
@[simp] theorem State.setSeq_bus (s : State) (p : Dword) (d : Option Dword) : (s.setSeq p d).bus = s.bus := rfl

@[simp] theorem State.setCp0_gpr (s : State) (c : Cp0) : (s.setCp0 c).gpr = s.gpr := rfl
@[simp] theorem State.setCp0_hi (s : State) (c : Cp0) : (s.setCp0 c).hi = s.hi := rfl
@[simp] theorem State.setCp0_lo (s : State) (c : Cp0) : (s.setCp0 c).lo = s.lo := rfl
@[simp] theorem State.setCp0_pc (s : State) (c : Cp0) : (s.setCp0 c).pc = s.pc := rfl
@[simp] theorem State.setCp0_delay (s : State) (c : Cp0) : (s.setCp0 c).delay = s.delay := rfl
@[simp] theorem State.setCp0_cp0 (s : State) (c : Cp0) : (s.setCp0 c).cp0 = c := rfl
@[simp] theorem State.setCp0_tlb (s : State) (c : Cp0) : (s.setCp0 c).tlb = s.tlb := rfl
@[simp] theorem State.setCp0_fgr (s : State) (c : Cp0) : (s.setCp0 c).fgr = s.fgr := rfl
@[simp] theorem State.setCp0_fcr31 (s : State) (c : Cp0) : (s.setCp0 c).fcr31 = s.fcr31 := rfl
@[simp] theorem State.setCp0_llBit (s : State) (c : Cp0) : (s.setCp0 c).llBit = s.llBit := rfl
@[simp] theorem State.setCp0_linkAddr (s : State) (c : Cp0) : (s.setCp0 c).linkAddr = s.linkAddr := rfl
@[simp] theorem State.setCp0_linkKnown (s : State) (c : Cp0) : (s.setCp0 c).linkKnown = s.linkKnown := rfl
@[simp] theorem State.setCp0_intReg (s : State) (c : Cp0) : (s.setCp0 c).intReg = s.intReg := rfl
@[simp] theorem State.setCp0_intPin (s : State) (c : Cp0) : (s.setCp0 c).intPin = s.intPin := rfl
@[simp] theorem State.setCp0_nmiPin (s : State) (c : Cp0) : (s.setCp0 c).nmiPin = s.nmiPin := rfl
@[simp] theorem State.setCp0_nmiSeen (s : State) (c : Cp0) : (s.setCp0 c).nmiSeen = s.nmiSeen := rfl
@[simp] theorem State.setCp0_nmiPending (s : State) (c : Cp0) : (s.setCp0 c).nmiPending = s.nmiPending := rfl
@[simp] theorem State.setCp0_timerInt (s : State) (c : Cp0) : (s.setCp0 c).timerInt = s.timerInt := rfl
@[simp] theorem State.setCp0_standby (s : State) (c : Cp0) : (s.setCp0 c).standby = s.standby := rfl
@[simp] theorem State.setCp0_wb (s : State) (c : Cp0) : (s.setCp0 c).wb = s.wb := rfl
@[simp] theorem State.setCp0_icache (s : State) (c : Cp0) : (s.setCp0 c).icache = s.icache := rfl
@[simp] theorem State.setCp0_icacheRest (s : State) (c : Cp0) : (s.setCp0 c).icacheRest = s.icacheRest := rfl
@[simp] theorem State.setCp0_dcache (s : State) (c : Cp0) : (s.setCp0 c).dcache = s.dcache := rfl
@[simp] theorem State.setCp0_dcacheRest (s : State) (c : Cp0) : (s.setCp0 c).dcacheRest = s.dcacheRest := rfl
@[simp] theorem State.setCp0_scache (s : State) (c : Cp0) : (s.setCp0 c).scache = s.scache := rfl
@[simp] theorem State.setCp0_scacheRest (s : State) (c : Cp0) : (s.setCp0 c).scacheRest = s.scacheRest := rfl
@[simp] theorem State.setCp0_mem (s : State) (c : Cp0) : (s.setCp0 c).mem = s.mem := rfl
@[simp] theorem State.setCp0_physMap (s : State) (c : Cp0) : (s.setCp0 c).physMap = s.physMap := rfl
@[simp] theorem State.setCp0_boot (s : State) (c : Cp0) : (s.setCp0 c).boot = s.boot := rfl
@[simp] theorem State.setCp0_free (s : State) (c : Cp0) : (s.setCp0 c).free = s.free := rfl
@[simp] theorem State.setCp0_inputs (s : State) (c : Cp0) : (s.setCp0 c).inputs = s.inputs := rfl
@[simp] theorem State.setCp0_inp (s : State) (c : Cp0) : (s.setCp0 c).inp = s.inp := rfl
@[simp] theorem State.setCp0_hazards (s : State) (c : Cp0) : (s.setCp0 c).hazards = s.hazards := rfl
@[simp] theorem State.setCp0_fccOld (s : State) (c : Cp0) : (s.setCp0 c).fccOld = s.fccOld := rfl
@[simp] theorem State.setCp0_fpBusy (s : State) (c : Cp0) : (s.setCp0 c).fpBusy = s.fpBusy := rfl
@[simp] theorem State.setCp0_entered (s : State) (c : Cp0) : (s.setCp0 c).entered = s.entered := rfl
@[simp] theorem State.setCp0_bus (s : State) (c : Cp0) : (s.setCp0 c).bus = s.bus := rfl

@[simp] theorem State.setStatus_gpr (s : State) (t : StatusReg) : (s.setStatus t).gpr = s.gpr := rfl
@[simp] theorem State.setStatus_hi (s : State) (t : StatusReg) : (s.setStatus t).hi = s.hi := rfl
@[simp] theorem State.setStatus_lo (s : State) (t : StatusReg) : (s.setStatus t).lo = s.lo := rfl
@[simp] theorem State.setStatus_pc (s : State) (t : StatusReg) : (s.setStatus t).pc = s.pc := rfl
@[simp] theorem State.setStatus_delay (s : State) (t : StatusReg) : (s.setStatus t).delay = s.delay := rfl
@[simp] theorem State.setStatus_cp0 (s : State) (t : StatusReg) : (s.setStatus t).cp0 = { s.cp0 with status := t } := rfl
@[simp] theorem State.setStatus_tlb (s : State) (t : StatusReg) : (s.setStatus t).tlb = s.tlb := rfl
@[simp] theorem State.setStatus_fgr (s : State) (t : StatusReg) : (s.setStatus t).fgr = s.fgr := rfl
@[simp] theorem State.setStatus_fcr31 (s : State) (t : StatusReg) : (s.setStatus t).fcr31 = s.fcr31 := rfl
@[simp] theorem State.setStatus_llBit (s : State) (t : StatusReg) : (s.setStatus t).llBit = s.llBit := rfl
@[simp] theorem State.setStatus_linkAddr (s : State) (t : StatusReg) : (s.setStatus t).linkAddr = s.linkAddr := rfl
@[simp] theorem State.setStatus_linkKnown (s : State) (t : StatusReg) : (s.setStatus t).linkKnown = s.linkKnown := rfl
@[simp] theorem State.setStatus_intReg (s : State) (t : StatusReg) : (s.setStatus t).intReg = s.intReg := rfl
@[simp] theorem State.setStatus_intPin (s : State) (t : StatusReg) : (s.setStatus t).intPin = s.intPin := rfl
@[simp] theorem State.setStatus_nmiPin (s : State) (t : StatusReg) : (s.setStatus t).nmiPin = s.nmiPin := rfl
@[simp] theorem State.setStatus_nmiSeen (s : State) (t : StatusReg) : (s.setStatus t).nmiSeen = s.nmiSeen := rfl
@[simp] theorem State.setStatus_nmiPending (s : State) (t : StatusReg) : (s.setStatus t).nmiPending = s.nmiPending := rfl
@[simp] theorem State.setStatus_timerInt (s : State) (t : StatusReg) : (s.setStatus t).timerInt = s.timerInt := rfl
@[simp] theorem State.setStatus_standby (s : State) (t : StatusReg) : (s.setStatus t).standby = s.standby := rfl
@[simp] theorem State.setStatus_wb (s : State) (t : StatusReg) : (s.setStatus t).wb = s.wb := rfl
@[simp] theorem State.setStatus_icache (s : State) (t : StatusReg) : (s.setStatus t).icache = s.icache := rfl
@[simp] theorem State.setStatus_icacheRest (s : State) (t : StatusReg) : (s.setStatus t).icacheRest = s.icacheRest := rfl
@[simp] theorem State.setStatus_dcache (s : State) (t : StatusReg) : (s.setStatus t).dcache = s.dcache := rfl
@[simp] theorem State.setStatus_dcacheRest (s : State) (t : StatusReg) : (s.setStatus t).dcacheRest = s.dcacheRest := rfl
@[simp] theorem State.setStatus_scache (s : State) (t : StatusReg) : (s.setStatus t).scache = s.scache := rfl
@[simp] theorem State.setStatus_scacheRest (s : State) (t : StatusReg) : (s.setStatus t).scacheRest = s.scacheRest := rfl
@[simp] theorem State.setStatus_mem (s : State) (t : StatusReg) : (s.setStatus t).mem = s.mem := rfl
@[simp] theorem State.setStatus_physMap (s : State) (t : StatusReg) : (s.setStatus t).physMap = s.physMap := rfl
@[simp] theorem State.setStatus_boot (s : State) (t : StatusReg) : (s.setStatus t).boot = s.boot := rfl
@[simp] theorem State.setStatus_free (s : State) (t : StatusReg) : (s.setStatus t).free = s.free := rfl
@[simp] theorem State.setStatus_inputs (s : State) (t : StatusReg) : (s.setStatus t).inputs = s.inputs := rfl
@[simp] theorem State.setStatus_inp (s : State) (t : StatusReg) : (s.setStatus t).inp = s.inp := rfl
@[simp] theorem State.setStatus_hazards (s : State) (t : StatusReg) : (s.setStatus t).hazards = s.hazards := rfl
@[simp] theorem State.setStatus_fccOld (s : State) (t : StatusReg) : (s.setStatus t).fccOld = s.fccOld := rfl
@[simp] theorem State.setStatus_fpBusy (s : State) (t : StatusReg) : (s.setStatus t).fpBusy = s.fpBusy := rfl
@[simp] theorem State.setStatus_entered (s : State) (t : StatusReg) : (s.setStatus t).entered = s.entered := rfl
@[simp] theorem State.setStatus_bus (s : State) (t : StatusReg) : (s.setStatus t).bus = s.bus := rfl

@[simp] theorem State.setTlb_gpr (s : State) (i : Fin 48) (e : TlbEntry) : (s.setTlb i e).gpr = s.gpr := rfl
@[simp] theorem State.setTlb_hi (s : State) (i : Fin 48) (e : TlbEntry) : (s.setTlb i e).hi = s.hi := rfl
@[simp] theorem State.setTlb_lo (s : State) (i : Fin 48) (e : TlbEntry) : (s.setTlb i e).lo = s.lo := rfl
@[simp] theorem State.setTlb_pc (s : State) (i : Fin 48) (e : TlbEntry) : (s.setTlb i e).pc = s.pc := rfl
@[simp] theorem State.setTlb_delay (s : State) (i : Fin 48) (e : TlbEntry) : (s.setTlb i e).delay = s.delay := rfl
@[simp] theorem State.setTlb_cp0 (s : State) (i : Fin 48) (e : TlbEntry) : (s.setTlb i e).cp0 = s.cp0 := rfl
@[simp] theorem State.setTlb_tlb (s : State) (i : Fin 48) (e : TlbEntry) : (s.setTlb i e).tlb = s.tlb.set i.val e i.isLt := rfl
@[simp] theorem State.setTlb_fgr (s : State) (i : Fin 48) (e : TlbEntry) : (s.setTlb i e).fgr = s.fgr := rfl
@[simp] theorem State.setTlb_fcr31 (s : State) (i : Fin 48) (e : TlbEntry) : (s.setTlb i e).fcr31 = s.fcr31 := rfl
@[simp] theorem State.setTlb_llBit (s : State) (i : Fin 48) (e : TlbEntry) : (s.setTlb i e).llBit = s.llBit := rfl
@[simp] theorem State.setTlb_linkAddr (s : State) (i : Fin 48) (e : TlbEntry) : (s.setTlb i e).linkAddr = s.linkAddr := rfl
@[simp] theorem State.setTlb_linkKnown (s : State) (i : Fin 48) (e : TlbEntry) : (s.setTlb i e).linkKnown = s.linkKnown := rfl
@[simp] theorem State.setTlb_intReg (s : State) (i : Fin 48) (e : TlbEntry) : (s.setTlb i e).intReg = s.intReg := rfl
@[simp] theorem State.setTlb_intPin (s : State) (i : Fin 48) (e : TlbEntry) : (s.setTlb i e).intPin = s.intPin := rfl
@[simp] theorem State.setTlb_nmiPin (s : State) (i : Fin 48) (e : TlbEntry) : (s.setTlb i e).nmiPin = s.nmiPin := rfl
@[simp] theorem State.setTlb_nmiSeen (s : State) (i : Fin 48) (e : TlbEntry) : (s.setTlb i e).nmiSeen = s.nmiSeen := rfl
@[simp] theorem State.setTlb_nmiPending (s : State) (i : Fin 48) (e : TlbEntry) : (s.setTlb i e).nmiPending = s.nmiPending := rfl
@[simp] theorem State.setTlb_timerInt (s : State) (i : Fin 48) (e : TlbEntry) : (s.setTlb i e).timerInt = s.timerInt := rfl
@[simp] theorem State.setTlb_standby (s : State) (i : Fin 48) (e : TlbEntry) : (s.setTlb i e).standby = s.standby := rfl
@[simp] theorem State.setTlb_wb (s : State) (i : Fin 48) (e : TlbEntry) : (s.setTlb i e).wb = s.wb := rfl
@[simp] theorem State.setTlb_icache (s : State) (i : Fin 48) (e : TlbEntry) : (s.setTlb i e).icache = s.icache := rfl
@[simp] theorem State.setTlb_icacheRest (s : State) (i : Fin 48) (e : TlbEntry) : (s.setTlb i e).icacheRest = s.icacheRest := rfl
@[simp] theorem State.setTlb_dcache (s : State) (i : Fin 48) (e : TlbEntry) : (s.setTlb i e).dcache = s.dcache := rfl
@[simp] theorem State.setTlb_dcacheRest (s : State) (i : Fin 48) (e : TlbEntry) : (s.setTlb i e).dcacheRest = s.dcacheRest := rfl
@[simp] theorem State.setTlb_scache (s : State) (i : Fin 48) (e : TlbEntry) : (s.setTlb i e).scache = s.scache := rfl
@[simp] theorem State.setTlb_scacheRest (s : State) (i : Fin 48) (e : TlbEntry) : (s.setTlb i e).scacheRest = s.scacheRest := rfl
@[simp] theorem State.setTlb_mem (s : State) (i : Fin 48) (e : TlbEntry) : (s.setTlb i e).mem = s.mem := rfl
@[simp] theorem State.setTlb_physMap (s : State) (i : Fin 48) (e : TlbEntry) : (s.setTlb i e).physMap = s.physMap := rfl
@[simp] theorem State.setTlb_boot (s : State) (i : Fin 48) (e : TlbEntry) : (s.setTlb i e).boot = s.boot := rfl
@[simp] theorem State.setTlb_free (s : State) (i : Fin 48) (e : TlbEntry) : (s.setTlb i e).free = s.free := rfl
@[simp] theorem State.setTlb_inputs (s : State) (i : Fin 48) (e : TlbEntry) : (s.setTlb i e).inputs = s.inputs := rfl
@[simp] theorem State.setTlb_inp (s : State) (i : Fin 48) (e : TlbEntry) : (s.setTlb i e).inp = s.inp := rfl
@[simp] theorem State.setTlb_hazards (s : State) (i : Fin 48) (e : TlbEntry) : (s.setTlb i e).hazards = s.hazards := rfl
@[simp] theorem State.setTlb_fccOld (s : State) (i : Fin 48) (e : TlbEntry) : (s.setTlb i e).fccOld = s.fccOld := rfl
@[simp] theorem State.setTlb_fpBusy (s : State) (i : Fin 48) (e : TlbEntry) : (s.setTlb i e).fpBusy = s.fpBusy := rfl
@[simp] theorem State.setTlb_entered (s : State) (i : Fin 48) (e : TlbEntry) : (s.setTlb i e).entered = s.entered := rfl
@[simp] theorem State.setTlb_bus (s : State) (i : Fin 48) (e : TlbEntry) : (s.setTlb i e).bus = s.bus := rfl

@[simp] theorem State.setFgr_gpr (s : State) (r : RegNum) (v : Dword) : (s.setFgr r v).gpr = s.gpr := rfl
@[simp] theorem State.setFgr_hi (s : State) (r : RegNum) (v : Dword) : (s.setFgr r v).hi = s.hi := rfl
@[simp] theorem State.setFgr_lo (s : State) (r : RegNum) (v : Dword) : (s.setFgr r v).lo = s.lo := rfl
@[simp] theorem State.setFgr_pc (s : State) (r : RegNum) (v : Dword) : (s.setFgr r v).pc = s.pc := rfl
@[simp] theorem State.setFgr_delay (s : State) (r : RegNum) (v : Dword) : (s.setFgr r v).delay = s.delay := rfl
@[simp] theorem State.setFgr_cp0 (s : State) (r : RegNum) (v : Dword) : (s.setFgr r v).cp0 = s.cp0 := rfl
@[simp] theorem State.setFgr_tlb (s : State) (r : RegNum) (v : Dword) : (s.setFgr r v).tlb = s.tlb := rfl
@[simp] theorem State.setFgr_fgr (s : State) (r : RegNum) (v : Dword) : (s.setFgr r v).fgr = s.fgr.set r.toNat v r.isLt := rfl
@[simp] theorem State.setFgr_fcr31 (s : State) (r : RegNum) (v : Dword) : (s.setFgr r v).fcr31 = s.fcr31 := rfl
@[simp] theorem State.setFgr_llBit (s : State) (r : RegNum) (v : Dword) : (s.setFgr r v).llBit = s.llBit := rfl
@[simp] theorem State.setFgr_linkAddr (s : State) (r : RegNum) (v : Dword) : (s.setFgr r v).linkAddr = s.linkAddr := rfl
@[simp] theorem State.setFgr_linkKnown (s : State) (r : RegNum) (v : Dword) : (s.setFgr r v).linkKnown = s.linkKnown := rfl
@[simp] theorem State.setFgr_intReg (s : State) (r : RegNum) (v : Dword) : (s.setFgr r v).intReg = s.intReg := rfl
@[simp] theorem State.setFgr_intPin (s : State) (r : RegNum) (v : Dword) : (s.setFgr r v).intPin = s.intPin := rfl
@[simp] theorem State.setFgr_nmiPin (s : State) (r : RegNum) (v : Dword) : (s.setFgr r v).nmiPin = s.nmiPin := rfl
@[simp] theorem State.setFgr_nmiSeen (s : State) (r : RegNum) (v : Dword) : (s.setFgr r v).nmiSeen = s.nmiSeen := rfl
@[simp] theorem State.setFgr_nmiPending (s : State) (r : RegNum) (v : Dword) : (s.setFgr r v).nmiPending = s.nmiPending := rfl
@[simp] theorem State.setFgr_timerInt (s : State) (r : RegNum) (v : Dword) : (s.setFgr r v).timerInt = s.timerInt := rfl
@[simp] theorem State.setFgr_standby (s : State) (r : RegNum) (v : Dword) : (s.setFgr r v).standby = s.standby := rfl
@[simp] theorem State.setFgr_wb (s : State) (r : RegNum) (v : Dword) : (s.setFgr r v).wb = s.wb := rfl
@[simp] theorem State.setFgr_icache (s : State) (r : RegNum) (v : Dword) : (s.setFgr r v).icache = s.icache := rfl
@[simp] theorem State.setFgr_icacheRest (s : State) (r : RegNum) (v : Dword) : (s.setFgr r v).icacheRest = s.icacheRest := rfl
@[simp] theorem State.setFgr_dcache (s : State) (r : RegNum) (v : Dword) : (s.setFgr r v).dcache = s.dcache := rfl
@[simp] theorem State.setFgr_dcacheRest (s : State) (r : RegNum) (v : Dword) : (s.setFgr r v).dcacheRest = s.dcacheRest := rfl
@[simp] theorem State.setFgr_scache (s : State) (r : RegNum) (v : Dword) : (s.setFgr r v).scache = s.scache := rfl
@[simp] theorem State.setFgr_scacheRest (s : State) (r : RegNum) (v : Dword) : (s.setFgr r v).scacheRest = s.scacheRest := rfl
@[simp] theorem State.setFgr_mem (s : State) (r : RegNum) (v : Dword) : (s.setFgr r v).mem = s.mem := rfl
@[simp] theorem State.setFgr_physMap (s : State) (r : RegNum) (v : Dword) : (s.setFgr r v).physMap = s.physMap := rfl
@[simp] theorem State.setFgr_boot (s : State) (r : RegNum) (v : Dword) : (s.setFgr r v).boot = s.boot := rfl
@[simp] theorem State.setFgr_free (s : State) (r : RegNum) (v : Dword) : (s.setFgr r v).free = s.free := rfl
@[simp] theorem State.setFgr_inputs (s : State) (r : RegNum) (v : Dword) : (s.setFgr r v).inputs = s.inputs := rfl
@[simp] theorem State.setFgr_inp (s : State) (r : RegNum) (v : Dword) : (s.setFgr r v).inp = s.inp := rfl
@[simp] theorem State.setFgr_hazards (s : State) (r : RegNum) (v : Dword) : (s.setFgr r v).hazards = s.hazards := rfl
@[simp] theorem State.setFgr_fccOld (s : State) (r : RegNum) (v : Dword) : (s.setFgr r v).fccOld = s.fccOld := rfl
@[simp] theorem State.setFgr_fpBusy (s : State) (r : RegNum) (v : Dword) : (s.setFgr r v).fpBusy = s.fpBusy := rfl
@[simp] theorem State.setFgr_entered (s : State) (r : RegNum) (v : Dword) : (s.setFgr r v).entered = s.entered := rfl
@[simp] theorem State.setFgr_bus (s : State) (r : RegNum) (v : Dword) : (s.setFgr r v).bus = s.bus := rfl

@[simp] theorem State.setFcr31_gpr (s : State) (f : Fcr31) : (s.setFcr31 f).gpr = s.gpr := rfl
@[simp] theorem State.setFcr31_hi (s : State) (f : Fcr31) : (s.setFcr31 f).hi = s.hi := rfl
@[simp] theorem State.setFcr31_lo (s : State) (f : Fcr31) : (s.setFcr31 f).lo = s.lo := rfl
@[simp] theorem State.setFcr31_pc (s : State) (f : Fcr31) : (s.setFcr31 f).pc = s.pc := rfl
@[simp] theorem State.setFcr31_delay (s : State) (f : Fcr31) : (s.setFcr31 f).delay = s.delay := rfl
@[simp] theorem State.setFcr31_cp0 (s : State) (f : Fcr31) : (s.setFcr31 f).cp0 = s.cp0 := rfl
@[simp] theorem State.setFcr31_tlb (s : State) (f : Fcr31) : (s.setFcr31 f).tlb = s.tlb := rfl
@[simp] theorem State.setFcr31_fgr (s : State) (f : Fcr31) : (s.setFcr31 f).fgr = s.fgr := rfl
@[simp] theorem State.setFcr31_fcr31 (s : State) (f : Fcr31) : (s.setFcr31 f).fcr31 = f := rfl
@[simp] theorem State.setFcr31_llBit (s : State) (f : Fcr31) : (s.setFcr31 f).llBit = s.llBit := rfl
@[simp] theorem State.setFcr31_linkAddr (s : State) (f : Fcr31) : (s.setFcr31 f).linkAddr = s.linkAddr := rfl
@[simp] theorem State.setFcr31_linkKnown (s : State) (f : Fcr31) : (s.setFcr31 f).linkKnown = s.linkKnown := rfl
@[simp] theorem State.setFcr31_intReg (s : State) (f : Fcr31) : (s.setFcr31 f).intReg = s.intReg := rfl
@[simp] theorem State.setFcr31_intPin (s : State) (f : Fcr31) : (s.setFcr31 f).intPin = s.intPin := rfl
@[simp] theorem State.setFcr31_nmiPin (s : State) (f : Fcr31) : (s.setFcr31 f).nmiPin = s.nmiPin := rfl
@[simp] theorem State.setFcr31_nmiSeen (s : State) (f : Fcr31) : (s.setFcr31 f).nmiSeen = s.nmiSeen := rfl
@[simp] theorem State.setFcr31_nmiPending (s : State) (f : Fcr31) : (s.setFcr31 f).nmiPending = s.nmiPending := rfl
@[simp] theorem State.setFcr31_timerInt (s : State) (f : Fcr31) : (s.setFcr31 f).timerInt = s.timerInt := rfl
@[simp] theorem State.setFcr31_standby (s : State) (f : Fcr31) : (s.setFcr31 f).standby = s.standby := rfl
@[simp] theorem State.setFcr31_wb (s : State) (f : Fcr31) : (s.setFcr31 f).wb = s.wb := rfl
@[simp] theorem State.setFcr31_icache (s : State) (f : Fcr31) : (s.setFcr31 f).icache = s.icache := rfl
@[simp] theorem State.setFcr31_icacheRest (s : State) (f : Fcr31) : (s.setFcr31 f).icacheRest = s.icacheRest := rfl
@[simp] theorem State.setFcr31_dcache (s : State) (f : Fcr31) : (s.setFcr31 f).dcache = s.dcache := rfl
@[simp] theorem State.setFcr31_dcacheRest (s : State) (f : Fcr31) : (s.setFcr31 f).dcacheRest = s.dcacheRest := rfl
@[simp] theorem State.setFcr31_scache (s : State) (f : Fcr31) : (s.setFcr31 f).scache = s.scache := rfl
@[simp] theorem State.setFcr31_scacheRest (s : State) (f : Fcr31) : (s.setFcr31 f).scacheRest = s.scacheRest := rfl
@[simp] theorem State.setFcr31_mem (s : State) (f : Fcr31) : (s.setFcr31 f).mem = s.mem := rfl
@[simp] theorem State.setFcr31_physMap (s : State) (f : Fcr31) : (s.setFcr31 f).physMap = s.physMap := rfl
@[simp] theorem State.setFcr31_boot (s : State) (f : Fcr31) : (s.setFcr31 f).boot = s.boot := rfl
@[simp] theorem State.setFcr31_free (s : State) (f : Fcr31) : (s.setFcr31 f).free = s.free := rfl
@[simp] theorem State.setFcr31_inputs (s : State) (f : Fcr31) : (s.setFcr31 f).inputs = s.inputs := rfl
@[simp] theorem State.setFcr31_inp (s : State) (f : Fcr31) : (s.setFcr31 f).inp = s.inp := rfl
@[simp] theorem State.setFcr31_hazards (s : State) (f : Fcr31) : (s.setFcr31 f).hazards = s.hazards := rfl
@[simp] theorem State.setFcr31_fccOld (s : State) (f : Fcr31) : (s.setFcr31 f).fccOld = s.fccOld := rfl
@[simp] theorem State.setFcr31_fpBusy (s : State) (f : Fcr31) : (s.setFcr31 f).fpBusy = s.fpBusy := rfl
@[simp] theorem State.setFcr31_entered (s : State) (f : Fcr31) : (s.setFcr31 f).entered = s.entered := rfl
@[simp] theorem State.setFcr31_bus (s : State) (f : Fcr31) : (s.setFcr31 f).bus = s.bus := rfl

@[simp] theorem State.setLlBit_gpr (s : State) (b : Bool) : (s.setLlBit b).gpr = s.gpr := rfl
@[simp] theorem State.setLlBit_hi (s : State) (b : Bool) : (s.setLlBit b).hi = s.hi := rfl
@[simp] theorem State.setLlBit_lo (s : State) (b : Bool) : (s.setLlBit b).lo = s.lo := rfl
@[simp] theorem State.setLlBit_pc (s : State) (b : Bool) : (s.setLlBit b).pc = s.pc := rfl
@[simp] theorem State.setLlBit_delay (s : State) (b : Bool) : (s.setLlBit b).delay = s.delay := rfl
@[simp] theorem State.setLlBit_cp0 (s : State) (b : Bool) : (s.setLlBit b).cp0 = s.cp0 := rfl
@[simp] theorem State.setLlBit_tlb (s : State) (b : Bool) : (s.setLlBit b).tlb = s.tlb := rfl
@[simp] theorem State.setLlBit_fgr (s : State) (b : Bool) : (s.setLlBit b).fgr = s.fgr := rfl
@[simp] theorem State.setLlBit_fcr31 (s : State) (b : Bool) : (s.setLlBit b).fcr31 = s.fcr31 := rfl
@[simp] theorem State.setLlBit_llBit (s : State) (b : Bool) : (s.setLlBit b).llBit = b := rfl
@[simp] theorem State.setLlBit_linkAddr (s : State) (b : Bool) : (s.setLlBit b).linkAddr = s.linkAddr := rfl
@[simp] theorem State.setLlBit_linkKnown (s : State) (b : Bool) : (s.setLlBit b).linkKnown = s.linkKnown := rfl
@[simp] theorem State.setLlBit_intReg (s : State) (b : Bool) : (s.setLlBit b).intReg = s.intReg := rfl
@[simp] theorem State.setLlBit_intPin (s : State) (b : Bool) : (s.setLlBit b).intPin = s.intPin := rfl
@[simp] theorem State.setLlBit_nmiPin (s : State) (b : Bool) : (s.setLlBit b).nmiPin = s.nmiPin := rfl
@[simp] theorem State.setLlBit_nmiSeen (s : State) (b : Bool) : (s.setLlBit b).nmiSeen = s.nmiSeen := rfl
@[simp] theorem State.setLlBit_nmiPending (s : State) (b : Bool) : (s.setLlBit b).nmiPending = s.nmiPending := rfl
@[simp] theorem State.setLlBit_timerInt (s : State) (b : Bool) : (s.setLlBit b).timerInt = s.timerInt := rfl
@[simp] theorem State.setLlBit_standby (s : State) (b : Bool) : (s.setLlBit b).standby = s.standby := rfl
@[simp] theorem State.setLlBit_wb (s : State) (b : Bool) : (s.setLlBit b).wb = s.wb := rfl
@[simp] theorem State.setLlBit_icache (s : State) (b : Bool) : (s.setLlBit b).icache = s.icache := rfl
@[simp] theorem State.setLlBit_icacheRest (s : State) (b : Bool) : (s.setLlBit b).icacheRest = s.icacheRest := rfl
@[simp] theorem State.setLlBit_dcache (s : State) (b : Bool) : (s.setLlBit b).dcache = s.dcache := rfl
@[simp] theorem State.setLlBit_dcacheRest (s : State) (b : Bool) : (s.setLlBit b).dcacheRest = s.dcacheRest := rfl
@[simp] theorem State.setLlBit_scache (s : State) (b : Bool) : (s.setLlBit b).scache = s.scache := rfl
@[simp] theorem State.setLlBit_scacheRest (s : State) (b : Bool) : (s.setLlBit b).scacheRest = s.scacheRest := rfl
@[simp] theorem State.setLlBit_mem (s : State) (b : Bool) : (s.setLlBit b).mem = s.mem := rfl
@[simp] theorem State.setLlBit_physMap (s : State) (b : Bool) : (s.setLlBit b).physMap = s.physMap := rfl
@[simp] theorem State.setLlBit_boot (s : State) (b : Bool) : (s.setLlBit b).boot = s.boot := rfl
@[simp] theorem State.setLlBit_free (s : State) (b : Bool) : (s.setLlBit b).free = s.free := rfl
@[simp] theorem State.setLlBit_inputs (s : State) (b : Bool) : (s.setLlBit b).inputs = s.inputs := rfl
@[simp] theorem State.setLlBit_inp (s : State) (b : Bool) : (s.setLlBit b).inp = s.inp := rfl
@[simp] theorem State.setLlBit_hazards (s : State) (b : Bool) : (s.setLlBit b).hazards = s.hazards := rfl
@[simp] theorem State.setLlBit_fccOld (s : State) (b : Bool) : (s.setLlBit b).fccOld = s.fccOld := rfl
@[simp] theorem State.setLlBit_fpBusy (s : State) (b : Bool) : (s.setLlBit b).fpBusy = s.fpBusy := rfl
@[simp] theorem State.setLlBit_entered (s : State) (b : Bool) : (s.setLlBit b).entered = s.entered := rfl
@[simp] theorem State.setLlBit_bus (s : State) (b : Bool) : (s.setLlBit b).bus = s.bus := rfl

@[simp] theorem State.setLink_gpr (s : State) (pa : PAddr) : (s.setLink pa).gpr = s.gpr := rfl
@[simp] theorem State.setLink_hi (s : State) (pa : PAddr) : (s.setLink pa).hi = s.hi := rfl
@[simp] theorem State.setLink_lo (s : State) (pa : PAddr) : (s.setLink pa).lo = s.lo := rfl
@[simp] theorem State.setLink_pc (s : State) (pa : PAddr) : (s.setLink pa).pc = s.pc := rfl
@[simp] theorem State.setLink_delay (s : State) (pa : PAddr) : (s.setLink pa).delay = s.delay := rfl
@[simp] theorem State.setLink_cp0 (s : State) (pa : PAddr) : (s.setLink pa).cp0 = s.cp0 := rfl
@[simp] theorem State.setLink_tlb (s : State) (pa : PAddr) : (s.setLink pa).tlb = s.tlb := rfl
@[simp] theorem State.setLink_fgr (s : State) (pa : PAddr) : (s.setLink pa).fgr = s.fgr := rfl
@[simp] theorem State.setLink_fcr31 (s : State) (pa : PAddr) : (s.setLink pa).fcr31 = s.fcr31 := rfl
@[simp] theorem State.setLink_llBit (s : State) (pa : PAddr) : (s.setLink pa).llBit = true := rfl
@[simp] theorem State.setLink_linkAddr (s : State) (pa : PAddr) : (s.setLink pa).linkAddr = pa := rfl
@[simp] theorem State.setLink_linkKnown (s : State) (pa : PAddr) : (s.setLink pa).linkKnown = true := rfl
@[simp] theorem State.setLink_intReg (s : State) (pa : PAddr) : (s.setLink pa).intReg = s.intReg := rfl
@[simp] theorem State.setLink_intPin (s : State) (pa : PAddr) : (s.setLink pa).intPin = s.intPin := rfl
@[simp] theorem State.setLink_nmiPin (s : State) (pa : PAddr) : (s.setLink pa).nmiPin = s.nmiPin := rfl
@[simp] theorem State.setLink_nmiSeen (s : State) (pa : PAddr) : (s.setLink pa).nmiSeen = s.nmiSeen := rfl
@[simp] theorem State.setLink_nmiPending (s : State) (pa : PAddr) : (s.setLink pa).nmiPending = s.nmiPending := rfl
@[simp] theorem State.setLink_timerInt (s : State) (pa : PAddr) : (s.setLink pa).timerInt = s.timerInt := rfl
@[simp] theorem State.setLink_standby (s : State) (pa : PAddr) : (s.setLink pa).standby = s.standby := rfl
@[simp] theorem State.setLink_wb (s : State) (pa : PAddr) : (s.setLink pa).wb = s.wb := rfl
@[simp] theorem State.setLink_icache (s : State) (pa : PAddr) : (s.setLink pa).icache = s.icache := rfl
@[simp] theorem State.setLink_icacheRest (s : State) (pa : PAddr) : (s.setLink pa).icacheRest = s.icacheRest := rfl
@[simp] theorem State.setLink_dcache (s : State) (pa : PAddr) : (s.setLink pa).dcache = s.dcache := rfl
@[simp] theorem State.setLink_dcacheRest (s : State) (pa : PAddr) : (s.setLink pa).dcacheRest = s.dcacheRest := rfl
@[simp] theorem State.setLink_scache (s : State) (pa : PAddr) : (s.setLink pa).scache = s.scache := rfl
@[simp] theorem State.setLink_scacheRest (s : State) (pa : PAddr) : (s.setLink pa).scacheRest = s.scacheRest := rfl
@[simp] theorem State.setLink_mem (s : State) (pa : PAddr) : (s.setLink pa).mem = s.mem := rfl
@[simp] theorem State.setLink_physMap (s : State) (pa : PAddr) : (s.setLink pa).physMap = s.physMap := rfl
@[simp] theorem State.setLink_boot (s : State) (pa : PAddr) : (s.setLink pa).boot = s.boot := rfl
@[simp] theorem State.setLink_free (s : State) (pa : PAddr) : (s.setLink pa).free = s.free := rfl
@[simp] theorem State.setLink_inputs (s : State) (pa : PAddr) : (s.setLink pa).inputs = s.inputs := rfl
@[simp] theorem State.setLink_inp (s : State) (pa : PAddr) : (s.setLink pa).inp = s.inp := rfl
@[simp] theorem State.setLink_hazards (s : State) (pa : PAddr) : (s.setLink pa).hazards = s.hazards := rfl
@[simp] theorem State.setLink_fccOld (s : State) (pa : PAddr) : (s.setLink pa).fccOld = s.fccOld := rfl
@[simp] theorem State.setLink_fpBusy (s : State) (pa : PAddr) : (s.setLink pa).fpBusy = s.fpBusy := rfl
@[simp] theorem State.setLink_entered (s : State) (pa : PAddr) : (s.setLink pa).entered = s.entered := rfl
@[simp] theorem State.setLink_bus (s : State) (pa : PAddr) : (s.setLink pa).bus = s.bus := rfl

@[simp] theorem State.dropLink_gpr (s : State) : (s.dropLink).gpr = s.gpr := rfl
@[simp] theorem State.dropLink_hi (s : State) : (s.dropLink).hi = s.hi := rfl
@[simp] theorem State.dropLink_lo (s : State) : (s.dropLink).lo = s.lo := rfl
@[simp] theorem State.dropLink_pc (s : State) : (s.dropLink).pc = s.pc := rfl
@[simp] theorem State.dropLink_delay (s : State) : (s.dropLink).delay = s.delay := rfl
@[simp] theorem State.dropLink_cp0 (s : State) : (s.dropLink).cp0 = s.cp0 := rfl
@[simp] theorem State.dropLink_tlb (s : State) : (s.dropLink).tlb = s.tlb := rfl
@[simp] theorem State.dropLink_fgr (s : State) : (s.dropLink).fgr = s.fgr := rfl
@[simp] theorem State.dropLink_fcr31 (s : State) : (s.dropLink).fcr31 = s.fcr31 := rfl
@[simp] theorem State.dropLink_llBit (s : State) : (s.dropLink).llBit = false := rfl
@[simp] theorem State.dropLink_linkAddr (s : State) : (s.dropLink).linkAddr = s.linkAddr := rfl
@[simp] theorem State.dropLink_linkKnown (s : State) : (s.dropLink).linkKnown = false := rfl
@[simp] theorem State.dropLink_intReg (s : State) : (s.dropLink).intReg = s.intReg := rfl
@[simp] theorem State.dropLink_intPin (s : State) : (s.dropLink).intPin = s.intPin := rfl
@[simp] theorem State.dropLink_nmiPin (s : State) : (s.dropLink).nmiPin = s.nmiPin := rfl
@[simp] theorem State.dropLink_nmiSeen (s : State) : (s.dropLink).nmiSeen = s.nmiSeen := rfl
@[simp] theorem State.dropLink_nmiPending (s : State) : (s.dropLink).nmiPending = s.nmiPending := rfl
@[simp] theorem State.dropLink_timerInt (s : State) : (s.dropLink).timerInt = s.timerInt := rfl
@[simp] theorem State.dropLink_standby (s : State) : (s.dropLink).standby = s.standby := rfl
@[simp] theorem State.dropLink_wb (s : State) : (s.dropLink).wb = s.wb := rfl
@[simp] theorem State.dropLink_icache (s : State) : (s.dropLink).icache = s.icache := rfl
@[simp] theorem State.dropLink_icacheRest (s : State) : (s.dropLink).icacheRest = s.icacheRest := rfl
@[simp] theorem State.dropLink_dcache (s : State) : (s.dropLink).dcache = s.dcache := rfl
@[simp] theorem State.dropLink_dcacheRest (s : State) : (s.dropLink).dcacheRest = s.dcacheRest := rfl
@[simp] theorem State.dropLink_scache (s : State) : (s.dropLink).scache = s.scache := rfl
@[simp] theorem State.dropLink_scacheRest (s : State) : (s.dropLink).scacheRest = s.scacheRest := rfl
@[simp] theorem State.dropLink_mem (s : State) : (s.dropLink).mem = s.mem := rfl
@[simp] theorem State.dropLink_physMap (s : State) : (s.dropLink).physMap = s.physMap := rfl
@[simp] theorem State.dropLink_boot (s : State) : (s.dropLink).boot = s.boot := rfl
@[simp] theorem State.dropLink_free (s : State) : (s.dropLink).free = s.free := rfl
@[simp] theorem State.dropLink_inputs (s : State) : (s.dropLink).inputs = s.inputs := rfl
@[simp] theorem State.dropLink_inp (s : State) : (s.dropLink).inp = s.inp := rfl
@[simp] theorem State.dropLink_hazards (s : State) : (s.dropLink).hazards = s.hazards := rfl
@[simp] theorem State.dropLink_fccOld (s : State) : (s.dropLink).fccOld = s.fccOld := rfl
@[simp] theorem State.dropLink_fpBusy (s : State) : (s.dropLink).fpBusy = s.fpBusy := rfl
@[simp] theorem State.dropLink_entered (s : State) : (s.dropLink).entered = s.entered := rfl
@[simp] theorem State.dropLink_bus (s : State) : (s.dropLink).bus = s.bus := rfl

@[simp] theorem State.setWb_gpr (s : State) (w : List WbEntry) : (s.setWb w).gpr = s.gpr := rfl
@[simp] theorem State.setWb_hi (s : State) (w : List WbEntry) : (s.setWb w).hi = s.hi := rfl
@[simp] theorem State.setWb_lo (s : State) (w : List WbEntry) : (s.setWb w).lo = s.lo := rfl
@[simp] theorem State.setWb_pc (s : State) (w : List WbEntry) : (s.setWb w).pc = s.pc := rfl
@[simp] theorem State.setWb_delay (s : State) (w : List WbEntry) : (s.setWb w).delay = s.delay := rfl
@[simp] theorem State.setWb_cp0 (s : State) (w : List WbEntry) : (s.setWb w).cp0 = s.cp0 := rfl
@[simp] theorem State.setWb_tlb (s : State) (w : List WbEntry) : (s.setWb w).tlb = s.tlb := rfl
@[simp] theorem State.setWb_fgr (s : State) (w : List WbEntry) : (s.setWb w).fgr = s.fgr := rfl
@[simp] theorem State.setWb_fcr31 (s : State) (w : List WbEntry) : (s.setWb w).fcr31 = s.fcr31 := rfl
@[simp] theorem State.setWb_llBit (s : State) (w : List WbEntry) : (s.setWb w).llBit = s.llBit := rfl
@[simp] theorem State.setWb_linkAddr (s : State) (w : List WbEntry) : (s.setWb w).linkAddr = s.linkAddr := rfl
@[simp] theorem State.setWb_linkKnown (s : State) (w : List WbEntry) : (s.setWb w).linkKnown = s.linkKnown := rfl
@[simp] theorem State.setWb_intReg (s : State) (w : List WbEntry) : (s.setWb w).intReg = s.intReg := rfl
@[simp] theorem State.setWb_intPin (s : State) (w : List WbEntry) : (s.setWb w).intPin = s.intPin := rfl
@[simp] theorem State.setWb_nmiPin (s : State) (w : List WbEntry) : (s.setWb w).nmiPin = s.nmiPin := rfl
@[simp] theorem State.setWb_nmiSeen (s : State) (w : List WbEntry) : (s.setWb w).nmiSeen = s.nmiSeen := rfl
@[simp] theorem State.setWb_nmiPending (s : State) (w : List WbEntry) : (s.setWb w).nmiPending = s.nmiPending := rfl
@[simp] theorem State.setWb_timerInt (s : State) (w : List WbEntry) : (s.setWb w).timerInt = s.timerInt := rfl
@[simp] theorem State.setWb_standby (s : State) (w : List WbEntry) : (s.setWb w).standby = s.standby := rfl
@[simp] theorem State.setWb_wb (s : State) (w : List WbEntry) : (s.setWb w).wb = w := rfl
@[simp] theorem State.setWb_icache (s : State) (w : List WbEntry) : (s.setWb w).icache = s.icache := rfl
@[simp] theorem State.setWb_icacheRest (s : State) (w : List WbEntry) : (s.setWb w).icacheRest = s.icacheRest := rfl
@[simp] theorem State.setWb_dcache (s : State) (w : List WbEntry) : (s.setWb w).dcache = s.dcache := rfl
@[simp] theorem State.setWb_dcacheRest (s : State) (w : List WbEntry) : (s.setWb w).dcacheRest = s.dcacheRest := rfl
@[simp] theorem State.setWb_scache (s : State) (w : List WbEntry) : (s.setWb w).scache = s.scache := rfl
@[simp] theorem State.setWb_scacheRest (s : State) (w : List WbEntry) : (s.setWb w).scacheRest = s.scacheRest := rfl
@[simp] theorem State.setWb_mem (s : State) (w : List WbEntry) : (s.setWb w).mem = s.mem := rfl
@[simp] theorem State.setWb_physMap (s : State) (w : List WbEntry) : (s.setWb w).physMap = s.physMap := rfl
@[simp] theorem State.setWb_boot (s : State) (w : List WbEntry) : (s.setWb w).boot = s.boot := rfl
@[simp] theorem State.setWb_free (s : State) (w : List WbEntry) : (s.setWb w).free = s.free := rfl
@[simp] theorem State.setWb_inputs (s : State) (w : List WbEntry) : (s.setWb w).inputs = s.inputs := rfl
@[simp] theorem State.setWb_inp (s : State) (w : List WbEntry) : (s.setWb w).inp = s.inp := rfl
@[simp] theorem State.setWb_hazards (s : State) (w : List WbEntry) : (s.setWb w).hazards = s.hazards := rfl
@[simp] theorem State.setWb_fccOld (s : State) (w : List WbEntry) : (s.setWb w).fccOld = s.fccOld := rfl
@[simp] theorem State.setWb_fpBusy (s : State) (w : List WbEntry) : (s.setWb w).fpBusy = s.fpBusy := rfl
@[simp] theorem State.setWb_entered (s : State) (w : List WbEntry) : (s.setWb w).entered = s.entered := rfl
@[simp] theorem State.setWb_bus (s : State) (w : List WbEntry) : (s.setWb w).bus = s.bus := rfl

@[simp] theorem State.setMem_gpr (s : State) (m : Memory) : (s.setMem m).gpr = s.gpr := rfl
@[simp] theorem State.setMem_hi (s : State) (m : Memory) : (s.setMem m).hi = s.hi := rfl
@[simp] theorem State.setMem_lo (s : State) (m : Memory) : (s.setMem m).lo = s.lo := rfl
@[simp] theorem State.setMem_pc (s : State) (m : Memory) : (s.setMem m).pc = s.pc := rfl
@[simp] theorem State.setMem_delay (s : State) (m : Memory) : (s.setMem m).delay = s.delay := rfl
@[simp] theorem State.setMem_cp0 (s : State) (m : Memory) : (s.setMem m).cp0 = s.cp0 := rfl
@[simp] theorem State.setMem_tlb (s : State) (m : Memory) : (s.setMem m).tlb = s.tlb := rfl
@[simp] theorem State.setMem_fgr (s : State) (m : Memory) : (s.setMem m).fgr = s.fgr := rfl
@[simp] theorem State.setMem_fcr31 (s : State) (m : Memory) : (s.setMem m).fcr31 = s.fcr31 := rfl
@[simp] theorem State.setMem_llBit (s : State) (m : Memory) : (s.setMem m).llBit = s.llBit := rfl
@[simp] theorem State.setMem_linkAddr (s : State) (m : Memory) : (s.setMem m).linkAddr = s.linkAddr := rfl
@[simp] theorem State.setMem_linkKnown (s : State) (m : Memory) : (s.setMem m).linkKnown = s.linkKnown := rfl
@[simp] theorem State.setMem_intReg (s : State) (m : Memory) : (s.setMem m).intReg = s.intReg := rfl
@[simp] theorem State.setMem_intPin (s : State) (m : Memory) : (s.setMem m).intPin = s.intPin := rfl
@[simp] theorem State.setMem_nmiPin (s : State) (m : Memory) : (s.setMem m).nmiPin = s.nmiPin := rfl
@[simp] theorem State.setMem_nmiSeen (s : State) (m : Memory) : (s.setMem m).nmiSeen = s.nmiSeen := rfl
@[simp] theorem State.setMem_nmiPending (s : State) (m : Memory) : (s.setMem m).nmiPending = s.nmiPending := rfl
@[simp] theorem State.setMem_timerInt (s : State) (m : Memory) : (s.setMem m).timerInt = s.timerInt := rfl
@[simp] theorem State.setMem_standby (s : State) (m : Memory) : (s.setMem m).standby = s.standby := rfl
@[simp] theorem State.setMem_wb (s : State) (m : Memory) : (s.setMem m).wb = s.wb := rfl
@[simp] theorem State.setMem_icache (s : State) (m : Memory) : (s.setMem m).icache = s.icache := rfl
@[simp] theorem State.setMem_icacheRest (s : State) (m : Memory) : (s.setMem m).icacheRest = s.icacheRest := rfl
@[simp] theorem State.setMem_dcache (s : State) (m : Memory) : (s.setMem m).dcache = s.dcache := rfl
@[simp] theorem State.setMem_dcacheRest (s : State) (m : Memory) : (s.setMem m).dcacheRest = s.dcacheRest := rfl
@[simp] theorem State.setMem_scache (s : State) (m : Memory) : (s.setMem m).scache = s.scache := rfl
@[simp] theorem State.setMem_scacheRest (s : State) (m : Memory) : (s.setMem m).scacheRest = s.scacheRest := rfl
@[simp] theorem State.setMem_mem (s : State) (m : Memory) : (s.setMem m).mem = m := rfl
@[simp] theorem State.setMem_physMap (s : State) (m : Memory) : (s.setMem m).physMap = s.physMap := rfl
@[simp] theorem State.setMem_boot (s : State) (m : Memory) : (s.setMem m).boot = s.boot := rfl
@[simp] theorem State.setMem_free (s : State) (m : Memory) : (s.setMem m).free = s.free := rfl
@[simp] theorem State.setMem_inputs (s : State) (m : Memory) : (s.setMem m).inputs = s.inputs := rfl
@[simp] theorem State.setMem_inp (s : State) (m : Memory) : (s.setMem m).inp = s.inp := rfl
@[simp] theorem State.setMem_hazards (s : State) (m : Memory) : (s.setMem m).hazards = s.hazards := rfl
@[simp] theorem State.setMem_fccOld (s : State) (m : Memory) : (s.setMem m).fccOld = s.fccOld := rfl
@[simp] theorem State.setMem_fpBusy (s : State) (m : Memory) : (s.setMem m).fpBusy = s.fpBusy := rfl
@[simp] theorem State.setMem_entered (s : State) (m : Memory) : (s.setMem m).entered = s.entered := rfl
@[simp] theorem State.setMem_bus (s : State) (m : Memory) : (s.setMem m).bus = s.bus := rfl

@[simp] theorem State.setICache_gpr (s : State) (c : List (Nat × ISet)) : (s.setICache c).gpr = s.gpr := rfl
@[simp] theorem State.setICache_hi (s : State) (c : List (Nat × ISet)) : (s.setICache c).hi = s.hi := rfl
@[simp] theorem State.setICache_lo (s : State) (c : List (Nat × ISet)) : (s.setICache c).lo = s.lo := rfl
@[simp] theorem State.setICache_pc (s : State) (c : List (Nat × ISet)) : (s.setICache c).pc = s.pc := rfl
@[simp] theorem State.setICache_delay (s : State) (c : List (Nat × ISet)) : (s.setICache c).delay = s.delay := rfl
@[simp] theorem State.setICache_cp0 (s : State) (c : List (Nat × ISet)) : (s.setICache c).cp0 = s.cp0 := rfl
@[simp] theorem State.setICache_tlb (s : State) (c : List (Nat × ISet)) : (s.setICache c).tlb = s.tlb := rfl
@[simp] theorem State.setICache_fgr (s : State) (c : List (Nat × ISet)) : (s.setICache c).fgr = s.fgr := rfl
@[simp] theorem State.setICache_fcr31 (s : State) (c : List (Nat × ISet)) : (s.setICache c).fcr31 = s.fcr31 := rfl
@[simp] theorem State.setICache_llBit (s : State) (c : List (Nat × ISet)) : (s.setICache c).llBit = s.llBit := rfl
@[simp] theorem State.setICache_linkAddr (s : State) (c : List (Nat × ISet)) : (s.setICache c).linkAddr = s.linkAddr := rfl
@[simp] theorem State.setICache_linkKnown (s : State) (c : List (Nat × ISet)) : (s.setICache c).linkKnown = s.linkKnown := rfl
@[simp] theorem State.setICache_intReg (s : State) (c : List (Nat × ISet)) : (s.setICache c).intReg = s.intReg := rfl
@[simp] theorem State.setICache_intPin (s : State) (c : List (Nat × ISet)) : (s.setICache c).intPin = s.intPin := rfl
@[simp] theorem State.setICache_nmiPin (s : State) (c : List (Nat × ISet)) : (s.setICache c).nmiPin = s.nmiPin := rfl
@[simp] theorem State.setICache_nmiSeen (s : State) (c : List (Nat × ISet)) : (s.setICache c).nmiSeen = s.nmiSeen := rfl
@[simp] theorem State.setICache_nmiPending (s : State) (c : List (Nat × ISet)) : (s.setICache c).nmiPending = s.nmiPending := rfl
@[simp] theorem State.setICache_timerInt (s : State) (c : List (Nat × ISet)) : (s.setICache c).timerInt = s.timerInt := rfl
@[simp] theorem State.setICache_standby (s : State) (c : List (Nat × ISet)) : (s.setICache c).standby = s.standby := rfl
@[simp] theorem State.setICache_wb (s : State) (c : List (Nat × ISet)) : (s.setICache c).wb = s.wb := rfl
@[simp] theorem State.setICache_icache (s : State) (c : List (Nat × ISet)) : (s.setICache c).icache = c := rfl
@[simp] theorem State.setICache_icacheRest (s : State) (c : List (Nat × ISet)) : (s.setICache c).icacheRest = s.icacheRest := rfl
@[simp] theorem State.setICache_dcache (s : State) (c : List (Nat × ISet)) : (s.setICache c).dcache = s.dcache := rfl
@[simp] theorem State.setICache_dcacheRest (s : State) (c : List (Nat × ISet)) : (s.setICache c).dcacheRest = s.dcacheRest := rfl
@[simp] theorem State.setICache_scache (s : State) (c : List (Nat × ISet)) : (s.setICache c).scache = s.scache := rfl
@[simp] theorem State.setICache_scacheRest (s : State) (c : List (Nat × ISet)) : (s.setICache c).scacheRest = s.scacheRest := rfl
@[simp] theorem State.setICache_mem (s : State) (c : List (Nat × ISet)) : (s.setICache c).mem = s.mem := rfl
@[simp] theorem State.setICache_physMap (s : State) (c : List (Nat × ISet)) : (s.setICache c).physMap = s.physMap := rfl
@[simp] theorem State.setICache_boot (s : State) (c : List (Nat × ISet)) : (s.setICache c).boot = s.boot := rfl
@[simp] theorem State.setICache_free (s : State) (c : List (Nat × ISet)) : (s.setICache c).free = s.free := rfl
@[simp] theorem State.setICache_inputs (s : State) (c : List (Nat × ISet)) : (s.setICache c).inputs = s.inputs := rfl
@[simp] theorem State.setICache_inp (s : State) (c : List (Nat × ISet)) : (s.setICache c).inp = s.inp := rfl
@[simp] theorem State.setICache_hazards (s : State) (c : List (Nat × ISet)) : (s.setICache c).hazards = s.hazards := rfl
@[simp] theorem State.setICache_fccOld (s : State) (c : List (Nat × ISet)) : (s.setICache c).fccOld = s.fccOld := rfl
@[simp] theorem State.setICache_fpBusy (s : State) (c : List (Nat × ISet)) : (s.setICache c).fpBusy = s.fpBusy := rfl
@[simp] theorem State.setICache_entered (s : State) (c : List (Nat × ISet)) : (s.setICache c).entered = s.entered := rfl
@[simp] theorem State.setICache_bus (s : State) (c : List (Nat × ISet)) : (s.setICache c).bus = s.bus := rfl

@[simp] theorem State.setDCache_gpr (s : State) (c : List (Nat × DSet)) : (s.setDCache c).gpr = s.gpr := rfl
@[simp] theorem State.setDCache_hi (s : State) (c : List (Nat × DSet)) : (s.setDCache c).hi = s.hi := rfl
@[simp] theorem State.setDCache_lo (s : State) (c : List (Nat × DSet)) : (s.setDCache c).lo = s.lo := rfl
@[simp] theorem State.setDCache_pc (s : State) (c : List (Nat × DSet)) : (s.setDCache c).pc = s.pc := rfl
@[simp] theorem State.setDCache_delay (s : State) (c : List (Nat × DSet)) : (s.setDCache c).delay = s.delay := rfl
@[simp] theorem State.setDCache_cp0 (s : State) (c : List (Nat × DSet)) : (s.setDCache c).cp0 = s.cp0 := rfl
@[simp] theorem State.setDCache_tlb (s : State) (c : List (Nat × DSet)) : (s.setDCache c).tlb = s.tlb := rfl
@[simp] theorem State.setDCache_fgr (s : State) (c : List (Nat × DSet)) : (s.setDCache c).fgr = s.fgr := rfl
@[simp] theorem State.setDCache_fcr31 (s : State) (c : List (Nat × DSet)) : (s.setDCache c).fcr31 = s.fcr31 := rfl
@[simp] theorem State.setDCache_llBit (s : State) (c : List (Nat × DSet)) : (s.setDCache c).llBit = s.llBit := rfl
@[simp] theorem State.setDCache_linkAddr (s : State) (c : List (Nat × DSet)) : (s.setDCache c).linkAddr = s.linkAddr := rfl
@[simp] theorem State.setDCache_linkKnown (s : State) (c : List (Nat × DSet)) : (s.setDCache c).linkKnown = s.linkKnown := rfl
@[simp] theorem State.setDCache_intReg (s : State) (c : List (Nat × DSet)) : (s.setDCache c).intReg = s.intReg := rfl
@[simp] theorem State.setDCache_intPin (s : State) (c : List (Nat × DSet)) : (s.setDCache c).intPin = s.intPin := rfl
@[simp] theorem State.setDCache_nmiPin (s : State) (c : List (Nat × DSet)) : (s.setDCache c).nmiPin = s.nmiPin := rfl
@[simp] theorem State.setDCache_nmiSeen (s : State) (c : List (Nat × DSet)) : (s.setDCache c).nmiSeen = s.nmiSeen := rfl
@[simp] theorem State.setDCache_nmiPending (s : State) (c : List (Nat × DSet)) : (s.setDCache c).nmiPending = s.nmiPending := rfl
@[simp] theorem State.setDCache_timerInt (s : State) (c : List (Nat × DSet)) : (s.setDCache c).timerInt = s.timerInt := rfl
@[simp] theorem State.setDCache_standby (s : State) (c : List (Nat × DSet)) : (s.setDCache c).standby = s.standby := rfl
@[simp] theorem State.setDCache_wb (s : State) (c : List (Nat × DSet)) : (s.setDCache c).wb = s.wb := rfl
@[simp] theorem State.setDCache_icache (s : State) (c : List (Nat × DSet)) : (s.setDCache c).icache = s.icache := rfl
@[simp] theorem State.setDCache_icacheRest (s : State) (c : List (Nat × DSet)) : (s.setDCache c).icacheRest = s.icacheRest := rfl
@[simp] theorem State.setDCache_dcache (s : State) (c : List (Nat × DSet)) : (s.setDCache c).dcache = c := rfl
@[simp] theorem State.setDCache_dcacheRest (s : State) (c : List (Nat × DSet)) : (s.setDCache c).dcacheRest = s.dcacheRest := rfl
@[simp] theorem State.setDCache_scache (s : State) (c : List (Nat × DSet)) : (s.setDCache c).scache = s.scache := rfl
@[simp] theorem State.setDCache_scacheRest (s : State) (c : List (Nat × DSet)) : (s.setDCache c).scacheRest = s.scacheRest := rfl
@[simp] theorem State.setDCache_mem (s : State) (c : List (Nat × DSet)) : (s.setDCache c).mem = s.mem := rfl
@[simp] theorem State.setDCache_physMap (s : State) (c : List (Nat × DSet)) : (s.setDCache c).physMap = s.physMap := rfl
@[simp] theorem State.setDCache_boot (s : State) (c : List (Nat × DSet)) : (s.setDCache c).boot = s.boot := rfl
@[simp] theorem State.setDCache_free (s : State) (c : List (Nat × DSet)) : (s.setDCache c).free = s.free := rfl
@[simp] theorem State.setDCache_inputs (s : State) (c : List (Nat × DSet)) : (s.setDCache c).inputs = s.inputs := rfl
@[simp] theorem State.setDCache_inp (s : State) (c : List (Nat × DSet)) : (s.setDCache c).inp = s.inp := rfl
@[simp] theorem State.setDCache_hazards (s : State) (c : List (Nat × DSet)) : (s.setDCache c).hazards = s.hazards := rfl
@[simp] theorem State.setDCache_fccOld (s : State) (c : List (Nat × DSet)) : (s.setDCache c).fccOld = s.fccOld := rfl
@[simp] theorem State.setDCache_fpBusy (s : State) (c : List (Nat × DSet)) : (s.setDCache c).fpBusy = s.fpBusy := rfl
@[simp] theorem State.setDCache_entered (s : State) (c : List (Nat × DSet)) : (s.setDCache c).entered = s.entered := rfl
@[simp] theorem State.setDCache_bus (s : State) (c : List (Nat × DSet)) : (s.setDCache c).bus = s.bus := rfl

@[simp] theorem State.setSCache_gpr (s : State) (c : List (Nat × SLine)) : (s.setSCache c).gpr = s.gpr := rfl
@[simp] theorem State.setSCache_hi (s : State) (c : List (Nat × SLine)) : (s.setSCache c).hi = s.hi := rfl
@[simp] theorem State.setSCache_lo (s : State) (c : List (Nat × SLine)) : (s.setSCache c).lo = s.lo := rfl
@[simp] theorem State.setSCache_pc (s : State) (c : List (Nat × SLine)) : (s.setSCache c).pc = s.pc := rfl
@[simp] theorem State.setSCache_delay (s : State) (c : List (Nat × SLine)) : (s.setSCache c).delay = s.delay := rfl
@[simp] theorem State.setSCache_cp0 (s : State) (c : List (Nat × SLine)) : (s.setSCache c).cp0 = s.cp0 := rfl
@[simp] theorem State.setSCache_tlb (s : State) (c : List (Nat × SLine)) : (s.setSCache c).tlb = s.tlb := rfl
@[simp] theorem State.setSCache_fgr (s : State) (c : List (Nat × SLine)) : (s.setSCache c).fgr = s.fgr := rfl
@[simp] theorem State.setSCache_fcr31 (s : State) (c : List (Nat × SLine)) : (s.setSCache c).fcr31 = s.fcr31 := rfl
@[simp] theorem State.setSCache_llBit (s : State) (c : List (Nat × SLine)) : (s.setSCache c).llBit = s.llBit := rfl
@[simp] theorem State.setSCache_linkAddr (s : State) (c : List (Nat × SLine)) : (s.setSCache c).linkAddr = s.linkAddr := rfl
@[simp] theorem State.setSCache_linkKnown (s : State) (c : List (Nat × SLine)) : (s.setSCache c).linkKnown = s.linkKnown := rfl
@[simp] theorem State.setSCache_intReg (s : State) (c : List (Nat × SLine)) : (s.setSCache c).intReg = s.intReg := rfl
@[simp] theorem State.setSCache_intPin (s : State) (c : List (Nat × SLine)) : (s.setSCache c).intPin = s.intPin := rfl
@[simp] theorem State.setSCache_nmiPin (s : State) (c : List (Nat × SLine)) : (s.setSCache c).nmiPin = s.nmiPin := rfl
@[simp] theorem State.setSCache_nmiSeen (s : State) (c : List (Nat × SLine)) : (s.setSCache c).nmiSeen = s.nmiSeen := rfl
@[simp] theorem State.setSCache_nmiPending (s : State) (c : List (Nat × SLine)) : (s.setSCache c).nmiPending = s.nmiPending := rfl
@[simp] theorem State.setSCache_timerInt (s : State) (c : List (Nat × SLine)) : (s.setSCache c).timerInt = s.timerInt := rfl
@[simp] theorem State.setSCache_standby (s : State) (c : List (Nat × SLine)) : (s.setSCache c).standby = s.standby := rfl
@[simp] theorem State.setSCache_wb (s : State) (c : List (Nat × SLine)) : (s.setSCache c).wb = s.wb := rfl
@[simp] theorem State.setSCache_icache (s : State) (c : List (Nat × SLine)) : (s.setSCache c).icache = s.icache := rfl
@[simp] theorem State.setSCache_icacheRest (s : State) (c : List (Nat × SLine)) : (s.setSCache c).icacheRest = s.icacheRest := rfl
@[simp] theorem State.setSCache_dcache (s : State) (c : List (Nat × SLine)) : (s.setSCache c).dcache = s.dcache := rfl
@[simp] theorem State.setSCache_dcacheRest (s : State) (c : List (Nat × SLine)) : (s.setSCache c).dcacheRest = s.dcacheRest := rfl
@[simp] theorem State.setSCache_scache (s : State) (c : List (Nat × SLine)) : (s.setSCache c).scache = c := rfl
@[simp] theorem State.setSCache_scacheRest (s : State) (c : List (Nat × SLine)) : (s.setSCache c).scacheRest = s.scacheRest := rfl
@[simp] theorem State.setSCache_mem (s : State) (c : List (Nat × SLine)) : (s.setSCache c).mem = s.mem := rfl
@[simp] theorem State.setSCache_physMap (s : State) (c : List (Nat × SLine)) : (s.setSCache c).physMap = s.physMap := rfl
@[simp] theorem State.setSCache_boot (s : State) (c : List (Nat × SLine)) : (s.setSCache c).boot = s.boot := rfl
@[simp] theorem State.setSCache_free (s : State) (c : List (Nat × SLine)) : (s.setSCache c).free = s.free := rfl
@[simp] theorem State.setSCache_inputs (s : State) (c : List (Nat × SLine)) : (s.setSCache c).inputs = s.inputs := rfl
@[simp] theorem State.setSCache_inp (s : State) (c : List (Nat × SLine)) : (s.setSCache c).inp = s.inp := rfl
@[simp] theorem State.setSCache_hazards (s : State) (c : List (Nat × SLine)) : (s.setSCache c).hazards = s.hazards := rfl
@[simp] theorem State.setSCache_fccOld (s : State) (c : List (Nat × SLine)) : (s.setSCache c).fccOld = s.fccOld := rfl
@[simp] theorem State.setSCache_fpBusy (s : State) (c : List (Nat × SLine)) : (s.setSCache c).fpBusy = s.fpBusy := rfl
@[simp] theorem State.setSCache_entered (s : State) (c : List (Nat × SLine)) : (s.setSCache c).entered = s.entered := rfl
@[simp] theorem State.setSCache_bus (s : State) (c : List (Nat × SLine)) : (s.setSCache c).bus = s.bus := rfl

@[simp] theorem State.setHazards_gpr (s : State) (h : List Hazard) : (s.setHazards h).gpr = s.gpr := rfl
@[simp] theorem State.setHazards_hi (s : State) (h : List Hazard) : (s.setHazards h).hi = s.hi := rfl
@[simp] theorem State.setHazards_lo (s : State) (h : List Hazard) : (s.setHazards h).lo = s.lo := rfl
@[simp] theorem State.setHazards_pc (s : State) (h : List Hazard) : (s.setHazards h).pc = s.pc := rfl
@[simp] theorem State.setHazards_delay (s : State) (h : List Hazard) : (s.setHazards h).delay = s.delay := rfl
@[simp] theorem State.setHazards_cp0 (s : State) (h : List Hazard) : (s.setHazards h).cp0 = s.cp0 := rfl
@[simp] theorem State.setHazards_tlb (s : State) (h : List Hazard) : (s.setHazards h).tlb = s.tlb := rfl
@[simp] theorem State.setHazards_fgr (s : State) (h : List Hazard) : (s.setHazards h).fgr = s.fgr := rfl
@[simp] theorem State.setHazards_fcr31 (s : State) (h : List Hazard) : (s.setHazards h).fcr31 = s.fcr31 := rfl
@[simp] theorem State.setHazards_llBit (s : State) (h : List Hazard) : (s.setHazards h).llBit = s.llBit := rfl
@[simp] theorem State.setHazards_linkAddr (s : State) (h : List Hazard) : (s.setHazards h).linkAddr = s.linkAddr := rfl
@[simp] theorem State.setHazards_linkKnown (s : State) (h : List Hazard) : (s.setHazards h).linkKnown = s.linkKnown := rfl
@[simp] theorem State.setHazards_intReg (s : State) (h : List Hazard) : (s.setHazards h).intReg = s.intReg := rfl
@[simp] theorem State.setHazards_intPin (s : State) (h : List Hazard) : (s.setHazards h).intPin = s.intPin := rfl
@[simp] theorem State.setHazards_nmiPin (s : State) (h : List Hazard) : (s.setHazards h).nmiPin = s.nmiPin := rfl
@[simp] theorem State.setHazards_nmiSeen (s : State) (h : List Hazard) : (s.setHazards h).nmiSeen = s.nmiSeen := rfl
@[simp] theorem State.setHazards_nmiPending (s : State) (h : List Hazard) : (s.setHazards h).nmiPending = s.nmiPending := rfl
@[simp] theorem State.setHazards_timerInt (s : State) (h : List Hazard) : (s.setHazards h).timerInt = s.timerInt := rfl
@[simp] theorem State.setHazards_standby (s : State) (h : List Hazard) : (s.setHazards h).standby = s.standby := rfl
@[simp] theorem State.setHazards_wb (s : State) (h : List Hazard) : (s.setHazards h).wb = s.wb := rfl
@[simp] theorem State.setHazards_icache (s : State) (h : List Hazard) : (s.setHazards h).icache = s.icache := rfl
@[simp] theorem State.setHazards_icacheRest (s : State) (h : List Hazard) : (s.setHazards h).icacheRest = s.icacheRest := rfl
@[simp] theorem State.setHazards_dcache (s : State) (h : List Hazard) : (s.setHazards h).dcache = s.dcache := rfl
@[simp] theorem State.setHazards_dcacheRest (s : State) (h : List Hazard) : (s.setHazards h).dcacheRest = s.dcacheRest := rfl
@[simp] theorem State.setHazards_scache (s : State) (h : List Hazard) : (s.setHazards h).scache = s.scache := rfl
@[simp] theorem State.setHazards_scacheRest (s : State) (h : List Hazard) : (s.setHazards h).scacheRest = s.scacheRest := rfl
@[simp] theorem State.setHazards_mem (s : State) (h : List Hazard) : (s.setHazards h).mem = s.mem := rfl
@[simp] theorem State.setHazards_physMap (s : State) (h : List Hazard) : (s.setHazards h).physMap = s.physMap := rfl
@[simp] theorem State.setHazards_boot (s : State) (h : List Hazard) : (s.setHazards h).boot = s.boot := rfl
@[simp] theorem State.setHazards_free (s : State) (h : List Hazard) : (s.setHazards h).free = s.free := rfl
@[simp] theorem State.setHazards_inputs (s : State) (h : List Hazard) : (s.setHazards h).inputs = s.inputs := rfl
@[simp] theorem State.setHazards_inp (s : State) (h : List Hazard) : (s.setHazards h).inp = s.inp := rfl
@[simp] theorem State.setHazards_hazards (s : State) (h : List Hazard) : (s.setHazards h).hazards = h := rfl
@[simp] theorem State.setHazards_fccOld (s : State) (h : List Hazard) : (s.setHazards h).fccOld = s.fccOld := rfl
@[simp] theorem State.setHazards_fpBusy (s : State) (h : List Hazard) : (s.setHazards h).fpBusy = s.fpBusy := rfl
@[simp] theorem State.setHazards_entered (s : State) (h : List Hazard) : (s.setHazards h).entered = s.entered := rfl
@[simp] theorem State.setHazards_bus (s : State) (h : List Hazard) : (s.setHazards h).bus = s.bus := rfl

@[simp] theorem State.setFccOld_gpr (s : State) (o : Option (Nat × BitVec 8)) : (s.setFccOld o).gpr = s.gpr := rfl
@[simp] theorem State.setFccOld_hi (s : State) (o : Option (Nat × BitVec 8)) : (s.setFccOld o).hi = s.hi := rfl
@[simp] theorem State.setFccOld_lo (s : State) (o : Option (Nat × BitVec 8)) : (s.setFccOld o).lo = s.lo := rfl
@[simp] theorem State.setFccOld_pc (s : State) (o : Option (Nat × BitVec 8)) : (s.setFccOld o).pc = s.pc := rfl
@[simp] theorem State.setFccOld_delay (s : State) (o : Option (Nat × BitVec 8)) : (s.setFccOld o).delay = s.delay := rfl
@[simp] theorem State.setFccOld_cp0 (s : State) (o : Option (Nat × BitVec 8)) : (s.setFccOld o).cp0 = s.cp0 := rfl
@[simp] theorem State.setFccOld_tlb (s : State) (o : Option (Nat × BitVec 8)) : (s.setFccOld o).tlb = s.tlb := rfl
@[simp] theorem State.setFccOld_fgr (s : State) (o : Option (Nat × BitVec 8)) : (s.setFccOld o).fgr = s.fgr := rfl
@[simp] theorem State.setFccOld_fcr31 (s : State) (o : Option (Nat × BitVec 8)) : (s.setFccOld o).fcr31 = s.fcr31 := rfl
@[simp] theorem State.setFccOld_llBit (s : State) (o : Option (Nat × BitVec 8)) : (s.setFccOld o).llBit = s.llBit := rfl
@[simp] theorem State.setFccOld_linkAddr (s : State) (o : Option (Nat × BitVec 8)) : (s.setFccOld o).linkAddr = s.linkAddr := rfl
@[simp] theorem State.setFccOld_linkKnown (s : State) (o : Option (Nat × BitVec 8)) : (s.setFccOld o).linkKnown = s.linkKnown := rfl
@[simp] theorem State.setFccOld_intReg (s : State) (o : Option (Nat × BitVec 8)) : (s.setFccOld o).intReg = s.intReg := rfl
@[simp] theorem State.setFccOld_intPin (s : State) (o : Option (Nat × BitVec 8)) : (s.setFccOld o).intPin = s.intPin := rfl
@[simp] theorem State.setFccOld_nmiPin (s : State) (o : Option (Nat × BitVec 8)) : (s.setFccOld o).nmiPin = s.nmiPin := rfl
@[simp] theorem State.setFccOld_nmiSeen (s : State) (o : Option (Nat × BitVec 8)) : (s.setFccOld o).nmiSeen = s.nmiSeen := rfl
@[simp] theorem State.setFccOld_nmiPending (s : State) (o : Option (Nat × BitVec 8)) : (s.setFccOld o).nmiPending = s.nmiPending := rfl
@[simp] theorem State.setFccOld_timerInt (s : State) (o : Option (Nat × BitVec 8)) : (s.setFccOld o).timerInt = s.timerInt := rfl
@[simp] theorem State.setFccOld_standby (s : State) (o : Option (Nat × BitVec 8)) : (s.setFccOld o).standby = s.standby := rfl
@[simp] theorem State.setFccOld_wb (s : State) (o : Option (Nat × BitVec 8)) : (s.setFccOld o).wb = s.wb := rfl
@[simp] theorem State.setFccOld_icache (s : State) (o : Option (Nat × BitVec 8)) : (s.setFccOld o).icache = s.icache := rfl
@[simp] theorem State.setFccOld_icacheRest (s : State) (o : Option (Nat × BitVec 8)) : (s.setFccOld o).icacheRest = s.icacheRest := rfl
@[simp] theorem State.setFccOld_dcache (s : State) (o : Option (Nat × BitVec 8)) : (s.setFccOld o).dcache = s.dcache := rfl
@[simp] theorem State.setFccOld_dcacheRest (s : State) (o : Option (Nat × BitVec 8)) : (s.setFccOld o).dcacheRest = s.dcacheRest := rfl
@[simp] theorem State.setFccOld_scache (s : State) (o : Option (Nat × BitVec 8)) : (s.setFccOld o).scache = s.scache := rfl
@[simp] theorem State.setFccOld_scacheRest (s : State) (o : Option (Nat × BitVec 8)) : (s.setFccOld o).scacheRest = s.scacheRest := rfl
@[simp] theorem State.setFccOld_mem (s : State) (o : Option (Nat × BitVec 8)) : (s.setFccOld o).mem = s.mem := rfl
@[simp] theorem State.setFccOld_physMap (s : State) (o : Option (Nat × BitVec 8)) : (s.setFccOld o).physMap = s.physMap := rfl
@[simp] theorem State.setFccOld_boot (s : State) (o : Option (Nat × BitVec 8)) : (s.setFccOld o).boot = s.boot := rfl
@[simp] theorem State.setFccOld_free (s : State) (o : Option (Nat × BitVec 8)) : (s.setFccOld o).free = s.free := rfl
@[simp] theorem State.setFccOld_inputs (s : State) (o : Option (Nat × BitVec 8)) : (s.setFccOld o).inputs = s.inputs := rfl
@[simp] theorem State.setFccOld_inp (s : State) (o : Option (Nat × BitVec 8)) : (s.setFccOld o).inp = s.inp := rfl
@[simp] theorem State.setFccOld_hazards (s : State) (o : Option (Nat × BitVec 8)) : (s.setFccOld o).hazards = s.hazards := rfl
@[simp] theorem State.setFccOld_fccOld (s : State) (o : Option (Nat × BitVec 8)) : (s.setFccOld o).fccOld = o := rfl
@[simp] theorem State.setFccOld_fpBusy (s : State) (o : Option (Nat × BitVec 8)) : (s.setFccOld o).fpBusy = s.fpBusy := rfl
@[simp] theorem State.setFccOld_entered (s : State) (o : Option (Nat × BitVec 8)) : (s.setFccOld o).entered = s.entered := rfl
@[simp] theorem State.setFccOld_bus (s : State) (o : Option (Nat × BitVec 8)) : (s.setFccOld o).bus = s.bus := rfl

@[simp] theorem State.setFpBusy_gpr (s : State) (b : Bool) : (s.setFpBusy b).gpr = s.gpr := rfl
@[simp] theorem State.setFpBusy_hi (s : State) (b : Bool) : (s.setFpBusy b).hi = s.hi := rfl
@[simp] theorem State.setFpBusy_lo (s : State) (b : Bool) : (s.setFpBusy b).lo = s.lo := rfl
@[simp] theorem State.setFpBusy_pc (s : State) (b : Bool) : (s.setFpBusy b).pc = s.pc := rfl
@[simp] theorem State.setFpBusy_delay (s : State) (b : Bool) : (s.setFpBusy b).delay = s.delay := rfl
@[simp] theorem State.setFpBusy_cp0 (s : State) (b : Bool) : (s.setFpBusy b).cp0 = s.cp0 := rfl
@[simp] theorem State.setFpBusy_tlb (s : State) (b : Bool) : (s.setFpBusy b).tlb = s.tlb := rfl
@[simp] theorem State.setFpBusy_fgr (s : State) (b : Bool) : (s.setFpBusy b).fgr = s.fgr := rfl
@[simp] theorem State.setFpBusy_fcr31 (s : State) (b : Bool) : (s.setFpBusy b).fcr31 = s.fcr31 := rfl
@[simp] theorem State.setFpBusy_llBit (s : State) (b : Bool) : (s.setFpBusy b).llBit = s.llBit := rfl
@[simp] theorem State.setFpBusy_linkAddr (s : State) (b : Bool) : (s.setFpBusy b).linkAddr = s.linkAddr := rfl
@[simp] theorem State.setFpBusy_linkKnown (s : State) (b : Bool) : (s.setFpBusy b).linkKnown = s.linkKnown := rfl
@[simp] theorem State.setFpBusy_intReg (s : State) (b : Bool) : (s.setFpBusy b).intReg = s.intReg := rfl
@[simp] theorem State.setFpBusy_intPin (s : State) (b : Bool) : (s.setFpBusy b).intPin = s.intPin := rfl
@[simp] theorem State.setFpBusy_nmiPin (s : State) (b : Bool) : (s.setFpBusy b).nmiPin = s.nmiPin := rfl
@[simp] theorem State.setFpBusy_nmiSeen (s : State) (b : Bool) : (s.setFpBusy b).nmiSeen = s.nmiSeen := rfl
@[simp] theorem State.setFpBusy_nmiPending (s : State) (b : Bool) : (s.setFpBusy b).nmiPending = s.nmiPending := rfl
@[simp] theorem State.setFpBusy_timerInt (s : State) (b : Bool) : (s.setFpBusy b).timerInt = s.timerInt := rfl
@[simp] theorem State.setFpBusy_standby (s : State) (b : Bool) : (s.setFpBusy b).standby = s.standby := rfl
@[simp] theorem State.setFpBusy_wb (s : State) (b : Bool) : (s.setFpBusy b).wb = s.wb := rfl
@[simp] theorem State.setFpBusy_icache (s : State) (b : Bool) : (s.setFpBusy b).icache = s.icache := rfl
@[simp] theorem State.setFpBusy_icacheRest (s : State) (b : Bool) : (s.setFpBusy b).icacheRest = s.icacheRest := rfl
@[simp] theorem State.setFpBusy_dcache (s : State) (b : Bool) : (s.setFpBusy b).dcache = s.dcache := rfl
@[simp] theorem State.setFpBusy_dcacheRest (s : State) (b : Bool) : (s.setFpBusy b).dcacheRest = s.dcacheRest := rfl
@[simp] theorem State.setFpBusy_scache (s : State) (b : Bool) : (s.setFpBusy b).scache = s.scache := rfl
@[simp] theorem State.setFpBusy_scacheRest (s : State) (b : Bool) : (s.setFpBusy b).scacheRest = s.scacheRest := rfl
@[simp] theorem State.setFpBusy_mem (s : State) (b : Bool) : (s.setFpBusy b).mem = s.mem := rfl
@[simp] theorem State.setFpBusy_physMap (s : State) (b : Bool) : (s.setFpBusy b).physMap = s.physMap := rfl
@[simp] theorem State.setFpBusy_boot (s : State) (b : Bool) : (s.setFpBusy b).boot = s.boot := rfl
@[simp] theorem State.setFpBusy_free (s : State) (b : Bool) : (s.setFpBusy b).free = s.free := rfl
@[simp] theorem State.setFpBusy_inputs (s : State) (b : Bool) : (s.setFpBusy b).inputs = s.inputs := rfl
@[simp] theorem State.setFpBusy_inp (s : State) (b : Bool) : (s.setFpBusy b).inp = s.inp := rfl
@[simp] theorem State.setFpBusy_hazards (s : State) (b : Bool) : (s.setFpBusy b).hazards = s.hazards := rfl
@[simp] theorem State.setFpBusy_fccOld (s : State) (b : Bool) : (s.setFpBusy b).fccOld = s.fccOld := rfl
@[simp] theorem State.setFpBusy_fpBusy (s : State) (b : Bool) : (s.setFpBusy b).fpBusy = b := rfl
@[simp] theorem State.setFpBusy_entered (s : State) (b : Bool) : (s.setFpBusy b).entered = s.entered := rfl
@[simp] theorem State.setFpBusy_bus (s : State) (b : Bool) : (s.setFpBusy b).bus = s.bus := rfl

@[simp] theorem State.setStandby_gpr (s : State) (b : Bool) : (s.setStandby b).gpr = s.gpr := rfl
@[simp] theorem State.setStandby_hi (s : State) (b : Bool) : (s.setStandby b).hi = s.hi := rfl
@[simp] theorem State.setStandby_lo (s : State) (b : Bool) : (s.setStandby b).lo = s.lo := rfl
@[simp] theorem State.setStandby_pc (s : State) (b : Bool) : (s.setStandby b).pc = s.pc := rfl
@[simp] theorem State.setStandby_delay (s : State) (b : Bool) : (s.setStandby b).delay = s.delay := rfl
@[simp] theorem State.setStandby_cp0 (s : State) (b : Bool) : (s.setStandby b).cp0 = s.cp0 := rfl
@[simp] theorem State.setStandby_tlb (s : State) (b : Bool) : (s.setStandby b).tlb = s.tlb := rfl
@[simp] theorem State.setStandby_fgr (s : State) (b : Bool) : (s.setStandby b).fgr = s.fgr := rfl
@[simp] theorem State.setStandby_fcr31 (s : State) (b : Bool) : (s.setStandby b).fcr31 = s.fcr31 := rfl
@[simp] theorem State.setStandby_llBit (s : State) (b : Bool) : (s.setStandby b).llBit = s.llBit := rfl
@[simp] theorem State.setStandby_linkAddr (s : State) (b : Bool) : (s.setStandby b).linkAddr = s.linkAddr := rfl
@[simp] theorem State.setStandby_linkKnown (s : State) (b : Bool) : (s.setStandby b).linkKnown = s.linkKnown := rfl
@[simp] theorem State.setStandby_intReg (s : State) (b : Bool) : (s.setStandby b).intReg = s.intReg := rfl
@[simp] theorem State.setStandby_intPin (s : State) (b : Bool) : (s.setStandby b).intPin = s.intPin := rfl
@[simp] theorem State.setStandby_nmiPin (s : State) (b : Bool) : (s.setStandby b).nmiPin = s.nmiPin := rfl
@[simp] theorem State.setStandby_nmiSeen (s : State) (b : Bool) : (s.setStandby b).nmiSeen = s.nmiSeen := rfl
@[simp] theorem State.setStandby_nmiPending (s : State) (b : Bool) : (s.setStandby b).nmiPending = s.nmiPending := rfl
@[simp] theorem State.setStandby_timerInt (s : State) (b : Bool) : (s.setStandby b).timerInt = s.timerInt := rfl
@[simp] theorem State.setStandby_standby (s : State) (b : Bool) : (s.setStandby b).standby = b := rfl
@[simp] theorem State.setStandby_wb (s : State) (b : Bool) : (s.setStandby b).wb = s.wb := rfl
@[simp] theorem State.setStandby_icache (s : State) (b : Bool) : (s.setStandby b).icache = s.icache := rfl
@[simp] theorem State.setStandby_icacheRest (s : State) (b : Bool) : (s.setStandby b).icacheRest = s.icacheRest := rfl
@[simp] theorem State.setStandby_dcache (s : State) (b : Bool) : (s.setStandby b).dcache = s.dcache := rfl
@[simp] theorem State.setStandby_dcacheRest (s : State) (b : Bool) : (s.setStandby b).dcacheRest = s.dcacheRest := rfl
@[simp] theorem State.setStandby_scache (s : State) (b : Bool) : (s.setStandby b).scache = s.scache := rfl
@[simp] theorem State.setStandby_scacheRest (s : State) (b : Bool) : (s.setStandby b).scacheRest = s.scacheRest := rfl
@[simp] theorem State.setStandby_mem (s : State) (b : Bool) : (s.setStandby b).mem = s.mem := rfl
@[simp] theorem State.setStandby_physMap (s : State) (b : Bool) : (s.setStandby b).physMap = s.physMap := rfl
@[simp] theorem State.setStandby_boot (s : State) (b : Bool) : (s.setStandby b).boot = s.boot := rfl
@[simp] theorem State.setStandby_free (s : State) (b : Bool) : (s.setStandby b).free = s.free := rfl
@[simp] theorem State.setStandby_inputs (s : State) (b : Bool) : (s.setStandby b).inputs = s.inputs := rfl
@[simp] theorem State.setStandby_inp (s : State) (b : Bool) : (s.setStandby b).inp = s.inp := rfl
@[simp] theorem State.setStandby_hazards (s : State) (b : Bool) : (s.setStandby b).hazards = s.hazards := rfl
@[simp] theorem State.setStandby_fccOld (s : State) (b : Bool) : (s.setStandby b).fccOld = s.fccOld := rfl
@[simp] theorem State.setStandby_fpBusy (s : State) (b : Bool) : (s.setStandby b).fpBusy = s.fpBusy := rfl
@[simp] theorem State.setStandby_entered (s : State) (b : Bool) : (s.setStandby b).entered = s.entered := rfl
@[simp] theorem State.setStandby_bus (s : State) (b : Bool) : (s.setStandby b).bus = s.bus := rfl

@[simp] theorem State.addBus_gpr (s : State) (r : BusRequest) : (s.addBus r).gpr = s.gpr := rfl
@[simp] theorem State.addBus_hi (s : State) (r : BusRequest) : (s.addBus r).hi = s.hi := rfl
@[simp] theorem State.addBus_lo (s : State) (r : BusRequest) : (s.addBus r).lo = s.lo := rfl
@[simp] theorem State.addBus_pc (s : State) (r : BusRequest) : (s.addBus r).pc = s.pc := rfl
@[simp] theorem State.addBus_delay (s : State) (r : BusRequest) : (s.addBus r).delay = s.delay := rfl
@[simp] theorem State.addBus_cp0 (s : State) (r : BusRequest) : (s.addBus r).cp0 = s.cp0 := rfl
@[simp] theorem State.addBus_tlb (s : State) (r : BusRequest) : (s.addBus r).tlb = s.tlb := rfl
@[simp] theorem State.addBus_fgr (s : State) (r : BusRequest) : (s.addBus r).fgr = s.fgr := rfl
@[simp] theorem State.addBus_fcr31 (s : State) (r : BusRequest) : (s.addBus r).fcr31 = s.fcr31 := rfl
@[simp] theorem State.addBus_llBit (s : State) (r : BusRequest) : (s.addBus r).llBit = s.llBit := rfl
@[simp] theorem State.addBus_linkAddr (s : State) (r : BusRequest) : (s.addBus r).linkAddr = s.linkAddr := rfl
@[simp] theorem State.addBus_linkKnown (s : State) (r : BusRequest) : (s.addBus r).linkKnown = s.linkKnown := rfl
@[simp] theorem State.addBus_intReg (s : State) (r : BusRequest) : (s.addBus r).intReg = s.intReg := rfl
@[simp] theorem State.addBus_intPin (s : State) (r : BusRequest) : (s.addBus r).intPin = s.intPin := rfl
@[simp] theorem State.addBus_nmiPin (s : State) (r : BusRequest) : (s.addBus r).nmiPin = s.nmiPin := rfl
@[simp] theorem State.addBus_nmiSeen (s : State) (r : BusRequest) : (s.addBus r).nmiSeen = s.nmiSeen := rfl
@[simp] theorem State.addBus_nmiPending (s : State) (r : BusRequest) : (s.addBus r).nmiPending = s.nmiPending := rfl
@[simp] theorem State.addBus_timerInt (s : State) (r : BusRequest) : (s.addBus r).timerInt = s.timerInt := rfl
@[simp] theorem State.addBus_standby (s : State) (r : BusRequest) : (s.addBus r).standby = s.standby := rfl
@[simp] theorem State.addBus_wb (s : State) (r : BusRequest) : (s.addBus r).wb = s.wb := rfl
@[simp] theorem State.addBus_icache (s : State) (r : BusRequest) : (s.addBus r).icache = s.icache := rfl
@[simp] theorem State.addBus_icacheRest (s : State) (r : BusRequest) : (s.addBus r).icacheRest = s.icacheRest := rfl
@[simp] theorem State.addBus_dcache (s : State) (r : BusRequest) : (s.addBus r).dcache = s.dcache := rfl
@[simp] theorem State.addBus_dcacheRest (s : State) (r : BusRequest) : (s.addBus r).dcacheRest = s.dcacheRest := rfl
@[simp] theorem State.addBus_scache (s : State) (r : BusRequest) : (s.addBus r).scache = s.scache := rfl
@[simp] theorem State.addBus_scacheRest (s : State) (r : BusRequest) : (s.addBus r).scacheRest = s.scacheRest := rfl
@[simp] theorem State.addBus_mem (s : State) (r : BusRequest) : (s.addBus r).mem = s.mem := rfl
@[simp] theorem State.addBus_physMap (s : State) (r : BusRequest) : (s.addBus r).physMap = s.physMap := rfl
@[simp] theorem State.addBus_boot (s : State) (r : BusRequest) : (s.addBus r).boot = s.boot := rfl
@[simp] theorem State.addBus_free (s : State) (r : BusRequest) : (s.addBus r).free = s.free := rfl
@[simp] theorem State.addBus_inputs (s : State) (r : BusRequest) : (s.addBus r).inputs = s.inputs := rfl
@[simp] theorem State.addBus_inp (s : State) (r : BusRequest) : (s.addBus r).inp = s.inp := rfl
@[simp] theorem State.addBus_hazards (s : State) (r : BusRequest) : (s.addBus r).hazards = s.hazards := rfl
@[simp] theorem State.addBus_fccOld (s : State) (r : BusRequest) : (s.addBus r).fccOld = s.fccOld := rfl
@[simp] theorem State.addBus_fpBusy (s : State) (r : BusRequest) : (s.addBus r).fpBusy = s.fpBusy := rfl
@[simp] theorem State.addBus_entered (s : State) (r : BusRequest) : (s.addBus r).entered = s.entered := rfl
@[simp] theorem State.addBus_bus (s : State) (r : BusRequest) : (s.addBus r).bus = s.bus ++ [r] := rfl

@[simp] theorem State.drawn_gpr (s : State) (n : Nat) : (s.drawn n).gpr = s.gpr := rfl
@[simp] theorem State.drawn_hi (s : State) (n : Nat) : (s.drawn n).hi = s.hi := rfl
@[simp] theorem State.drawn_lo (s : State) (n : Nat) : (s.drawn n).lo = s.lo := rfl
@[simp] theorem State.drawn_pc (s : State) (n : Nat) : (s.drawn n).pc = s.pc := rfl
@[simp] theorem State.drawn_delay (s : State) (n : Nat) : (s.drawn n).delay = s.delay := rfl
@[simp] theorem State.drawn_cp0 (s : State) (n : Nat) : (s.drawn n).cp0 = s.cp0 := rfl
@[simp] theorem State.drawn_tlb (s : State) (n : Nat) : (s.drawn n).tlb = s.tlb := rfl
@[simp] theorem State.drawn_fgr (s : State) (n : Nat) : (s.drawn n).fgr = s.fgr := rfl
@[simp] theorem State.drawn_fcr31 (s : State) (n : Nat) : (s.drawn n).fcr31 = s.fcr31 := rfl
@[simp] theorem State.drawn_llBit (s : State) (n : Nat) : (s.drawn n).llBit = s.llBit := rfl
@[simp] theorem State.drawn_linkAddr (s : State) (n : Nat) : (s.drawn n).linkAddr = s.linkAddr := rfl
@[simp] theorem State.drawn_linkKnown (s : State) (n : Nat) : (s.drawn n).linkKnown = s.linkKnown := rfl
@[simp] theorem State.drawn_intReg (s : State) (n : Nat) : (s.drawn n).intReg = s.intReg := rfl
@[simp] theorem State.drawn_intPin (s : State) (n : Nat) : (s.drawn n).intPin = s.intPin := rfl
@[simp] theorem State.drawn_nmiPin (s : State) (n : Nat) : (s.drawn n).nmiPin = s.nmiPin := rfl
@[simp] theorem State.drawn_nmiSeen (s : State) (n : Nat) : (s.drawn n).nmiSeen = s.nmiSeen := rfl
@[simp] theorem State.drawn_nmiPending (s : State) (n : Nat) : (s.drawn n).nmiPending = s.nmiPending := rfl
@[simp] theorem State.drawn_timerInt (s : State) (n : Nat) : (s.drawn n).timerInt = s.timerInt := rfl
@[simp] theorem State.drawn_standby (s : State) (n : Nat) : (s.drawn n).standby = s.standby := rfl
@[simp] theorem State.drawn_wb (s : State) (n : Nat) : (s.drawn n).wb = s.wb := rfl
@[simp] theorem State.drawn_icache (s : State) (n : Nat) : (s.drawn n).icache = s.icache := rfl
@[simp] theorem State.drawn_icacheRest (s : State) (n : Nat) : (s.drawn n).icacheRest = s.icacheRest := rfl
@[simp] theorem State.drawn_dcache (s : State) (n : Nat) : (s.drawn n).dcache = s.dcache := rfl
@[simp] theorem State.drawn_dcacheRest (s : State) (n : Nat) : (s.drawn n).dcacheRest = s.dcacheRest := rfl
@[simp] theorem State.drawn_scache (s : State) (n : Nat) : (s.drawn n).scache = s.scache := rfl
@[simp] theorem State.drawn_scacheRest (s : State) (n : Nat) : (s.drawn n).scacheRest = s.scacheRest := rfl
@[simp] theorem State.drawn_mem (s : State) (n : Nat) : (s.drawn n).mem = s.mem := rfl
@[simp] theorem State.drawn_physMap (s : State) (n : Nat) : (s.drawn n).physMap = s.physMap := rfl
@[simp] theorem State.drawn_boot (s : State) (n : Nat) : (s.drawn n).boot = s.boot := rfl
@[simp] theorem State.drawn_free (s : State) (n : Nat) : (s.drawn n).free = s.free + n := rfl
@[simp] theorem State.drawn_inputs (s : State) (n : Nat) : (s.drawn n).inputs = s.inputs := rfl
@[simp] theorem State.drawn_inp (s : State) (n : Nat) : (s.drawn n).inp = s.inp := rfl
@[simp] theorem State.drawn_hazards (s : State) (n : Nat) : (s.drawn n).hazards = s.hazards := rfl
@[simp] theorem State.drawn_fccOld (s : State) (n : Nat) : (s.drawn n).fccOld = s.fccOld := rfl
@[simp] theorem State.drawn_fpBusy (s : State) (n : Nat) : (s.drawn n).fpBusy = s.fpBusy := rfl
@[simp] theorem State.drawn_entered (s : State) (n : Nat) : (s.drawn n).entered = s.entered := rfl
@[simp] theorem State.drawn_bus (s : State) (n : Nat) : (s.drawn n).bus = s.bus := rfl

@[simp] theorem State.flush_gpr (s : State) : (s.flush).gpr = s.gpr := rfl
@[simp] theorem State.flush_hi (s : State) : (s.flush).hi = s.hi := rfl
@[simp] theorem State.flush_lo (s : State) : (s.flush).lo = s.lo := rfl
@[simp] theorem State.flush_pc (s : State) : (s.flush).pc = s.pc := rfl
@[simp] theorem State.flush_delay (s : State) : (s.flush).delay = s.delay := rfl
@[simp] theorem State.flush_cp0 (s : State) : (s.flush).cp0 = s.cp0 := rfl
@[simp] theorem State.flush_tlb (s : State) : (s.flush).tlb = s.tlb := rfl
@[simp] theorem State.flush_fgr (s : State) : (s.flush).fgr = s.fgr := rfl
@[simp] theorem State.flush_fcr31 (s : State) : (s.flush).fcr31 = s.fcr31 := rfl
@[simp] theorem State.flush_llBit (s : State) : (s.flush).llBit = s.llBit := rfl
@[simp] theorem State.flush_linkAddr (s : State) : (s.flush).linkAddr = s.linkAddr := rfl
@[simp] theorem State.flush_linkKnown (s : State) : (s.flush).linkKnown = s.linkKnown := rfl
@[simp] theorem State.flush_intReg (s : State) : (s.flush).intReg = s.intReg := rfl
@[simp] theorem State.flush_intPin (s : State) : (s.flush).intPin = s.intPin := rfl
@[simp] theorem State.flush_nmiPin (s : State) : (s.flush).nmiPin = s.nmiPin := rfl
@[simp] theorem State.flush_nmiSeen (s : State) : (s.flush).nmiSeen = s.nmiSeen := rfl
@[simp] theorem State.flush_nmiPending (s : State) : (s.flush).nmiPending = s.nmiPending := rfl
@[simp] theorem State.flush_timerInt (s : State) : (s.flush).timerInt = s.timerInt := rfl
@[simp] theorem State.flush_standby (s : State) : (s.flush).standby = s.standby := rfl
@[simp] theorem State.flush_wb (s : State) : (s.flush).wb = s.wb := rfl
@[simp] theorem State.flush_icache (s : State) : (s.flush).icache = s.icache := rfl
@[simp] theorem State.flush_icacheRest (s : State) : (s.flush).icacheRest = s.icacheRest := rfl
@[simp] theorem State.flush_dcache (s : State) : (s.flush).dcache = s.dcache := rfl
@[simp] theorem State.flush_dcacheRest (s : State) : (s.flush).dcacheRest = s.dcacheRest := rfl
@[simp] theorem State.flush_scache (s : State) : (s.flush).scache = s.scache := rfl
@[simp] theorem State.flush_scacheRest (s : State) : (s.flush).scacheRest = s.scacheRest := rfl
@[simp] theorem State.flush_mem (s : State) : (s.flush).mem = s.mem := rfl
@[simp] theorem State.flush_physMap (s : State) : (s.flush).physMap = s.physMap := rfl
@[simp] theorem State.flush_boot (s : State) : (s.flush).boot = s.boot := rfl
@[simp] theorem State.flush_free (s : State) : (s.flush).free = s.free := rfl
@[simp] theorem State.flush_inputs (s : State) : (s.flush).inputs = s.inputs := rfl
@[simp] theorem State.flush_inp (s : State) : (s.flush).inp = s.inp := rfl
@[simp] theorem State.flush_hazards (s : State) : (s.flush).hazards = [] := rfl
@[simp] theorem State.flush_fccOld (s : State) : (s.flush).fccOld = none := rfl
@[simp] theorem State.flush_fpBusy (s : State) : (s.flush).fpBusy = false := rfl
@[simp] theorem State.flush_entered (s : State) : (s.flush).entered = s.entered := rfl
@[simp] theorem State.flush_bus (s : State) : (s.flush).bus = s.bus := rfl

@[simp] theorem State.addHazard_gpr (s : State) (u : Undo) : (s.addHazard u).gpr = s.gpr := rfl
@[simp] theorem State.addHazard_hi (s : State) (u : Undo) : (s.addHazard u).hi = s.hi := rfl
@[simp] theorem State.addHazard_lo (s : State) (u : Undo) : (s.addHazard u).lo = s.lo := rfl
@[simp] theorem State.addHazard_pc (s : State) (u : Undo) : (s.addHazard u).pc = s.pc := rfl
@[simp] theorem State.addHazard_delay (s : State) (u : Undo) : (s.addHazard u).delay = s.delay := rfl
@[simp] theorem State.addHazard_cp0 (s : State) (u : Undo) : (s.addHazard u).cp0 = s.cp0 := rfl
@[simp] theorem State.addHazard_tlb (s : State) (u : Undo) : (s.addHazard u).tlb = s.tlb := rfl
@[simp] theorem State.addHazard_fgr (s : State) (u : Undo) : (s.addHazard u).fgr = s.fgr := rfl
@[simp] theorem State.addHazard_fcr31 (s : State) (u : Undo) : (s.addHazard u).fcr31 = s.fcr31 := rfl
@[simp] theorem State.addHazard_llBit (s : State) (u : Undo) : (s.addHazard u).llBit = s.llBit := rfl
@[simp] theorem State.addHazard_linkAddr (s : State) (u : Undo) : (s.addHazard u).linkAddr = s.linkAddr := rfl
@[simp] theorem State.addHazard_linkKnown (s : State) (u : Undo) : (s.addHazard u).linkKnown = s.linkKnown := rfl
@[simp] theorem State.addHazard_intReg (s : State) (u : Undo) : (s.addHazard u).intReg = s.intReg := rfl
@[simp] theorem State.addHazard_intPin (s : State) (u : Undo) : (s.addHazard u).intPin = s.intPin := rfl
@[simp] theorem State.addHazard_nmiPin (s : State) (u : Undo) : (s.addHazard u).nmiPin = s.nmiPin := rfl
@[simp] theorem State.addHazard_nmiSeen (s : State) (u : Undo) : (s.addHazard u).nmiSeen = s.nmiSeen := rfl
@[simp] theorem State.addHazard_nmiPending (s : State) (u : Undo) : (s.addHazard u).nmiPending = s.nmiPending := rfl
@[simp] theorem State.addHazard_timerInt (s : State) (u : Undo) : (s.addHazard u).timerInt = s.timerInt := rfl
@[simp] theorem State.addHazard_standby (s : State) (u : Undo) : (s.addHazard u).standby = s.standby := rfl
@[simp] theorem State.addHazard_wb (s : State) (u : Undo) : (s.addHazard u).wb = s.wb := rfl
@[simp] theorem State.addHazard_icache (s : State) (u : Undo) : (s.addHazard u).icache = s.icache := rfl
@[simp] theorem State.addHazard_icacheRest (s : State) (u : Undo) : (s.addHazard u).icacheRest = s.icacheRest := rfl
@[simp] theorem State.addHazard_dcache (s : State) (u : Undo) : (s.addHazard u).dcache = s.dcache := rfl
@[simp] theorem State.addHazard_dcacheRest (s : State) (u : Undo) : (s.addHazard u).dcacheRest = s.dcacheRest := rfl
@[simp] theorem State.addHazard_scache (s : State) (u : Undo) : (s.addHazard u).scache = s.scache := rfl
@[simp] theorem State.addHazard_scacheRest (s : State) (u : Undo) : (s.addHazard u).scacheRest = s.scacheRest := rfl
@[simp] theorem State.addHazard_mem (s : State) (u : Undo) : (s.addHazard u).mem = s.mem := rfl
@[simp] theorem State.addHazard_physMap (s : State) (u : Undo) : (s.addHazard u).physMap = s.physMap := rfl
@[simp] theorem State.addHazard_boot (s : State) (u : Undo) : (s.addHazard u).boot = s.boot := rfl
@[simp] theorem State.addHazard_free (s : State) (u : Undo) : (s.addHazard u).free = s.free := rfl
@[simp] theorem State.addHazard_inputs (s : State) (u : Undo) : (s.addHazard u).inputs = s.inputs := rfl
@[simp] theorem State.addHazard_inp (s : State) (u : Undo) : (s.addHazard u).inp = s.inp := rfl
@[simp] theorem State.addHazard_hazards (s : State) (u : Undo) : (s.addHazard u).hazards = s.hazards ++ [{ left := Config.hazardWindow + 1, undo := u }] := rfl
@[simp] theorem State.addHazard_fccOld (s : State) (u : Undo) : (s.addHazard u).fccOld = s.fccOld := rfl
@[simp] theorem State.addHazard_fpBusy (s : State) (u : Undo) : (s.addHazard u).fpBusy = s.fpBusy := rfl
@[simp] theorem State.addHazard_entered (s : State) (u : Undo) : (s.addHazard u).entered = s.entered := rfl
@[simp] theorem State.addHazard_bus (s : State) (u : Undo) : (s.addHazard u).bus = s.bus := rfl

@[simp] theorem State.writeCp0Reg_gpr (s : State) (n : BitVec 5) (c : Cp0) : (s.writeCp0Reg n c).gpr = s.gpr := rfl
@[simp] theorem State.writeCp0Reg_hi (s : State) (n : BitVec 5) (c : Cp0) : (s.writeCp0Reg n c).hi = s.hi := rfl
@[simp] theorem State.writeCp0Reg_lo (s : State) (n : BitVec 5) (c : Cp0) : (s.writeCp0Reg n c).lo = s.lo := rfl
@[simp] theorem State.writeCp0Reg_pc (s : State) (n : BitVec 5) (c : Cp0) : (s.writeCp0Reg n c).pc = s.pc := rfl
@[simp] theorem State.writeCp0Reg_delay (s : State) (n : BitVec 5) (c : Cp0) : (s.writeCp0Reg n c).delay = s.delay := rfl
@[simp] theorem State.writeCp0Reg_cp0 (s : State) (n : BitVec 5) (c : Cp0) : (s.writeCp0Reg n c).cp0 = c := rfl
@[simp] theorem State.writeCp0Reg_tlb (s : State) (n : BitVec 5) (c : Cp0) : (s.writeCp0Reg n c).tlb = s.tlb := rfl
@[simp] theorem State.writeCp0Reg_fgr (s : State) (n : BitVec 5) (c : Cp0) : (s.writeCp0Reg n c).fgr = s.fgr := rfl
@[simp] theorem State.writeCp0Reg_fcr31 (s : State) (n : BitVec 5) (c : Cp0) : (s.writeCp0Reg n c).fcr31 = s.fcr31 := rfl
@[simp] theorem State.writeCp0Reg_llBit (s : State) (n : BitVec 5) (c : Cp0) : (s.writeCp0Reg n c).llBit = s.llBit := rfl
@[simp] theorem State.writeCp0Reg_linkAddr (s : State) (n : BitVec 5) (c : Cp0) : (s.writeCp0Reg n c).linkAddr = s.linkAddr := rfl
@[simp] theorem State.writeCp0Reg_linkKnown (s : State) (n : BitVec 5) (c : Cp0) : (s.writeCp0Reg n c).linkKnown = s.linkKnown := rfl
@[simp] theorem State.writeCp0Reg_intReg (s : State) (n : BitVec 5) (c : Cp0) : (s.writeCp0Reg n c).intReg = s.intReg := rfl
@[simp] theorem State.writeCp0Reg_intPin (s : State) (n : BitVec 5) (c : Cp0) : (s.writeCp0Reg n c).intPin = s.intPin := rfl
@[simp] theorem State.writeCp0Reg_nmiPin (s : State) (n : BitVec 5) (c : Cp0) : (s.writeCp0Reg n c).nmiPin = s.nmiPin := rfl
@[simp] theorem State.writeCp0Reg_nmiSeen (s : State) (n : BitVec 5) (c : Cp0) : (s.writeCp0Reg n c).nmiSeen = s.nmiSeen := rfl
@[simp] theorem State.writeCp0Reg_nmiPending (s : State) (n : BitVec 5) (c : Cp0) : (s.writeCp0Reg n c).nmiPending = s.nmiPending := rfl
@[simp] theorem State.writeCp0Reg_timerInt (s : State) (n : BitVec 5) (c : Cp0) : (s.writeCp0Reg n c).timerInt = s.timerInt := rfl
@[simp] theorem State.writeCp0Reg_standby (s : State) (n : BitVec 5) (c : Cp0) : (s.writeCp0Reg n c).standby = s.standby := rfl
@[simp] theorem State.writeCp0Reg_wb (s : State) (n : BitVec 5) (c : Cp0) : (s.writeCp0Reg n c).wb = s.wb := rfl
@[simp] theorem State.writeCp0Reg_icache (s : State) (n : BitVec 5) (c : Cp0) : (s.writeCp0Reg n c).icache = s.icache := rfl
@[simp] theorem State.writeCp0Reg_icacheRest (s : State) (n : BitVec 5) (c : Cp0) : (s.writeCp0Reg n c).icacheRest = s.icacheRest := rfl
@[simp] theorem State.writeCp0Reg_dcache (s : State) (n : BitVec 5) (c : Cp0) : (s.writeCp0Reg n c).dcache = s.dcache := rfl
@[simp] theorem State.writeCp0Reg_dcacheRest (s : State) (n : BitVec 5) (c : Cp0) : (s.writeCp0Reg n c).dcacheRest = s.dcacheRest := rfl
@[simp] theorem State.writeCp0Reg_scache (s : State) (n : BitVec 5) (c : Cp0) : (s.writeCp0Reg n c).scache = s.scache := rfl
@[simp] theorem State.writeCp0Reg_scacheRest (s : State) (n : BitVec 5) (c : Cp0) : (s.writeCp0Reg n c).scacheRest = s.scacheRest := rfl
@[simp] theorem State.writeCp0Reg_mem (s : State) (n : BitVec 5) (c : Cp0) : (s.writeCp0Reg n c).mem = s.mem := rfl
@[simp] theorem State.writeCp0Reg_physMap (s : State) (n : BitVec 5) (c : Cp0) : (s.writeCp0Reg n c).physMap = s.physMap := rfl
@[simp] theorem State.writeCp0Reg_boot (s : State) (n : BitVec 5) (c : Cp0) : (s.writeCp0Reg n c).boot = s.boot := rfl
@[simp] theorem State.writeCp0Reg_free (s : State) (n : BitVec 5) (c : Cp0) : (s.writeCp0Reg n c).free = s.free := rfl
@[simp] theorem State.writeCp0Reg_inputs (s : State) (n : BitVec 5) (c : Cp0) : (s.writeCp0Reg n c).inputs = s.inputs := rfl
@[simp] theorem State.writeCp0Reg_inp (s : State) (n : BitVec 5) (c : Cp0) : (s.writeCp0Reg n c).inp = s.inp := rfl
@[simp] theorem State.writeCp0Reg_hazards (s : State) (n : BitVec 5) (c : Cp0) : (s.writeCp0Reg n c).hazards = s.hazards ++ [{ left := Config.hazardWindow + 1, undo := .reg n s.cp0 }] := rfl
@[simp] theorem State.writeCp0Reg_fccOld (s : State) (n : BitVec 5) (c : Cp0) : (s.writeCp0Reg n c).fccOld = s.fccOld := rfl
@[simp] theorem State.writeCp0Reg_fpBusy (s : State) (n : BitVec 5) (c : Cp0) : (s.writeCp0Reg n c).fpBusy = s.fpBusy := rfl
@[simp] theorem State.writeCp0Reg_entered (s : State) (n : BitVec 5) (c : Cp0) : (s.writeCp0Reg n c).entered = s.entered := rfl
@[simp] theorem State.writeCp0Reg_bus (s : State) (n : BitVec 5) (c : Cp0) : (s.writeCp0Reg n c).bus = s.bus := rfl

@[simp] theorem State.putDSet_gpr (s : State) (i : Nat) (d : DSet) : (s.putDSet i d).gpr = s.gpr := rfl
@[simp] theorem State.putDSet_hi (s : State) (i : Nat) (d : DSet) : (s.putDSet i d).hi = s.hi := rfl
@[simp] theorem State.putDSet_lo (s : State) (i : Nat) (d : DSet) : (s.putDSet i d).lo = s.lo := rfl
@[simp] theorem State.putDSet_pc (s : State) (i : Nat) (d : DSet) : (s.putDSet i d).pc = s.pc := rfl
@[simp] theorem State.putDSet_delay (s : State) (i : Nat) (d : DSet) : (s.putDSet i d).delay = s.delay := rfl
@[simp] theorem State.putDSet_cp0 (s : State) (i : Nat) (d : DSet) : (s.putDSet i d).cp0 = s.cp0 := rfl
@[simp] theorem State.putDSet_tlb (s : State) (i : Nat) (d : DSet) : (s.putDSet i d).tlb = s.tlb := rfl
@[simp] theorem State.putDSet_fgr (s : State) (i : Nat) (d : DSet) : (s.putDSet i d).fgr = s.fgr := rfl
@[simp] theorem State.putDSet_fcr31 (s : State) (i : Nat) (d : DSet) : (s.putDSet i d).fcr31 = s.fcr31 := rfl
@[simp] theorem State.putDSet_llBit (s : State) (i : Nat) (d : DSet) : (s.putDSet i d).llBit = s.llBit := rfl
@[simp] theorem State.putDSet_linkAddr (s : State) (i : Nat) (d : DSet) : (s.putDSet i d).linkAddr = s.linkAddr := rfl
@[simp] theorem State.putDSet_linkKnown (s : State) (i : Nat) (d : DSet) : (s.putDSet i d).linkKnown = s.linkKnown := rfl
@[simp] theorem State.putDSet_intReg (s : State) (i : Nat) (d : DSet) : (s.putDSet i d).intReg = s.intReg := rfl
@[simp] theorem State.putDSet_intPin (s : State) (i : Nat) (d : DSet) : (s.putDSet i d).intPin = s.intPin := rfl
@[simp] theorem State.putDSet_nmiPin (s : State) (i : Nat) (d : DSet) : (s.putDSet i d).nmiPin = s.nmiPin := rfl
@[simp] theorem State.putDSet_nmiSeen (s : State) (i : Nat) (d : DSet) : (s.putDSet i d).nmiSeen = s.nmiSeen := rfl
@[simp] theorem State.putDSet_nmiPending (s : State) (i : Nat) (d : DSet) : (s.putDSet i d).nmiPending = s.nmiPending := rfl
@[simp] theorem State.putDSet_timerInt (s : State) (i : Nat) (d : DSet) : (s.putDSet i d).timerInt = s.timerInt := rfl
@[simp] theorem State.putDSet_standby (s : State) (i : Nat) (d : DSet) : (s.putDSet i d).standby = s.standby := rfl
@[simp] theorem State.putDSet_wb (s : State) (i : Nat) (d : DSet) : (s.putDSet i d).wb = s.wb := rfl
@[simp] theorem State.putDSet_icache (s : State) (i : Nat) (d : DSet) : (s.putDSet i d).icache = s.icache := rfl
@[simp] theorem State.putDSet_icacheRest (s : State) (i : Nat) (d : DSet) : (s.putDSet i d).icacheRest = s.icacheRest := rfl
@[simp] theorem State.putDSet_dcache (s : State) (i : Nat) (d : DSet) : (s.putDSet i d).dcache = putAt s.dcache i d := rfl
@[simp] theorem State.putDSet_dcacheRest (s : State) (i : Nat) (d : DSet) : (s.putDSet i d).dcacheRest = s.dcacheRest := rfl
@[simp] theorem State.putDSet_scache (s : State) (i : Nat) (d : DSet) : (s.putDSet i d).scache = s.scache := rfl
@[simp] theorem State.putDSet_scacheRest (s : State) (i : Nat) (d : DSet) : (s.putDSet i d).scacheRest = s.scacheRest := rfl
@[simp] theorem State.putDSet_mem (s : State) (i : Nat) (d : DSet) : (s.putDSet i d).mem = s.mem := rfl
@[simp] theorem State.putDSet_physMap (s : State) (i : Nat) (d : DSet) : (s.putDSet i d).physMap = s.physMap := rfl
@[simp] theorem State.putDSet_boot (s : State) (i : Nat) (d : DSet) : (s.putDSet i d).boot = s.boot := rfl
@[simp] theorem State.putDSet_free (s : State) (i : Nat) (d : DSet) : (s.putDSet i d).free = s.free := rfl
@[simp] theorem State.putDSet_inputs (s : State) (i : Nat) (d : DSet) : (s.putDSet i d).inputs = s.inputs := rfl
@[simp] theorem State.putDSet_inp (s : State) (i : Nat) (d : DSet) : (s.putDSet i d).inp = s.inp := rfl
@[simp] theorem State.putDSet_hazards (s : State) (i : Nat) (d : DSet) : (s.putDSet i d).hazards = s.hazards := rfl
@[simp] theorem State.putDSet_fccOld (s : State) (i : Nat) (d : DSet) : (s.putDSet i d).fccOld = s.fccOld := rfl
@[simp] theorem State.putDSet_fpBusy (s : State) (i : Nat) (d : DSet) : (s.putDSet i d).fpBusy = s.fpBusy := rfl
@[simp] theorem State.putDSet_entered (s : State) (i : Nat) (d : DSet) : (s.putDSet i d).entered = s.entered := rfl
@[simp] theorem State.putDSet_bus (s : State) (i : Nat) (d : DSet) : (s.putDSet i d).bus = s.bus := rfl

@[simp] theorem State.putISet_gpr (s : State) (i : Nat) (d : ISet) : (s.putISet i d).gpr = s.gpr := rfl
@[simp] theorem State.putISet_hi (s : State) (i : Nat) (d : ISet) : (s.putISet i d).hi = s.hi := rfl
@[simp] theorem State.putISet_lo (s : State) (i : Nat) (d : ISet) : (s.putISet i d).lo = s.lo := rfl
@[simp] theorem State.putISet_pc (s : State) (i : Nat) (d : ISet) : (s.putISet i d).pc = s.pc := rfl
@[simp] theorem State.putISet_delay (s : State) (i : Nat) (d : ISet) : (s.putISet i d).delay = s.delay := rfl
@[simp] theorem State.putISet_cp0 (s : State) (i : Nat) (d : ISet) : (s.putISet i d).cp0 = s.cp0 := rfl
@[simp] theorem State.putISet_tlb (s : State) (i : Nat) (d : ISet) : (s.putISet i d).tlb = s.tlb := rfl
@[simp] theorem State.putISet_fgr (s : State) (i : Nat) (d : ISet) : (s.putISet i d).fgr = s.fgr := rfl
@[simp] theorem State.putISet_fcr31 (s : State) (i : Nat) (d : ISet) : (s.putISet i d).fcr31 = s.fcr31 := rfl
@[simp] theorem State.putISet_llBit (s : State) (i : Nat) (d : ISet) : (s.putISet i d).llBit = s.llBit := rfl
@[simp] theorem State.putISet_linkAddr (s : State) (i : Nat) (d : ISet) : (s.putISet i d).linkAddr = s.linkAddr := rfl
@[simp] theorem State.putISet_linkKnown (s : State) (i : Nat) (d : ISet) : (s.putISet i d).linkKnown = s.linkKnown := rfl
@[simp] theorem State.putISet_intReg (s : State) (i : Nat) (d : ISet) : (s.putISet i d).intReg = s.intReg := rfl
@[simp] theorem State.putISet_intPin (s : State) (i : Nat) (d : ISet) : (s.putISet i d).intPin = s.intPin := rfl
@[simp] theorem State.putISet_nmiPin (s : State) (i : Nat) (d : ISet) : (s.putISet i d).nmiPin = s.nmiPin := rfl
@[simp] theorem State.putISet_nmiSeen (s : State) (i : Nat) (d : ISet) : (s.putISet i d).nmiSeen = s.nmiSeen := rfl
@[simp] theorem State.putISet_nmiPending (s : State) (i : Nat) (d : ISet) : (s.putISet i d).nmiPending = s.nmiPending := rfl
@[simp] theorem State.putISet_timerInt (s : State) (i : Nat) (d : ISet) : (s.putISet i d).timerInt = s.timerInt := rfl
@[simp] theorem State.putISet_standby (s : State) (i : Nat) (d : ISet) : (s.putISet i d).standby = s.standby := rfl
@[simp] theorem State.putISet_wb (s : State) (i : Nat) (d : ISet) : (s.putISet i d).wb = s.wb := rfl
@[simp] theorem State.putISet_icache (s : State) (i : Nat) (d : ISet) : (s.putISet i d).icache = putAt s.icache i d := rfl
@[simp] theorem State.putISet_icacheRest (s : State) (i : Nat) (d : ISet) : (s.putISet i d).icacheRest = s.icacheRest := rfl
@[simp] theorem State.putISet_dcache (s : State) (i : Nat) (d : ISet) : (s.putISet i d).dcache = s.dcache := rfl
@[simp] theorem State.putISet_dcacheRest (s : State) (i : Nat) (d : ISet) : (s.putISet i d).dcacheRest = s.dcacheRest := rfl
@[simp] theorem State.putISet_scache (s : State) (i : Nat) (d : ISet) : (s.putISet i d).scache = s.scache := rfl
@[simp] theorem State.putISet_scacheRest (s : State) (i : Nat) (d : ISet) : (s.putISet i d).scacheRest = s.scacheRest := rfl
@[simp] theorem State.putISet_mem (s : State) (i : Nat) (d : ISet) : (s.putISet i d).mem = s.mem := rfl
@[simp] theorem State.putISet_physMap (s : State) (i : Nat) (d : ISet) : (s.putISet i d).physMap = s.physMap := rfl
@[simp] theorem State.putISet_boot (s : State) (i : Nat) (d : ISet) : (s.putISet i d).boot = s.boot := rfl
@[simp] theorem State.putISet_free (s : State) (i : Nat) (d : ISet) : (s.putISet i d).free = s.free := rfl
@[simp] theorem State.putISet_inputs (s : State) (i : Nat) (d : ISet) : (s.putISet i d).inputs = s.inputs := rfl
@[simp] theorem State.putISet_inp (s : State) (i : Nat) (d : ISet) : (s.putISet i d).inp = s.inp := rfl
@[simp] theorem State.putISet_hazards (s : State) (i : Nat) (d : ISet) : (s.putISet i d).hazards = s.hazards := rfl
@[simp] theorem State.putISet_fccOld (s : State) (i : Nat) (d : ISet) : (s.putISet i d).fccOld = s.fccOld := rfl
@[simp] theorem State.putISet_fpBusy (s : State) (i : Nat) (d : ISet) : (s.putISet i d).fpBusy = s.fpBusy := rfl
@[simp] theorem State.putISet_entered (s : State) (i : Nat) (d : ISet) : (s.putISet i d).entered = s.entered := rfl
@[simp] theorem State.putISet_bus (s : State) (i : Nat) (d : ISet) : (s.putISet i d).bus = s.bus := rfl

@[simp] theorem State.putSLine_gpr (s : State) (i : Nat) (l : SLine) : (s.putSLine i l).gpr = s.gpr := rfl
@[simp] theorem State.putSLine_hi (s : State) (i : Nat) (l : SLine) : (s.putSLine i l).hi = s.hi := rfl
@[simp] theorem State.putSLine_lo (s : State) (i : Nat) (l : SLine) : (s.putSLine i l).lo = s.lo := rfl
@[simp] theorem State.putSLine_pc (s : State) (i : Nat) (l : SLine) : (s.putSLine i l).pc = s.pc := rfl
@[simp] theorem State.putSLine_delay (s : State) (i : Nat) (l : SLine) : (s.putSLine i l).delay = s.delay := rfl
@[simp] theorem State.putSLine_cp0 (s : State) (i : Nat) (l : SLine) : (s.putSLine i l).cp0 = s.cp0 := rfl
@[simp] theorem State.putSLine_tlb (s : State) (i : Nat) (l : SLine) : (s.putSLine i l).tlb = s.tlb := rfl
@[simp] theorem State.putSLine_fgr (s : State) (i : Nat) (l : SLine) : (s.putSLine i l).fgr = s.fgr := rfl
@[simp] theorem State.putSLine_fcr31 (s : State) (i : Nat) (l : SLine) : (s.putSLine i l).fcr31 = s.fcr31 := rfl
@[simp] theorem State.putSLine_llBit (s : State) (i : Nat) (l : SLine) : (s.putSLine i l).llBit = s.llBit := rfl
@[simp] theorem State.putSLine_linkAddr (s : State) (i : Nat) (l : SLine) : (s.putSLine i l).linkAddr = s.linkAddr := rfl
@[simp] theorem State.putSLine_linkKnown (s : State) (i : Nat) (l : SLine) : (s.putSLine i l).linkKnown = s.linkKnown := rfl
@[simp] theorem State.putSLine_intReg (s : State) (i : Nat) (l : SLine) : (s.putSLine i l).intReg = s.intReg := rfl
@[simp] theorem State.putSLine_intPin (s : State) (i : Nat) (l : SLine) : (s.putSLine i l).intPin = s.intPin := rfl
@[simp] theorem State.putSLine_nmiPin (s : State) (i : Nat) (l : SLine) : (s.putSLine i l).nmiPin = s.nmiPin := rfl
@[simp] theorem State.putSLine_nmiSeen (s : State) (i : Nat) (l : SLine) : (s.putSLine i l).nmiSeen = s.nmiSeen := rfl
@[simp] theorem State.putSLine_nmiPending (s : State) (i : Nat) (l : SLine) : (s.putSLine i l).nmiPending = s.nmiPending := rfl
@[simp] theorem State.putSLine_timerInt (s : State) (i : Nat) (l : SLine) : (s.putSLine i l).timerInt = s.timerInt := rfl
@[simp] theorem State.putSLine_standby (s : State) (i : Nat) (l : SLine) : (s.putSLine i l).standby = s.standby := rfl
@[simp] theorem State.putSLine_wb (s : State) (i : Nat) (l : SLine) : (s.putSLine i l).wb = s.wb := rfl
@[simp] theorem State.putSLine_icache (s : State) (i : Nat) (l : SLine) : (s.putSLine i l).icache = s.icache := rfl
@[simp] theorem State.putSLine_icacheRest (s : State) (i : Nat) (l : SLine) : (s.putSLine i l).icacheRest = s.icacheRest := rfl
@[simp] theorem State.putSLine_dcache (s : State) (i : Nat) (l : SLine) : (s.putSLine i l).dcache = s.dcache := rfl
@[simp] theorem State.putSLine_dcacheRest (s : State) (i : Nat) (l : SLine) : (s.putSLine i l).dcacheRest = s.dcacheRest := rfl
@[simp] theorem State.putSLine_scache (s : State) (i : Nat) (l : SLine) : (s.putSLine i l).scache = putAt s.scache i l := rfl
@[simp] theorem State.putSLine_scacheRest (s : State) (i : Nat) (l : SLine) : (s.putSLine i l).scacheRest = s.scacheRest := rfl
@[simp] theorem State.putSLine_mem (s : State) (i : Nat) (l : SLine) : (s.putSLine i l).mem = s.mem := rfl
@[simp] theorem State.putSLine_physMap (s : State) (i : Nat) (l : SLine) : (s.putSLine i l).physMap = s.physMap := rfl
@[simp] theorem State.putSLine_boot (s : State) (i : Nat) (l : SLine) : (s.putSLine i l).boot = s.boot := rfl
@[simp] theorem State.putSLine_free (s : State) (i : Nat) (l : SLine) : (s.putSLine i l).free = s.free := rfl
@[simp] theorem State.putSLine_inputs (s : State) (i : Nat) (l : SLine) : (s.putSLine i l).inputs = s.inputs := rfl
@[simp] theorem State.putSLine_inp (s : State) (i : Nat) (l : SLine) : (s.putSLine i l).inp = s.inp := rfl
@[simp] theorem State.putSLine_hazards (s : State) (i : Nat) (l : SLine) : (s.putSLine i l).hazards = s.hazards := rfl
@[simp] theorem State.putSLine_fccOld (s : State) (i : Nat) (l : SLine) : (s.putSLine i l).fccOld = s.fccOld := rfl
@[simp] theorem State.putSLine_fpBusy (s : State) (i : Nat) (l : SLine) : (s.putSLine i l).fpBusy = s.fpBusy := rfl
@[simp] theorem State.putSLine_entered (s : State) (i : Nat) (l : SLine) : (s.putSLine i l).entered = s.entered := rfl
@[simp] theorem State.putSLine_bus (s : State) (i : Nat) (l : SLine) : (s.putSLine i l).bus = s.bus := rfl

@[simp] theorem State.withPTEBase_gpr (s : State) (e : Exc) (b : BitVec 41) : (s.withPTEBase e b).gpr = s.gpr := by
  unfold State.withPTEBase; split <;> rfl
@[simp] theorem State.withPTEBase_hi (s : State) (e : Exc) (b : BitVec 41) : (s.withPTEBase e b).hi = s.hi := by
  unfold State.withPTEBase; split <;> rfl
@[simp] theorem State.withPTEBase_lo (s : State) (e : Exc) (b : BitVec 41) : (s.withPTEBase e b).lo = s.lo := by
  unfold State.withPTEBase; split <;> rfl
@[simp] theorem State.withPTEBase_pc (s : State) (e : Exc) (b : BitVec 41) : (s.withPTEBase e b).pc = s.pc := by
  unfold State.withPTEBase; split <;> rfl
@[simp] theorem State.withPTEBase_delay (s : State) (e : Exc) (b : BitVec 41) : (s.withPTEBase e b).delay = s.delay := by
  unfold State.withPTEBase; split <;> rfl
@[simp] theorem State.withPTEBase_tlb (s : State) (e : Exc) (b : BitVec 41) : (s.withPTEBase e b).tlb = s.tlb := by
  unfold State.withPTEBase; split <;> rfl
@[simp] theorem State.withPTEBase_fgr (s : State) (e : Exc) (b : BitVec 41) : (s.withPTEBase e b).fgr = s.fgr := by
  unfold State.withPTEBase; split <;> rfl
@[simp] theorem State.withPTEBase_fcr31 (s : State) (e : Exc) (b : BitVec 41) : (s.withPTEBase e b).fcr31 = s.fcr31 := by
  unfold State.withPTEBase; split <;> rfl
@[simp] theorem State.withPTEBase_llBit (s : State) (e : Exc) (b : BitVec 41) : (s.withPTEBase e b).llBit = s.llBit := by
  unfold State.withPTEBase; split <;> rfl
@[simp] theorem State.withPTEBase_linkAddr (s : State) (e : Exc) (b : BitVec 41) : (s.withPTEBase e b).linkAddr = s.linkAddr := by
  unfold State.withPTEBase; split <;> rfl
@[simp] theorem State.withPTEBase_linkKnown (s : State) (e : Exc) (b : BitVec 41) : (s.withPTEBase e b).linkKnown = s.linkKnown := by
  unfold State.withPTEBase; split <;> rfl
@[simp] theorem State.withPTEBase_intReg (s : State) (e : Exc) (b : BitVec 41) : (s.withPTEBase e b).intReg = s.intReg := by
  unfold State.withPTEBase; split <;> rfl
@[simp] theorem State.withPTEBase_intPin (s : State) (e : Exc) (b : BitVec 41) : (s.withPTEBase e b).intPin = s.intPin := by
  unfold State.withPTEBase; split <;> rfl
@[simp] theorem State.withPTEBase_nmiPin (s : State) (e : Exc) (b : BitVec 41) : (s.withPTEBase e b).nmiPin = s.nmiPin := by
  unfold State.withPTEBase; split <;> rfl
@[simp] theorem State.withPTEBase_nmiSeen (s : State) (e : Exc) (b : BitVec 41) : (s.withPTEBase e b).nmiSeen = s.nmiSeen := by
  unfold State.withPTEBase; split <;> rfl
@[simp] theorem State.withPTEBase_nmiPending (s : State) (e : Exc) (b : BitVec 41) : (s.withPTEBase e b).nmiPending = s.nmiPending := by
  unfold State.withPTEBase; split <;> rfl
@[simp] theorem State.withPTEBase_timerInt (s : State) (e : Exc) (b : BitVec 41) : (s.withPTEBase e b).timerInt = s.timerInt := by
  unfold State.withPTEBase; split <;> rfl
@[simp] theorem State.withPTEBase_standby (s : State) (e : Exc) (b : BitVec 41) : (s.withPTEBase e b).standby = s.standby := by
  unfold State.withPTEBase; split <;> rfl
@[simp] theorem State.withPTEBase_wb (s : State) (e : Exc) (b : BitVec 41) : (s.withPTEBase e b).wb = s.wb := by
  unfold State.withPTEBase; split <;> rfl
@[simp] theorem State.withPTEBase_icache (s : State) (e : Exc) (b : BitVec 41) : (s.withPTEBase e b).icache = s.icache := by
  unfold State.withPTEBase; split <;> rfl
@[simp] theorem State.withPTEBase_icacheRest (s : State) (e : Exc) (b : BitVec 41) : (s.withPTEBase e b).icacheRest = s.icacheRest := by
  unfold State.withPTEBase; split <;> rfl
@[simp] theorem State.withPTEBase_dcache (s : State) (e : Exc) (b : BitVec 41) : (s.withPTEBase e b).dcache = s.dcache := by
  unfold State.withPTEBase; split <;> rfl
@[simp] theorem State.withPTEBase_dcacheRest (s : State) (e : Exc) (b : BitVec 41) : (s.withPTEBase e b).dcacheRest = s.dcacheRest := by
  unfold State.withPTEBase; split <;> rfl
@[simp] theorem State.withPTEBase_scache (s : State) (e : Exc) (b : BitVec 41) : (s.withPTEBase e b).scache = s.scache := by
  unfold State.withPTEBase; split <;> rfl
@[simp] theorem State.withPTEBase_scacheRest (s : State) (e : Exc) (b : BitVec 41) : (s.withPTEBase e b).scacheRest = s.scacheRest := by
  unfold State.withPTEBase; split <;> rfl
@[simp] theorem State.withPTEBase_mem (s : State) (e : Exc) (b : BitVec 41) : (s.withPTEBase e b).mem = s.mem := by
  unfold State.withPTEBase; split <;> rfl
@[simp] theorem State.withPTEBase_physMap (s : State) (e : Exc) (b : BitVec 41) : (s.withPTEBase e b).physMap = s.physMap := by
  unfold State.withPTEBase; split <;> rfl
@[simp] theorem State.withPTEBase_boot (s : State) (e : Exc) (b : BitVec 41) : (s.withPTEBase e b).boot = s.boot := by
  unfold State.withPTEBase; split <;> rfl
@[simp] theorem State.withPTEBase_free (s : State) (e : Exc) (b : BitVec 41) : (s.withPTEBase e b).free = s.free := by
  unfold State.withPTEBase; split <;> rfl
@[simp] theorem State.withPTEBase_inputs (s : State) (e : Exc) (b : BitVec 41) : (s.withPTEBase e b).inputs = s.inputs := by
  unfold State.withPTEBase; split <;> rfl
@[simp] theorem State.withPTEBase_inp (s : State) (e : Exc) (b : BitVec 41) : (s.withPTEBase e b).inp = s.inp := by
  unfold State.withPTEBase; split <;> rfl
@[simp] theorem State.withPTEBase_hazards (s : State) (e : Exc) (b : BitVec 41) : (s.withPTEBase e b).hazards = s.hazards := by
  unfold State.withPTEBase; split <;> rfl
@[simp] theorem State.withPTEBase_fccOld (s : State) (e : Exc) (b : BitVec 41) : (s.withPTEBase e b).fccOld = s.fccOld := by
  unfold State.withPTEBase; split <;> rfl
@[simp] theorem State.withPTEBase_fpBusy (s : State) (e : Exc) (b : BitVec 41) : (s.withPTEBase e b).fpBusy = s.fpBusy := by
  unfold State.withPTEBase; split <;> rfl
@[simp] theorem State.withPTEBase_entered (s : State) (e : Exc) (b : BitVec 41) : (s.withPTEBase e b).entered = s.entered := by
  unfold State.withPTEBase; split <;> rfl
@[simp] theorem State.withPTEBase_bus (s : State) (e : Exc) (b : BitVec 41) : (s.withPTEBase e b).bus = s.bus := by
  unfold State.withPTEBase; split <;> rfl
@[simp] theorem State.withPTEBase_cp0_status (s : State) (e : Exc) (b : BitVec 41) :
    (s.withPTEBase e b).cp0.status = s.cp0.status := by
  unfold State.withPTEBase; split <;> rfl
@[simp] theorem State.withPTEBase_cp0_random (s : State) (e : Exc) (b : BitVec 41) :
    (s.withPTEBase e b).cp0.random = s.cp0.random := by
  unfold State.withPTEBase; split <;> rfl
@[simp] theorem State.withPTEBase_cp0_wired (s : State) (e : Exc) (b : BitVec 41) :
    (s.withPTEBase e b).cp0.wired = s.cp0.wired := by
  unfold State.withPTEBase; split <;> rfl
@[simp] theorem State.withPTEBase_cp0_cause (s : State) (e : Exc) (b : BitVec 41) :
    (s.withPTEBase e b).cp0.cause = s.cp0.cause := by
  unfold State.withPTEBase; split <;> rfl
@[simp] theorem State.withPTEBase_cp0_epc (s : State) (e : Exc) (b : BitVec 41) :
    (s.withPTEBase e b).cp0.epc = s.cp0.epc := by
  unfold State.withPTEBase; split <;> rfl
@[simp] theorem State.withPTEBase_cp0_errorEpc (s : State) (e : Exc) (b : BitVec 41) :
    (s.withPTEBase e b).cp0.errorEpc = s.cp0.errorEpc := by
  unfold State.withPTEBase; split <;> rfl
@[simp] theorem State.withPTEBase_cp0_badVAddr (s : State) (e : Exc) (b : BitVec 41) :
    (s.withPTEBase e b).cp0.badVAddr = s.cp0.badVAddr := by
  unfold State.withPTEBase; split <;> rfl
@[simp] theorem State.withPTEBase_cp0_entryHi (s : State) (e : Exc) (b : BitVec 41) :
    (s.withPTEBase e b).cp0.entryHi = s.cp0.entryHi := by
  unfold State.withPTEBase; split <;> rfl
@[simp] theorem State.withPTEBase_cp0_xcontextPTEBase (s : State) (e : Exc) (b : BitVec 41) :
    (s.withPTEBase e b).cp0.xcontextPTEBase = s.cp0.xcontextPTEBase := by
  unfold State.withPTEBase; split <;> rfl
@[simp] theorem State.withPTEBase_cp0_pageMask (s : State) (e : Exc) (b : BitVec 41) :
    (s.withPTEBase e b).cp0.pageMask = s.cp0.pageMask := by
  unfold State.withPTEBase; split <;> rfl
@[simp] theorem State.withPTEBase_cp0_cacheErr (s : State) (e : Exc) (b : BitVec 41) :
    (s.withPTEBase e b).cp0.cacheErr = s.cp0.cacheErr := by
  unfold State.withPTEBase; split <;> rfl

end Sys2Proof.Machine
end

