-- ==== Sys2Proof/Laws/Memory.lean ====
section
/-! SUPPORT. Sys2Proof/Laws/Memory.lean: reading and writing bytes of memory: the canonical form is kept, a read after a write gives
the value written, and a write leaves every other byte alone. -/

namespace Sys2Proof.Machine

/-- Addresses below every entry read as unlisted. -/
theorem memRead_below {m : Memory} {x : Nat} (h : ∀ c ∈ m, x < c.1) : memRead m x = unlistedByte := by
  cases m with
  | nil => rfl
  | cons c m =>
    have hc : x < c.1 := h c (by simp)
    obtain ⟨b, v⟩ := c
    simp only at hc
    simp [memRead, hc, Nat.ne_of_lt hc]

/-- The addresses a write leaves listed. -/
theorem mem_memWrite {m : Memory} {a : Nat} {v : Byte} {c : Host.Cell} (h : c ∈ memWrite m a v) :
    (c = (a, v) ∧ v ≠ unlistedByte) ∨ c ∈ m := by
  induction m with
  | nil =>
    unfold memWrite at h
    split at h
    · cases h
    · simp only [List.mem_singleton] at h; exact .inl ⟨h, by assumption⟩
  | cons d m ih =>
    obtain ⟨b, w⟩ := d
    simp only [memWrite] at h
    split at h
    · split at h
      · exact .inr h
      · rcases List.mem_cons.1 h with rfl | h
        · exact .inl ⟨rfl, by assumption⟩
        · exact .inr h
    · split at h
      · split at h
        · exact .inr (List.mem_cons_of_mem _ h)
        · rcases List.mem_cons.1 h with rfl | h
          · exact .inl ⟨rfl, by assumption⟩
          · exact .inr (List.mem_cons_of_mem _ h)
      · rcases List.mem_cons.1 h with rfl | h
        · exact .inr (by simp)
        · rcases ih h with h | h
          · exact .inl h
          · exact .inr (List.mem_cons_of_mem _ h)

/-- A write keeps the addresses strictly rising. -/
theorem memWrite_rising {m : Memory} {a : Nat} {v : Byte} (h : m.Pairwise fun x y => x.1 < y.1) :
    (memWrite m a v).Pairwise fun x y => x.1 < y.1 := by
  induction m with
  | nil => unfold memWrite; split <;> simp
  | cons d m ih =>
    obtain ⟨b, w⟩ := d
    have hm := (List.pairwise_cons.1 h).2
    have hb := (List.pairwise_cons.1 h).1
    simp only [memWrite]
    split
    · split
      · exact h
      · refine List.pairwise_cons.2 ⟨fun c hc => ?_, h⟩
        rcases List.mem_cons.1 hc with rfl | hc
        · assumption
        · have := hb c hc; simp only at this ⊢; omega
    · split
      · split
        · exact hm
        · refine List.pairwise_cons.2 ⟨fun c hc => ?_, hm⟩
          have := hb c hc; simp only at this ⊢; omega
      · refine List.pairwise_cons.2 ⟨fun c hc => ?_, ih hm⟩
        rcases mem_memWrite hc with ⟨rfl, _⟩ | hc
        · simp only; omega
        · exact hb c hc

/-- A write keeps the canonical form. -/
theorem memWrite_wf {m : Memory} {a : Nat} {v : Byte} (h : Memory.wf m) (ha : a < memSize) : Memory.wf (memWrite m a v) := by
  refine ⟨memWrite_rising h.1, fun c hc => ?_⟩
  rcases mem_memWrite hc with ⟨rfl, hv⟩ | hc
  · exact ⟨hv, ha⟩
  · exact h.2 c hc

/-- The byte read after a write. -/
theorem memRead_memWrite {m : Memory} {a x : Nat} {v : Byte} (h : m.Pairwise fun x y => x.1 < y.1) :
    memRead (memWrite m a v) x = if x = a then v else memRead m x := by
  induction m with
  | nil =>
    by_cases hv : v = unlistedByte
    · simp [memWrite, memRead, hv]
    · by_cases hx : x = a <;> simp [memWrite, memRead, hv, hx]
  | cons d m ih =>
    obtain ⟨b, w⟩ := d
    have hm := (List.pairwise_cons.1 h).2
    have hb := (List.pairwise_cons.1 h).1
    by_cases hab : a < b
    · by_cases hv : v = unlistedByte
      · by_cases hx : x = a
        · subst hx; simp [memWrite, memRead, hab, hv, Nat.ne_of_lt hab]
        · simp [memWrite, hab, hv, hx]
      · by_cases hx : x = a
        · simp [memWrite, memRead, hab, hv, hx]
        · by_cases hxa : x < a
          · simp [memWrite, memRead, hab, hv, hx, hxa, Nat.lt_trans hxa hab, Nat.ne_of_lt (Nat.lt_trans hxa hab)]
          · simp [memWrite, memRead, hab, hv, hx, hxa]
    · by_cases heq : a = b
      · subst heq
        by_cases hv : v = unlistedByte
        · have hle : memRead m x = if x = a then unlistedByte else memRead ((a, w) :: m) x := by
            by_cases hx : x = a
            · subst hx; simp [memRead_below fun c hc => hb c hc]
            · by_cases hxa : x < a
              · simp only [hx, if_false, memRead, hxa, if_true]
                exact memRead_below fun c hc => Nat.lt_trans hxa (hb c hc)
              · simp [memRead, hx, hxa]
          simp only [memWrite, hv, Nat.lt_irrefl, if_false, if_true]; exact hle
        · by_cases hx : x = a
          · simp [memWrite, memRead, hv, hx]
          · by_cases hxa : x < a <;> simp [memWrite, memRead, hv, hx, hxa]
      · by_cases hxb : x = b
        · subst hxb
          simp [memWrite, memRead, hab, heq, Ne.symm heq]
        · by_cases hxl : x < b
          · have : x ≠ a := by omega
            simp [memWrite, memRead, hab, heq, hxb, hxl, this]
          · simp [memWrite, memRead, hab, heq, hxb, hxl, ih hm]

/-- Bytes written keep the canonical form. -/
theorem memWriteBytes_wf {bs : List Byte} {m : Memory} {a : Nat} (h : Memory.wf m) : Memory.wf (memWriteBytes m a bs) := by
  induction bs generalizing m a with
  | nil => exact h
  | cons v vs ih => exact ih (memWrite_wf h (Nat.mod_lt _ (by decide)))

/-- Bytes other masters write keep the canonical form. -/
theorem memWriteCells_wf {cs : List Host.Cell} {m : Memory} (h : Memory.wf m) : Memory.wf (memWriteCells m cs) := by
  induction cs generalizing m with
  | nil => exact h
  | cons c cs ih => exact ih (memWrite_wf h (Nat.mod_lt _ (by decide)))

/-- A byte outside those written is unchanged. -/
theorem memRead_memWriteBytes_other {bs : List Byte} {m : Memory} {a x : Nat} (h : Memory.wf m)
    (hx : ∀ k < bs.length, (a + k) % memSize ≠ x) : memRead (memWriteBytes m a bs) x = memRead m x := by
  induction bs generalizing m a with
  | nil => rfl
  | cons v vs ih =>
    have h0 := hx 0 (by simp)
    simp only [memWriteBytes]
    rw [ih (memWrite_wf h (Nat.mod_lt _ (by decide))) fun k hk => by
      have := hx (k + 1) (by simpa using hk)
      rwa [Nat.add_comm k 1, ← Nat.add_assoc] at this]
    rw [memRead_memWrite h.1, if_neg (Ne.symm (by simpa using h0))]

/-- The bytes just written are read back. -/
theorem memReadBytes_memWriteBytes {bs : List Byte} {m : Memory} {a : Nat} (h : Memory.wf m) (hl : bs.length ≤ memSize) :
    memReadBytes (memWriteBytes m a bs) a bs.length = bs := by
  induction bs generalizing m a with
  | nil => rfl
  | cons v vs ih =>
    simp only [memWriteBytes, List.length_cons, memReadBytes]
    have hw : Memory.wf (memWrite m (a % memSize) v) := memWrite_wf h (Nat.mod_lt _ (by decide))
    congr 1
    · rw [memRead_memWriteBytes_other hw, memRead_memWrite h.1, if_pos rfl]
      intro k hk heq
      simp only [List.length_cons] at hl
      have h1 : (a + 1 + k) % memSize = a % memSize := heq
      have h3 : (a + (k + 1)) % memSize = (a + 0) % memSize := by
        rw [show a + (k + 1) = a + 1 + k by omega, h1, Nat.add_zero]
      have h2 : (k + 1) % memSize = 0 := by simpa [Nat.ModEq] using Nat.ModEq.add_left_cancel' a h3
      rw [Nat.mod_eq_of_lt (by omega)] at h2
      omega
    · exact ih hw (by simp only [List.length_cons] at hl; omega)

/-- How many bytes a read gives. -/
@[simp] theorem memReadBytes_length {n : Nat} {m : Memory} {a : Nat} : (memReadBytes m a n).length = n := by
  induction n generalizing a with
  | zero => rfl
  | succ n ih => simp [memReadBytes, ih]

/-! ## Through the physical map -/

/-- Without a region every address is plain memory. -/
@[simp] theorem kindAt_nil (a : Nat) : kindAt [] a = .memory := rfl

/-- A byte sent to an address keeps the canonical form. -/
theorem physWrite_wf {map : List Region} {m : Memory} {a : Nat} {v : Byte} (h : Memory.wf m) (ha : a < memSize) :
    Memory.wf (physWrite map m a v) := by
  unfold physWrite; split
  · exact memWrite_wf h ha
  all_goals exact h

/-- The byte of memory behind one sent to an address: only plain memory keeps it. -/
theorem memRead_physWrite {map : List Region} {m : Memory} {a x : Nat} {v : Byte} (h : Memory.wf m) :
    memRead (physWrite map m a v) x = if x = a ∧ kindAt map a = .memory then v else memRead m x := by
  unfold physWrite; split <;> rename_i hk
  · rw [memRead_memWrite h.1]; simp [hk]
  all_goals simp [hk]

/-- Bytes sent keep the canonical form. -/
theorem physWriteBytes_wf {map : List Region} {bs : List Byte} {m : Memory} {a : Nat} (h : Memory.wf m) :
    Memory.wf (physWriteBytes map m a bs) := by
  induction bs generalizing m a with
  | nil => exact h
  | cons v vs ih => exact ih (physWrite_wf h (Nat.mod_lt _ (by decide)))

/-- A byte outside those sent is unchanged. -/
theorem memRead_physWriteBytes_other {map : List Region} {bs : List Byte} {m : Memory} {a x : Nat} (h : Memory.wf m)
    (hx : ∀ k < bs.length, (a + k) % memSize ≠ x) : memRead (physWriteBytes map m a bs) x = memRead m x := by
  induction bs generalizing m a with
  | nil => rfl
  | cons v vs ih =>
    have hne : ¬(x = a % memSize ∧ kindAt map (a % memSize) = .memory) := fun e => hx 0 (by simp) e.1.symm
    have ht : ∀ k < vs.length, (a + 1 + k) % memSize ≠ x := fun k hk => by
      have := hx (k + 1) (by simpa using hk)
      rwa [Nat.add_comm k 1, ← Nat.add_assoc] at this
    exact (ih (physWrite_wf h (Nat.mod_lt _ (by decide))) ht).trans ((memRead_physWrite h).trans (if_neg hne))

/-- A byte sent stands in plain memory; what is no plain memory is as before. -/
theorem memRead_physWriteBytes {map : List Region} {bs : List Byte} {m : Memory} {a k : Nat} (h : Memory.wf m)
    (hl : bs.length ≤ memSize) (hk : k < bs.length) :
    memRead (physWriteBytes map m a bs) ((a + k) % memSize) =
      if kindAt map ((a + k) % memSize) = .memory then bs[k] else memRead m ((a + k) % memSize) := by
  induction bs generalizing m a k with
  | nil => cases hk
  | cons v vs ih =>
    have hw : Memory.wf (physWrite map m (a % memSize) v) := physWrite_wf h (Nat.mod_lt _ (by decide))
    have far : ∀ j, j + 1 < memSize → (a + 1 + j) % memSize ≠ a % memSize := fun j hj heq => by
      have h3 : (a + (j + 1)) % memSize = (a + 0) % memSize := by
        rw [show a + (j + 1) = a + 1 + j by omega, heq, Nat.add_zero]
      have h2 : (j + 1) % memSize = 0 := by simpa [Nat.ModEq] using Nat.ModEq.add_left_cancel' a h3
      rw [Nat.mod_eq_of_lt hj] at h2
      omega
    simp only [List.length_cons] at hl hk
    cases k with
    | zero =>
      refine (memRead_physWriteBytes_other hw fun j hj => far j (by omega)).trans ((memRead_physWrite h).trans ?_)
      simp
    | succ k =>
      have hr := ih (a := a + 1) (k := k) hw (by omega) (by omega)
      rw [show a + 1 + k = a + (k + 1) by omega] at hr
      have hne : ¬((a + (k + 1)) % memSize = a % memSize ∧ kindAt map (a % memSize) = .memory) := fun e =>
        far k (by omega) ((show a + 1 + k = a + (k + 1) by omega) ▸ e.1)
      rw [memRead_physWrite h, if_neg hne] at hr
      exact hr

/-- How many bytes a read request gives. -/
@[simp] theorem physReadBytes_length {map : List Region} {n : Nat} {m : Memory} {d : BitVec 256} {a : Nat} :
    (physReadBytes map m d a n).length = n := by
  induction n generalizing a with
  | zero => rfl
  | succ n ih => simp [physReadBytes, ih]

/-- Plain memory answers a read request with what it holds. -/
theorem physReadBytes_memory {map : List Region} {n : Nat} {m : Memory} {d : BitVec 256} {a : Nat}
    (h : ∀ k < n, kindAt map ((a + k) % memSize) = .memory) : physReadBytes map m d a n = memReadBytes m a n := by
  induction n generalizing a with
  | zero => rfl
  | succ n ih =>
    have h0 : kindAt map (a % memSize) = .memory := h 0 (by simp)
    have ht : ∀ k < n, kindAt map ((a + 1 + k) % memSize) = .memory := fun k hk => by
      have := h (k + 1) (by omega)
      rwa [Nat.add_comm k 1, ← Nat.add_assoc] at this
    simp [physReadBytes, memReadBytes, physRead, h0, ih ht]

/-- The memory of the reset state has the canonical form. -/
theorem reset_mem_wf : Memory.wf State.reset.mem := ⟨List.Pairwise.nil, fun _ h => by cases h⟩

end Sys2Proof.Machine
end

