-- ==== Sys2Proof/Laws/Ops.lean ====
section
/-! SUPPORT. Sys2Proof/Laws/Ops.lean: for each shared operation of Sys2Proof/Machine/Ops.lean, what it answers and what it leaves. -/

namespace Sys2Proof.Machine

/-! ## Registers -/

@[simp] theorem readGpr_zero (s : State) : readGpr s 0 = 0 := by simp [readGpr]

/-- A general register after a write: the value, but for register 0, which discards it. -/
theorem readGpr_writeGpr (s : State) (r q : RegNum) (v : Dword) :
    readGpr (s.writeGpr r v) q = if q = r ∧ q ≠ 0 then v else readGpr s q := by
  unfold State.writeGpr readGpr
  by_cases hq : q = 0
  · rw [if_pos hq, if_pos hq, if_neg (fun h => h.2 hq)]
  · rw [if_neg hq, if_neg hq]
    by_cases hr : r = 0
    · rw [if_pos hr, if_neg (fun h => hq (h.1.trans hr))]
    · rw [if_neg hr]
      by_cases h : q = r
      · subst h; rw [if_pos ⟨rfl, hq⟩]; simp
      · have hne : r.toNat ≠ q.toNat := fun e => h (BitVec.eq_of_toNat_eq e).symm
        rw [if_neg (fun c => h c.1)]; simp [hne]

/-- The general registers read the same when the array is the same. -/
theorem readGpr_congr {s t : State} (h : t.gpr = s.gpr) (q : RegNum) : readGpr t q = readGpr s q := by
  simp only [readGpr, h]

/-- A floating-point general register after a write. -/
theorem readFgr_setFgr (s : State) (r q : RegNum) (v : Dword) :
    readFgr (s.setFgr r v) q = if q = r then v else readFgr s q := by
  unfold readFgr
  by_cases h : q = r
  · subst h; simp
  · have hne : r.toNat ≠ q.toNat := fun e => h (BitVec.eq_of_toNat_eq e).symm
    simp [hne, h]

/-- The floating-point registers read the same when the array is the same. -/
theorem readFgr_congr {s t : State} (h : t.fgr = s.fgr) (q : RegNum) : readFgr t q = readFgr s q := by
  simp only [readFgr, h]

/-! ## Results -/

@[simp] theorem Res.bind_ok {α β : Type} (a : α) (s : State) (k : α → State → Res β) : Res.bind (.ok a s) k = k a s := rfl
@[simp] theorem Res.bind_exc {α β : Type} (e : Exc) (s : State) (k : α → State → Res β) : Res.bind (.exc e s) k = .exc e s := rfl
@[simp] theorem Res.bind_fault {α β : Type} (f : Fault) (k : α → State → Res β) : Res.bind (.fault f) k = .fault f := rfl
@[simp] theorem Res.bind_refuse {α β : Type} (r : Refusal) (k : α → State → Res β) : Res.bind (.refuse r) k = .refuse r := rfl

/-- A sequence answers only if both pieces do. -/
theorem Res.bind_eq_ok {α β : Type} {r : Res α} {k : α → State → Res β} {b : β} {u : State} (h : Res.bind r k = .ok b u) :
    ∃ a t, r = .ok a t ∧ k a t = .ok b u := by
  cases r with
  | ok a t => exact ⟨a, t, rfl, h⟩
  | exc _ _ => cases h
  | fault _ => cases h
  | refuse _ => cases h

@[simp] theorem Look.on_ok {α β : Type} (a : α) (s : State) (k : α → Res β) : Look.on (.ok a) s k = k a := rfl
@[simp] theorem Look.on_exc {α β : Type} (e : Exc) (s : State) (k : α → Res β) : Look.on (.error (.exc e)) s k = .exc e s := rfl
@[simp] theorem Look.on_refuse {α β : Type} (r : Refusal) (s : State) (k : α → Res β) :
    Look.on (.error (.refuse r)) s k = .refuse r := rfl

@[simp] theorem finish_ok (f : Flow) (s : State) : finish (.ok f s) = .next (advance f s) := rfl
@[simp] theorem finish_goOn (s : State) : finish (goOn s) = .next (advance .seq s) := rfl
@[simp] theorem finish_exc (e : Exc) (s : State) : finish (.exc e s) = .next (takeException e s) := rfl
@[simp] theorem finish_fault (f : Fault) : finish (.fault f) = .fault f := rfl
@[simp] theorem finish_refuse (r : Refusal) : finish (.refuse r) = .refused r := rfl

/-- A meaning's next state: control goes on, or an exception is taken. -/
theorem finish_eq_next {r : Res Flow} {t : State} (h : finish r = .next t) :
    (∃ f s, r = .ok f s ∧ t = advance f s) ∨ (∃ e s, r = .exc e s ∧ t = takeException e s) := by
  cases r with
  | ok f s => exact .inl ⟨f, s, rfl, by cases h; rfl⟩
  | exc e s => exact .inr ⟨e, s, rfl, by cases h; rfl⟩
  | fault _ => cases h
  | refuse _ => cases h

/-! ## Checks -/

theorem needCp0_ok {α : Type} {s : State} {k : Res α} (h : cp0Usable (seen .usable s).cp0.status = true) : needCp0 s k = k := by
  simp [needCp0, h]
theorem needCp0_not {α : Type} {s : State} {k : Res α} (h : cp0Usable (seen .usable s).cp0.status = false) :
    needCp0 s k = .exc (.coprocessorUnusable 0) s := by simp [needCp0, h]
theorem needCp1_ok {α : Type} {s : State} {k : Res α} (h : (seen .usable s).cp0.status.cu.getLsbD 1 = true) : needCp1 s k = k := by
  unfold needCp1; rw [if_pos h]
theorem needCp1_not {α : Type} {s : State} {k : Res α} (h : (seen .usable s).cp0.status.cu.getLsbD 1 = false) :
    needCp1 s k = .exc (.coprocessorUnusable 1) s := by
  unfold needCp1; rw [if_neg (by rw [h]; decide)]
theorem need64_ok {α : Type} {s : State} {k : Res α} (h : is64 (seen .usable s).cp0.status = true) : need64 s k = k := by
  simp [need64, h]
theorem need64_not {α : Type} {s : State} {k : Res α} (h : is64 (seen .usable s).cp0.status = false) :
    need64 s k = .exc .reservedInstruction s := by simp [need64, h]
theorem needMips4_ok {α : Type} {s : State} {k : Res α} (h : mips4 (seen .usable s).cp0.status = true) : needMips4 s k = k := by
  simp [needMips4, h]
theorem needMips4_not {α : Type} {s : State} {k : Res α} (h : mips4 (seen .usable s).cp0.status = false) :
    needMips4 s k = .exc .reservedInstruction s := by simp [needMips4, h]
theorem needAligned_ok {α : Type} {n : Nat} {store : Bool} {va : Dword} {s : State} {k : Res α} (h : va.toNat % n = 0) :
    needAligned n store va s k = k := by simp [needAligned, alignedTo, h]
theorem needAligned_not {α : Type} {n : Nat} {store : Bool} {va : Dword} {s : State} {k : Res α} (h : va.toNat % n ≠ 0) :
    needAligned n store va s k = .exc (.addressError store va) s := by simp [needAligned, alignedTo, h]

/-! ## Views -/

/-- Without a choice of the environment every consumer sees the state itself. -/
@[simp] theorem seen_settled {c : Consumer} {s : State} (h : s.inp.stale = []) : seen c s = s := by simp [seen, h]

/-! ## Control -/

@[simp] theorem advance_gpr (f : Flow) (s : State) : (advance f s).gpr = s.gpr := by
  unfold advance; split <;> (try split) <;> rfl
@[simp] theorem advance_hi (f : Flow) (s : State) : (advance f s).hi = s.hi := by
  unfold advance; split <;> (try split) <;> rfl
@[simp] theorem advance_lo (f : Flow) (s : State) : (advance f s).lo = s.lo := by
  unfold advance; split <;> (try split) <;> rfl
@[simp] theorem advance_cp0 (f : Flow) (s : State) : (advance f s).cp0 = s.cp0 := by
  unfold advance; split <;> (try split) <;> rfl
@[simp] theorem advance_tlb (f : Flow) (s : State) : (advance f s).tlb = s.tlb := by
  unfold advance; split <;> (try split) <;> rfl
@[simp] theorem advance_fgr (f : Flow) (s : State) : (advance f s).fgr = s.fgr := by
  unfold advance; split <;> (try split) <;> rfl
@[simp] theorem advance_fcr31 (f : Flow) (s : State) : (advance f s).fcr31 = s.fcr31 := by
  unfold advance; split <;> (try split) <;> rfl
@[simp] theorem advance_llBit (f : Flow) (s : State) : (advance f s).llBit = s.llBit := by
  unfold advance; split <;> (try split) <;> rfl
@[simp] theorem advance_linkAddr (f : Flow) (s : State) : (advance f s).linkAddr = s.linkAddr := by
  unfold advance; split <;> (try split) <;> rfl
@[simp] theorem advance_linkKnown (f : Flow) (s : State) : (advance f s).linkKnown = s.linkKnown := by
  unfold advance; split <;> (try split) <;> rfl
@[simp] theorem advance_intReg (f : Flow) (s : State) : (advance f s).intReg = s.intReg := by
  unfold advance; split <;> (try split) <;> rfl
@[simp] theorem advance_intPin (f : Flow) (s : State) : (advance f s).intPin = s.intPin := by
  unfold advance; split <;> (try split) <;> rfl
@[simp] theorem advance_nmiPin (f : Flow) (s : State) : (advance f s).nmiPin = s.nmiPin := by
  unfold advance; split <;> (try split) <;> rfl
@[simp] theorem advance_nmiSeen (f : Flow) (s : State) : (advance f s).nmiSeen = s.nmiSeen := by
  unfold advance; split <;> (try split) <;> rfl
@[simp] theorem advance_nmiPending (f : Flow) (s : State) : (advance f s).nmiPending = s.nmiPending := by
  unfold advance; split <;> (try split) <;> rfl
@[simp] theorem advance_timerInt (f : Flow) (s : State) : (advance f s).timerInt = s.timerInt := by
  unfold advance; split <;> (try split) <;> rfl
@[simp] theorem advance_standby (f : Flow) (s : State) : (advance f s).standby = s.standby := by
  unfold advance; split <;> (try split) <;> rfl
@[simp] theorem advance_wb (f : Flow) (s : State) : (advance f s).wb = s.wb := by
  unfold advance; split <;> (try split) <;> rfl
@[simp] theorem advance_icache (f : Flow) (s : State) : (advance f s).icache = s.icache := by
  unfold advance; split <;> (try split) <;> rfl
@[simp] theorem advance_icacheRest (f : Flow) (s : State) : (advance f s).icacheRest = s.icacheRest := by
  unfold advance; split <;> (try split) <;> rfl
@[simp] theorem advance_dcache (f : Flow) (s : State) : (advance f s).dcache = s.dcache := by
  unfold advance; split <;> (try split) <;> rfl
@[simp] theorem advance_dcacheRest (f : Flow) (s : State) : (advance f s).dcacheRest = s.dcacheRest := by
  unfold advance; split <;> (try split) <;> rfl
@[simp] theorem advance_scache (f : Flow) (s : State) : (advance f s).scache = s.scache := by
  unfold advance; split <;> (try split) <;> rfl
@[simp] theorem advance_scacheRest (f : Flow) (s : State) : (advance f s).scacheRest = s.scacheRest := by
  unfold advance; split <;> (try split) <;> rfl
@[simp] theorem advance_mem (f : Flow) (s : State) : (advance f s).mem = s.mem := by
  unfold advance; split <;> (try split) <;> rfl
@[simp] theorem advance_physMap (f : Flow) (s : State) : (advance f s).physMap = s.physMap := by
  unfold advance; split <;> (try split) <;> rfl
@[simp] theorem advance_boot (f : Flow) (s : State) : (advance f s).boot = s.boot := by
  unfold advance; split <;> (try split) <;> rfl
@[simp] theorem advance_free (f : Flow) (s : State) : (advance f s).free = s.free := by
  unfold advance; split <;> (try split) <;> rfl
@[simp] theorem advance_inputs (f : Flow) (s : State) : (advance f s).inputs = s.inputs := by
  unfold advance; split <;> (try split) <;> rfl
@[simp] theorem advance_inp (f : Flow) (s : State) : (advance f s).inp = s.inp := by
  unfold advance; split <;> (try split) <;> rfl
@[simp] theorem advance_hazards (f : Flow) (s : State) : (advance f s).hazards = s.hazards := by
  unfold advance; split <;> (try split) <;> rfl
@[simp] theorem advance_fccOld (f : Flow) (s : State) : (advance f s).fccOld = s.fccOld := by
  unfold advance; split <;> (try split) <;> rfl
@[simp] theorem advance_fpBusy (f : Flow) (s : State) : (advance f s).fpBusy = s.fpBusy := by
  unfold advance; split <;> (try split) <;> rfl
@[simp] theorem advance_entered (f : Flow) (s : State) : (advance f s).entered = s.entered := by
  unfold advance; split <;> (try split) <;> rfl
@[simp] theorem advance_bus (f : Flow) (s : State) : (advance f s).bus = s.bus := by
  unfold advance; split <;> (try split) <;> rfl

/-- Going on with the next instruction. -/
theorem advance_seq (s : State) : (advance .seq s).pc = (match s.delay with | none => s.pc + 4 | some t => t) ∧ (advance .seq s).delay = none := by
  unfold advance; cases s.delay <;> exact ⟨rfl, rfl⟩

/-! ## Exceptions -/

@[simp] theorem enter_gpr (e : Exc) (u : StatusReg) (s : State) : (enter e u s).gpr = s.gpr := rfl
@[simp] theorem takeException_gpr (e : Exc) (s : State) : (takeException e s).gpr = s.gpr := by simp [takeException]
@[simp] theorem enter_hi (e : Exc) (u : StatusReg) (s : State) : (enter e u s).hi = s.hi := rfl
@[simp] theorem takeException_hi (e : Exc) (s : State) : (takeException e s).hi = s.hi := by simp [takeException]
@[simp] theorem enter_lo (e : Exc) (u : StatusReg) (s : State) : (enter e u s).lo = s.lo := rfl
@[simp] theorem takeException_lo (e : Exc) (s : State) : (takeException e s).lo = s.lo := by simp [takeException]
@[simp] theorem enter_tlb (e : Exc) (u : StatusReg) (s : State) : (enter e u s).tlb = s.tlb := rfl
@[simp] theorem takeException_tlb (e : Exc) (s : State) : (takeException e s).tlb = s.tlb := by simp [takeException]
@[simp] theorem enter_fgr (e : Exc) (u : StatusReg) (s : State) : (enter e u s).fgr = s.fgr := rfl
@[simp] theorem takeException_fgr (e : Exc) (s : State) : (takeException e s).fgr = s.fgr := by simp [takeException]
@[simp] theorem enter_fcr31 (e : Exc) (u : StatusReg) (s : State) : (enter e u s).fcr31 = s.fcr31 := rfl
@[simp] theorem takeException_fcr31 (e : Exc) (s : State) : (takeException e s).fcr31 = s.fcr31 := by simp [takeException]
@[simp] theorem enter_llBit (e : Exc) (u : StatusReg) (s : State) : (enter e u s).llBit = s.llBit := rfl
@[simp] theorem takeException_llBit (e : Exc) (s : State) : (takeException e s).llBit = s.llBit := by simp [takeException]
@[simp] theorem enter_linkAddr (e : Exc) (u : StatusReg) (s : State) : (enter e u s).linkAddr = s.linkAddr := rfl
@[simp] theorem takeException_linkAddr (e : Exc) (s : State) : (takeException e s).linkAddr = s.linkAddr := by simp [takeException]
@[simp] theorem enter_linkKnown (e : Exc) (u : StatusReg) (s : State) : (enter e u s).linkKnown = s.linkKnown := rfl
@[simp] theorem takeException_linkKnown (e : Exc) (s : State) : (takeException e s).linkKnown = s.linkKnown := by simp [takeException]
@[simp] theorem enter_intReg (e : Exc) (u : StatusReg) (s : State) : (enter e u s).intReg = s.intReg := rfl
@[simp] theorem takeException_intReg (e : Exc) (s : State) : (takeException e s).intReg = s.intReg := by simp [takeException]
@[simp] theorem enter_intPin (e : Exc) (u : StatusReg) (s : State) : (enter e u s).intPin = s.intPin := rfl
@[simp] theorem takeException_intPin (e : Exc) (s : State) : (takeException e s).intPin = s.intPin := by simp [takeException]
@[simp] theorem enter_nmiPin (e : Exc) (u : StatusReg) (s : State) : (enter e u s).nmiPin = s.nmiPin := rfl
@[simp] theorem takeException_nmiPin (e : Exc) (s : State) : (takeException e s).nmiPin = s.nmiPin := by simp [takeException]
@[simp] theorem enter_nmiSeen (e : Exc) (u : StatusReg) (s : State) : (enter e u s).nmiSeen = s.nmiSeen := rfl
@[simp] theorem takeException_nmiSeen (e : Exc) (s : State) : (takeException e s).nmiSeen = s.nmiSeen := by simp [takeException]
@[simp] theorem enter_nmiPending (e : Exc) (u : StatusReg) (s : State) : (enter e u s).nmiPending = s.nmiPending := rfl
@[simp] theorem takeException_nmiPending (e : Exc) (s : State) : (takeException e s).nmiPending = s.nmiPending := by simp [takeException]
@[simp] theorem enter_timerInt (e : Exc) (u : StatusReg) (s : State) : (enter e u s).timerInt = s.timerInt := rfl
@[simp] theorem takeException_timerInt (e : Exc) (s : State) : (takeException e s).timerInt = s.timerInt := by simp [takeException]
@[simp] theorem enter_standby (e : Exc) (u : StatusReg) (s : State) : (enter e u s).standby = s.standby := rfl
@[simp] theorem takeException_standby (e : Exc) (s : State) : (takeException e s).standby = s.standby := by simp [takeException]
@[simp] theorem enter_wb (e : Exc) (u : StatusReg) (s : State) : (enter e u s).wb = s.wb := rfl
@[simp] theorem takeException_wb (e : Exc) (s : State) : (takeException e s).wb = s.wb := by simp [takeException]
@[simp] theorem enter_icache (e : Exc) (u : StatusReg) (s : State) : (enter e u s).icache = s.icache := rfl
@[simp] theorem takeException_icache (e : Exc) (s : State) : (takeException e s).icache = s.icache := by simp [takeException]
@[simp] theorem enter_icacheRest (e : Exc) (u : StatusReg) (s : State) : (enter e u s).icacheRest = s.icacheRest := rfl
@[simp] theorem takeException_icacheRest (e : Exc) (s : State) : (takeException e s).icacheRest = s.icacheRest := by simp [takeException]
@[simp] theorem enter_dcache (e : Exc) (u : StatusReg) (s : State) : (enter e u s).dcache = s.dcache := rfl
@[simp] theorem takeException_dcache (e : Exc) (s : State) : (takeException e s).dcache = s.dcache := by simp [takeException]
@[simp] theorem enter_dcacheRest (e : Exc) (u : StatusReg) (s : State) : (enter e u s).dcacheRest = s.dcacheRest := rfl
@[simp] theorem takeException_dcacheRest (e : Exc) (s : State) : (takeException e s).dcacheRest = s.dcacheRest := by simp [takeException]
@[simp] theorem enter_scache (e : Exc) (u : StatusReg) (s : State) : (enter e u s).scache = s.scache := rfl
@[simp] theorem takeException_scache (e : Exc) (s : State) : (takeException e s).scache = s.scache := by simp [takeException]
@[simp] theorem enter_scacheRest (e : Exc) (u : StatusReg) (s : State) : (enter e u s).scacheRest = s.scacheRest := rfl
@[simp] theorem takeException_scacheRest (e : Exc) (s : State) : (takeException e s).scacheRest = s.scacheRest := by simp [takeException]
@[simp] theorem enter_mem (e : Exc) (u : StatusReg) (s : State) : (enter e u s).mem = s.mem := rfl
@[simp] theorem takeException_mem (e : Exc) (s : State) : (takeException e s).mem = s.mem := by simp [takeException]
@[simp] theorem enter_physMap (e : Exc) (u : StatusReg) (s : State) : (enter e u s).physMap = s.physMap := rfl
@[simp] theorem takeException_physMap (e : Exc) (s : State) : (takeException e s).physMap = s.physMap := by simp [takeException]
@[simp] theorem enter_boot (e : Exc) (u : StatusReg) (s : State) : (enter e u s).boot = s.boot := rfl
@[simp] theorem takeException_boot (e : Exc) (s : State) : (takeException e s).boot = s.boot := by simp [takeException]
@[simp] theorem enter_inputs (e : Exc) (u : StatusReg) (s : State) : (enter e u s).inputs = s.inputs := rfl
@[simp] theorem takeException_inputs (e : Exc) (s : State) : (takeException e s).inputs = s.inputs := by simp [takeException]
@[simp] theorem enter_inp (e : Exc) (u : StatusReg) (s : State) : (enter e u s).inp = s.inp := rfl
@[simp] theorem takeException_inp (e : Exc) (s : State) : (takeException e s).inp = s.inp := by simp [takeException]
@[simp] theorem enter_bus (e : Exc) (u : StatusReg) (s : State) : (enter e u s).bus = s.bus := rfl
@[simp] theorem takeException_bus (e : Exc) (s : State) : (takeException e s).bus = s.bus := by simp [takeException]
@[simp] theorem enter_random (e : Exc) (u : StatusReg) (s : State) : (enter e u s).cp0.random = s.cp0.random := by
  cases e <;> rfl
@[simp] theorem enter_wired (e : Exc) (u : StatusReg) (s : State) : (enter e u s).cp0.wired = s.cp0.wired := by
  cases e <;> rfl
@[simp] theorem takeException_random (e : Exc) (s : State) : (takeException e s).cp0.random = s.cp0.random := by simp [takeException]
@[simp] theorem takeException_wired (e : Exc) (s : State) : (takeException e s).cp0.wired = s.cp0.wired := by simp [takeException]

/-- An entry: the vector, no pending target, CP0 as the entry leaves it. -/
theorem enter_eq (e : Exc) (u : StatusReg) (s : State) :
    (enter e u s).pc = vectorOf u e ∧ (enter e u s).delay = none ∧ (enter e u s).cp0 = entryCp0 e u.exl s ∧ (enter e u s).entered = true :=
  ⟨rfl, rfl, rfl, rfl⟩

/-- CP0 after an entry other than Cache Error. -/
theorem entryCp0_general {e : Exc} (h : ∀ info, e ≠ .cacheError info) (exl : Bool) (s : State) :
    entryCp0 e exl s = generalCp0 e exl s := by
  cases e <;> first | rfl | exact absurd rfl (h _)

end Sys2Proof.Machine
end

