-- ==== Sys2Proof/Laws/Keeps.lean ====
section
/-! SUPPORT. Sys2Proof/Laws/Keeps.lean: the shared operations on memory, the write buffer and the caches keep the invariant; one lemma
for each. -/

namespace Sys2Proof.Machine

/-- A property of every state a result can leave: the state of a value, the state an exception is taken in. -/
def Res.All {α : Type} (P : State → Prop) : Res α → Prop
  | .ok _ s => P s
  | .exc _ s => P s
  | .fault _ => True
  | .refuse _ => True

@[simp] theorem Res.all_ok {α : Type} {P : State → Prop} {a : α} {s : State} : Res.All P (.ok a s) ↔ P s := Iff.rfl
@[simp] theorem Res.all_exc {α : Type} {P : State → Prop} {e : Exc} {s : State} : Res.All P (.exc e s : Res α) ↔ P s := Iff.rfl
@[simp] theorem Res.all_fault {α : Type} {P : State → Prop} {f : Fault} : Res.All P (.fault f : Res α) := trivial
@[simp] theorem Res.all_refuse {α : Type} {P : State → Prop} {r : Refusal} : Res.All P (.refuse r : Res α) := trivial

/-- A sequence keeps what its pieces keep. -/
theorem Res.all_bind {α β : Type} {P : State → Prop} {r : Res α} {k : α → State → Res β} (h : Res.All P r)
    (hk : ∀ a t, P t → Res.All P (k a t)) : Res.All P (Res.bind r k) := by
  cases r with
  | ok a t => exact hk a t h
  | exc _ _ => exact h
  | fault _ => trivial
  | refuse _ => trivial

/-- A lookup leaves the state alone. -/
theorem Look.all_on {α β : Type} {P : State → Prop} {x : Look α} {s : State} {k : α → Res β} (h : P s)
    (hk : ∀ a, Res.All P (k a)) : Res.All P (Look.on x s k) := by
  match x with
  | .ok a => exact hk a
  | .error (.exc _) => exact h
  | .error (.refuse _) => trivial

/-- A meaning's next state has what its result has, if going on and entering an exception keep it. -/
theorem all_finish {P : State → Prop} {r : Res Flow} {t : State} (h : Res.All P r) (hf : ∀ f s, P s → P (advance f s))
    (he : ∀ e s, P s → P (takeException e s)) (ht : finish r = .next t) : P t := by
  rcases finish_eq_next ht with ⟨f, s, rfl, rfl⟩ | ⟨e, s, rfl, rfl⟩
  · exact hf f s h
  · exact he e s h

/-! ## The invariant -/

/-- The invariant speaks of memory, the write buffer, Random and Wired only. -/
theorem Inv.congr {s t : State} (h : Inv s) (hm : t.mem = s.mem) (hw : t.wb = s.wb) (hr : t.cp0.random = s.cp0.random)
    (hi : t.cp0.wired = s.cp0.wired) : Inv t :=
  ⟨hm ▸ h.memory, hi ▸ hr ▸ h.wired, hr ▸ h.random, hw ▸ h.buffer⟩

/-- Another memory in its canonical form. -/
theorem Inv.setMem {s : State} (h : Inv s) {m : Memory} (hm : Memory.wf m) : Inv (s.setMem m) := ⟨hm, h.wired, h.random, h.buffer⟩

/-- Another write buffer that fits. -/
theorem Inv.setWb {s : State} (h : Inv s) {w : List WbEntry} (hw : WriteBufferFits w) : Inv (s.setWb w) :=
  ⟨h.memory, h.wired, h.random, hw⟩

theorem Inv.advance {s : State} (h : Inv s) (f : Flow) : Inv (advance f s) := h.congr (by simp) (by simp) (by simp) (by simp)

theorem Inv.takeException {s : State} (h : Inv s) (e : Exc) : Inv (takeException e s) :=
  h.congr (by simp) (by simp) (by simp) (by simp)

/-- A meaning keeps the invariant if its result does. -/
theorem inv_finish {r : Res Flow} {t : State} (h : Res.All Inv r) (ht : finish r = .next t) : Inv t :=
  all_finish h (fun f _ hs => hs.advance f) (fun e _ hs => hs.takeException e) ht

theorem writeBufferFits_nil : WriteBufferFits [] := ⟨by simp, by simp⟩

theorem inv_addBus {s : State} (h : Inv s) (r : BusRequest) : Inv (s.addBus r) := h.congr rfl rfl rfl rfl
theorem inv_putDSet {s : State} (h : Inv s) (i : Nat) (d : DSet) : Inv (s.putDSet i d) := h.congr rfl rfl rfl rfl
theorem inv_putISet {s : State} (h : Inv s) (i : Nat) (d : ISet) : Inv (s.putISet i d) := h.congr rfl rfl rfl rfl
theorem inv_putSLine {s : State} (h : Inv s) (i : Nat) (l : SLine) : Inv (s.putSLine i l) := h.congr rfl rfl rfl rfl
theorem inv_addHazard {s : State} (h : Inv s) (u : Undo) : Inv (s.addHazard u) := h.congr rfl rfl rfl rfl
theorem inv_drawn {s : State} (h : Inv s) (n : Nat) : Inv (s.drawn n) := h.congr rfl rfl rfl rfl

theorem inv_breakLink {s : State} (h : Inv s) (a : PAddr) : Inv (s.breakLink a) := by
  unfold State.breakLink; split
  · exact h.congr (by simp) (by simp) (by simp) (by simp)
  · exact h

/-! ## The write buffer -/

theorem inv_sendEntry {s : State} (h : Inv s) (e : WbEntry) : Inv (sendEntry e s) := by
  have key : ∀ (pa : PAddr) (bs : List Byte) (r : BusRequest) (n : Nat),
      Inv (((s.setMem (physWriteBytes s.physMap s.mem pa.toNat bs)).addBus r).drawn n) :=
    fun pa bs r n => ⟨physWriteBytes_wf h.memory, h.wired, h.random, h.buffer⟩
  unfold sendEntry
  split
  · exact key _ _ _ _
  · dsimp only
    split
    · exact inv_putSLine (key _ _ _ _) _ _
    · exact key _ _ _ _

theorem inv_sendAll {es : List WbEntry} {s : State} (h : Inv s) : Inv (sendAll es s) := by
  induction es generalizing s with
  | nil => exact h
  | cons e es ih => exact ih (inv_sendEntry h e)

theorem inv_drainAll {s : State} (h : Inv s) : Inv (drainAll s) := inv_sendAll (h.setWb writeBufferFits_nil)

theorem writeBufferFits_drop {w : List WbEntry} (h : WriteBufferFits w) (n : Nat) : WriteBufferFits (w.drop n) := by
  refine ⟨by simp only [List.length_drop]; have := h.1; omega, fun hb => ?_⟩
  have hany : w.any isBlock = true := by
    obtain ⟨x, hx, hx'⟩ := List.any_eq_true.1 hb
    exact List.any_eq_true.2 ⟨x, List.mem_of_mem_drop hx, hx'⟩
  have h1 := h.2 hany
  have h0 : (w.drop n).length ≠ 0 := by
    intro e; rw [List.eq_nil_of_length_eq_zero e] at hb; simp at hb
  simp only [List.length_drop] at h0 ⊢; omega

theorem inv_drainSome {s : State} (h : Inv s) (n : Nat) : Inv (drainSome n s) :=
  inv_sendAll (h.setWb (writeBufferFits_drop h.buffer n))

@[simp] theorem sendEntry_wb (e : WbEntry) (s : State) : (sendEntry e s).wb = s.wb := by
  unfold sendEntry; split
  · simp
  · dsimp only; split <;> simp

@[simp] theorem sendAll_wb (es : List WbEntry) (s : State) : (sendAll es s).wb = s.wb := by
  induction es generalizing s with
  | nil => rfl
  | cons e es ih => simp [sendAll, ih]

/-- Sending every entry leaves the buffer empty. -/
@[simp] theorem drainAll_wb (s : State) : (drainAll s).wb = [] := by simp [drainAll]

/-- Sending the oldest entries leaves the rest. -/
@[simp] theorem drainSome_wb (n : Nat) (s : State) : (drainSome n s).wb = s.wb.drop n := by simp [drainSome]

theorem inv_pushSingle {s : State} (h : Inv s) (pa : PAddr) (vi : BitVec 2) (bs : List Byte) : Inv (pushSingle pa vi bs s) := by
  unfold pushSingle
  dsimp only
  split
  · exact (inv_drainAll h).setWb ⟨by simp, by simp⟩
  · rename_i hb
    have hany : s.wb.any isBlock = false := by simpa using hb
    have fits : ∀ w : List WbEntry, w.length ≤ 3 → w.any isBlock = false → WriteBufferFits (w ++ [WbEntry.single pa vi bs]) := by
      intro w hl hw
      refine ⟨by simp; omega, fun hx => ?_⟩
      simp [List.any_append, hw, isBlock] at hx
    split
    · rename_i hl; exact h.setWb (fits _ (by omega) hany)
    · refine (inv_drainSome h 1).setWb (fits _ ?_ ?_)
      · have := h.buffer.1; simp; omega
      · rw [drainSome_wb]
        rw [Bool.eq_false_iff]; intro hx
        obtain ⟨x, hx, hx'⟩ := List.any_eq_true.1 hx
        have : s.wb.any isBlock = true := List.any_eq_true.2 ⟨x, List.mem_of_mem_drop hx, hx'⟩
        rw [this] at hany; cases hany

theorem inv_pushBlock {s : State} (h : Inv s) (pa : PAddr) (vi : BitVec 2) (r e : Bool) (bs : List Byte) (par : BitVec 32) :
    Inv (pushBlock pa vi r e bs par s) := (inv_drainAll h).setWb ⟨by simp, by simp⟩

theorem inv_beforeRead {s : State} (h : Inv s) : Inv (beforeRead s) := by
  unfold beforeRead; split
  · exact inv_drainAll h
  · exact h

/-! ## Reads, refills, and the primitives of loads and stores -/


theorem inv_readUncached {s : State} (h : Inv s) (cp : Cp0) (fetch : Bool) (r : ReadResponse) (pa : PAddr) (vi : BitVec 2)
    (n size : Nat) (checked : BitVec 32) : Res.All Inv (readUncached cp fetch r pa vi n size checked s) := by
  unfold readUncached
  dsimp only
  split
  · trivial
  · split <;> exact inv_addBus (inv_beforeRead h) _

theorem inv_readBlock {s : State} (h : Inv s) (cp : Cp0) (fetch : Bool) (r : ReadResponse) (pa : PAddr) (c : BitVec 3) (vi : BitVec 2)
    (ret : Bool) : Res.All Inv (readBlock cp fetch r pa c vi ret s) := by
  have hb := inv_beforeRead h
  unfold readBlock
  dsimp only
  split
  · split
    · exact inv_putSLine (inv_addBus hb _) _ _
    · exact inv_addBus hb _
  · split
    · trivial
    · split
      · split
        · exact inv_putSLine (inv_addBus hb _) _ _
        · exact inv_addBus hb _
      · split
        · exact inv_putSLine (inv_addBus hb _) _ _
        · exact inv_addBus hb _

theorem inv_writeBack {s : State} (h : Inv s) (l : DLine) (i : Nat) (vi : BitVec 2) (r : Bool) : Inv (writeBack l i vi r s) :=
  inv_pushBlock h _ _ _ _ _ _

theorem inv_writeOut {s : State} (h : Inv s) (l : DLine) (i : Nat) (vi : BitVec 2) : Inv (writeOut l i vi s) := by
  unfold writeOut; split
  · exact inv_writeBack h _ _ _ _
  · exact h

theorem inv_lineGone {s : State} (h : Inv s) (l : DLine) (i : Nat) : Inv (s.lineGone l i) := by
  unfold State.lineGone; split
  · exact inv_breakLink h _
  · exact h

theorem inv_replaceD {s : State} (h : Inv s) (cp : Cp0) (i : Nat) (vi : BitVec 2) (l : DLine) : Res.All Inv (replaceD cp i vi l s) := by
  have ht := fun (d : DSet) (old : DLine) => inv_writeOut (inv_putDSet h i d) old i vi
  unfold replaceD
  dsimp only
  split
  · exact ht _ _
  · exact inv_lineGone (ht _ _) _ _

theorem inv_refillD {s : State} (h : Inv s) (cp : Cp0) (va : Dword) (pa : PAddr) (c : BitVec 3) :
    Res.All Inv (refillD cp va pa c s) := by
  unfold refillD
  dsimp only
  refine Res.all_bind (inv_readBlock h _ _ _ _ _ _ _) fun a t ht => ?_
  cases a with
  | error e => exact inv_writeOut (inv_putDSet ht _ _) _ _ _
  | ok p => exact inv_replaceD ht _ _ _ _

theorem inv_refillI {s : State} (h : Inv s) (cp : Cp0) (fetch : Bool) (r : ReadResponse) (va : Dword) (pa : PAddr) (c : BitVec 3)
    (par : Option (BitVec 8)) : Res.All Inv (refillI cp fetch r va pa c par s) := by
  unfold refillI
  dsimp only
  refine Res.all_bind (inv_readBlock h _ _ _ _ _ _ _) fun a t ht => ?_
  cases a with
  | error e => exact inv_putISet ht _ _
  | ok p => exact inv_putISet ht _ _

theorem inv_loadCached {s : State} (h : Inv s) (cp : Cp0) (va : Dword) (pa : PAddr) (c : BitVec 3) (n : Nat) :
    Res.All Inv (loadCached cp va pa c n s) := by
  unfold loadCached
  dsimp only
  split
  · exact h
  · split
    · split <;> exact h
    · exact Res.all_bind (inv_refillD h _ _ _ _) fun _ _ ht => ht

theorem inv_loadPhys {s : State} (h : Inv s) (va : Dword) (n : Nat) (pa : PAddr) (c : BitVec 3) :
    Res.All Inv (loadPhys va n pa c s) := by
  unfold loadPhys
  dsimp only
  split
  · exact inv_readUncached h _ _ _ _ _ _ _ _
  · exact inv_loadCached h _ _ _ _ _

theorem inv_storeInLine {s : State} (h : Inv s) (cp : Cp0) (i : Nat) (way : Bool) (o : Nat) (dirty : Bool) (bs : List Byte) :
    Inv (storeInLine cp i way o dirty bs s) := inv_putDSet h _ _

theorem inv_storeCached {s : State} (h : Inv s) (cp : Cp0) (va : Dword) (pa : PAddr) (c : BitVec 3) (bs : List Byte) :
    Res.All Inv (storeCached cp va pa c bs s) := by
  have through : ∀ t, Inv t → Inv (if c == 3 then t else pushSingle pa (va.extractLsb' 12 2) bs t) := by
    intro t ht; split
    · exact ht
    · exact inv_pushSingle ht _ _ _
  unfold storeCached
  dsimp only
  split
  · exact h
  · split
    · exact through _ (inv_storeInLine h _ _ _ _ _ _)
    · split
      · exact through _ h
      · exact Res.all_bind (inv_refillD h _ _ _ _) fun _ _ ht => through _ (inv_storeInLine ht _ _ _ _ _ _)

theorem inv_storePhys {s : State} (h : Inv s) (va : Dword) (pa : PAddr) (c : BitVec 3) (bs : List Byte) :
    Res.All Inv (storePhys va pa c bs s) := by
  unfold storePhys
  dsimp only
  refine Res.all_bind ?_ fun _ t ht => inv_addHazard ht _
  split
  · exact inv_pushSingle h _ _ _
  · exact inv_storeCached h _ _ _ _ _

theorem inv_loadValue {s : State} (h : Inv s) (va : Dword) (n : Nat) : Res.All Inv (loadValue va n s) :=
  Look.all_on h fun _ => Res.all_bind (inv_loadPhys h _ _ _ _) fun _ _ ht => ht

theorem inv_storeValue {s : State} (h : Inv s) (va : Dword) (n : Nat) (v : Dword) : Res.All Inv (storeValue va n v s) :=
  Look.all_on h fun _ => inv_storePhys h _ _ _ _

theorem inv_fetchCached {s : State} (h : Inv s) (cp : Cp0) (va : Dword) (pa : PAddr) (c : BitVec 3) :
    Res.All Inv (fetchCached cp va pa c s) := by
  unfold fetchCached
  dsimp only
  split
  · exact h
  · split
    · split <;> exact h
    · exact Res.all_bind (inv_refillI h _ _ _ _ _ _ _) fun _ _ ht => ht

theorem inv_fetchBytes {s : State} (h : Inv s) : Res.All Inv (fetchBytes s) := by
  unfold fetchBytes needAligned
  dsimp only
  split
  · refine Look.all_on h fun p => Res.all_bind ?_ fun _ _ ht => ht
    obtain ⟨pa, c⟩ := p
    dsimp only
    split
    · exact inv_readUncached h _ _ _ _ _ _ _ _
    · exact inv_fetchCached h _ _ _ _
  · exact h

/-! ## Checks -/

theorem all_needCp0 {α : Type} {P : State → Prop} {s : State} {k : Res α} (h : P s) (hk : Res.All P k) : Res.All P (needCp0 s k) := by
  unfold needCp0; split
  · exact hk
  · exact h
theorem all_needCp1 {α : Type} {P : State → Prop} {s : State} {k : Res α} (h : P s) (hk : Res.All P k) : Res.All P (needCp1 s k) := by
  unfold needCp1; split
  · exact hk
  · exact h
theorem all_need64 {α : Type} {P : State → Prop} {s : State} {k : Res α} (h : P s) (hk : Res.All P k) : Res.All P (need64 s k) := by
  unfold need64; split
  · exact hk
  · exact h
theorem all_needMips4 {α : Type} {P : State → Prop} {s : State} {k : Res α} (h : P s) (hk : Res.All P k) :
    Res.All P (needMips4 s k) := by
  unfold needMips4; split
  · exact hk
  · exact h
theorem all_needAligned {α : Type} {P : State → Prop} {n : Nat} {store : Bool} {va : Dword} {s : State} {k : Res α} (h : P s)
    (hk : Res.All P k) : Res.All P (needAligned n store va s k) := by
  unfold needAligned; split
  · exact hk
  · exact h
theorem all_evenFprs {α : Type} {P : State → Prop} {ns : List RegNum} {s : State} {k : Res α} (hk : Res.All P k) :
    Res.All P (evenFprs ns s k) := by
  unfold evenFprs; split
  · trivial
  · exact hk
theorem all_notInSlot {P : State → Prop} {s : State} {k : Res Flow} (hk : Res.All P k) : Res.All P (notInSlot s k) := by
  unfold notInSlot; split
  · trivial
  · exact hk

end Sys2Proof.Machine
end

