-- ==== Sys2Proof/Laws/Access.lean ====
section
/-! SUPPORT. Sys2Proof/Laws/Access.lean: what the operations of Sys2Proof/Machine/Access.lean do: the places of the caches, the write buffer,
and one lemma for each refill and each access to a line. -/

namespace Sys2Proof.Machine

/-! ## Places -/

/-- A place of a cache's list after a write. -/
theorem getAt_putAt {α : Type} (l : List (Nat × α)) (i j : Nat) (v : α) :
    getAt (putAt l i v) j = if j = i then some v else getAt l j := by
  induction l with
  | nil => simp [putAt, getAt]
  | cons p l ih =>
    obtain ⟨k, w⟩ := p
    by_cases h1 : i < k
    · by_cases h2 : j = i <;> simp [putAt, getAt, h1, h2]
    · by_cases h2 : i = k
      · subst h2; by_cases h3 : j = i <;> simp [putAt, getAt, h3]
      · by_cases h3 : j = k
        · subst h3; simp [putAt, getAt, h1, h2, Ne.symm h2]
        · simp [putAt, getAt, h1, h2, h3, ih]

theorem dsetAt_putDSet (s : State) (i j : Nat) (d : DSet) : dsetAt (s.putDSet i d) j = if j = i then d else dsetAt s j := by
  unfold dsetAt; simp only [State.putDSet_dcache, State.putDSet_dcacheRest, getAt_putAt]; split <;> rfl
theorem isetAt_putISet (s : State) (i j : Nat) (d : ISet) : isetAt (s.putISet i d) j = if j = i then d else isetAt s j := by
  unfold isetAt; simp only [State.putISet_icache, State.putISet_icacheRest, getAt_putAt]; split <;> rfl
theorem slineAt_putSLine (s : State) (i j : Nat) (l : SLine) : slineAt (s.putSLine i l) j = if j = i then l else slineAt s j := by
  unfold slineAt; simp only [State.putSLine_scache, State.putSLine_scacheRest, getAt_putAt]; split <;> rfl

/-- The sets of the data cache depend on the cache alone. -/
theorem dsetAt_congr {s t : State} (h : t.dcache = s.dcache) (hr : t.dcacheRest = s.dcacheRest) (j : Nat) : dsetAt t j = dsetAt s j := by
  unfold dsetAt; rw [h, hr]
theorem isetAt_congr {s t : State} (h : t.icache = s.icache) (hr : t.icacheRest = s.icacheRest) (j : Nat) : isetAt t j = isetAt s j := by
  unfold isetAt; rw [h, hr]
theorem slineAt_congr {s t : State} (h : t.scache = s.scache) (hr : t.scacheRest = s.scacheRest) (j : Nat) : slineAt t j = slineAt s j := by
  unfold slineAt; rw [h, hr]

@[simp] theorem dwayOf_dsetWay (d : DSet) (w : Bool) (l : DLine) : dwayOf (dsetWay d w l) w = l := by cases w <;> rfl
@[simp] theorem dwayOf_dsetWay_other (d : DSet) (w : Bool) (l : DLine) : dwayOf (dsetWay d w l) (!w) = dwayOf d (!w) := by cases w <;> rfl
@[simp] theorem dsetWay_fifo (d : DSet) (w : Bool) (l : DLine) : (dsetWay d w l).fifo = d.fifo := by cases w <;> rfl
@[simp] theorem dwayOf_fifo (d : DSet) (b w : Bool) : dwayOf { d with fifo := b } w = dwayOf d w := by cases w <;> rfl

/-- A way put into its set. -/
theorem putDLine_of {i : Nat} {way : Bool} {l : DLine} {d : DSet} {s t : State} (hc : t.dcache = putAt s.dcache i d)
    (hr : t.dcacheRest = s.dcacheRest) (hl : dwayOf d way = l) (ho : dwayOf d (!way) = dwayOf (dsetAt s i) (!way)) :
    PutDLine i way l s t := by
  have h : ∀ j, dsetAt t j = if j = i then d else dsetAt s j := fun j =>
    (dsetAt_congr (s := s.putDSet i d) (by simpa using hc) (by simpa using hr) j).trans (dsetAt_putDSet s i j d)
  exact ⟨by rw [h, if_pos rfl, hl], by rw [h, if_pos rfl, ho], fun j hj => by rw [h, if_neg hj]⟩

/-! ## The write buffer -/

/-- Nothing but memory, the buffer, the secondary cache, the bus and the count of free values differs. -/
def OutsideOnly (s t : State) : Prop :=
  t = { s with mem := t.mem, wb := t.wb, scache := t.scache, bus := t.bus, free := t.free }

theorem OutsideOnly.rfl {s : State} : OutsideOnly s s := Eq.refl _

theorem OutsideOnly.trans {s t u : State} (h : OutsideOnly s t) (g : OutsideOnly t u) : OutsideOnly s u := by
  unfold OutsideOnly at *; rw [h] at g; exact g

theorem outsideOnly_sendEntry (e : WbEntry) (s : State) : OutsideOnly s (sendEntry e s) := by
  unfold sendEntry; split
  · exact Eq.refl _
  · dsimp only; split <;> exact Eq.refl _

theorem outsideOnly_sendAll (es : List WbEntry) (s : State) : OutsideOnly s (sendAll es s) := by
  induction es generalizing s with
  | nil => exact .rfl
  | cons e es ih => exact (outsideOnly_sendEntry e s).trans (ih _)

theorem outsideOnly_setWb (s : State) (w : List WbEntry) : OutsideOnly s (s.setWb w) := Eq.refl _
theorem outsideOnly_drainAll (s : State) : OutsideOnly s (drainAll s) := (outsideOnly_setWb s []).trans (outsideOnly_sendAll _ _)
theorem outsideOnly_drainSome (n : Nat) (s : State) : OutsideOnly s (drainSome n s) :=
  (outsideOnly_setWb s _).trans (outsideOnly_sendAll _ _)
theorem outsideOnly_pushBlock (pa : PAddr) (vi : BitVec 2) (r p : Bool) (bs : List Byte) (par : BitVec 32) (s : State) :
    OutsideOnly s (pushBlock pa vi r p bs par s) := (outsideOnly_drainAll s).trans (outsideOnly_setWb _ _)
theorem outsideOnly_pushSingle (pa : PAddr) (vi : BitVec 2) (bs : List Byte) (s : State) : OutsideOnly s (pushSingle pa vi bs s) := by
  unfold pushSingle; dsimp only
  refine OutsideOnly.trans ?_ (outsideOnly_setWb _ _)
  split
  · exact outsideOnly_drainAll s
  · split
    · exact .rfl
    · exact outsideOnly_drainSome 1 s

/-- Sending is done entry by entry. -/
theorem sendAll_append (es fs : List WbEntry) (s : State) : sendAll (es ++ fs) s = sendAll fs (sendAll es s) := by
  induction es generalizing s with
  | nil => rfl
  | cons e es ih => exact ih _

/-- A line of a write-back page is sent to memory and to the secondary cache, if that is in use. -/
theorem sendEntry_block_into {s : State} {p : Bool} (h : (p && s.boot.scEnable && s.cp0.configSE) = true) (pa : PAddr) (vi : BitVec 2)
    (r : Bool) (bs : List Byte) (par : BitVec 32) :
    sendEntry (.block pa vi r p bs par) s =
      (((s.setMem (physWriteBytes s.physMap s.mem pa.toNat bs)).addBus (.writeBlock pa vi r bs par s.free)).drawn 1).putSLine
        (scacheIndex s.boot pa) { valid := true, tag := scacheTag pa, data := lineOfBytes bs, par := par } := by
  unfold sendEntry; exact if_pos h

/-- Any other line is sent to memory alone. -/
theorem sendEntry_block_past {s : State} {p : Bool} (h : ¬(p && s.boot.scEnable && s.cp0.configSE) = true) (pa : PAddr)
    (vi : BitVec 2) (r : Bool) (bs : List Byte) (par : BitVec 32) :
    sendEntry (.block pa vi r p bs par) s =
      ((s.setMem (physWriteBytes s.physMap s.mem pa.toNat bs)).addBus (.writeBlock pa vi r bs par s.free)).drawn 1 := by
  unfold sendEntry; exact if_neg h

/-- Sending touches no part of the buffer. -/
theorem sendEntry_setWb (e : WbEntry) (w : List WbEntry) (s : State) : sendEntry e (s.setWb w) = (sendEntry e s).setWb w := by
  cases e with
  | single => rfl
  | block pa vi r p bs par =>
    by_cases h : (p && s.boot.scEnable && s.cp0.configSE) = true
    · rw [sendEntry_block_into h, sendEntry_block_into (s := s.setWb w) h]; rfl
    · rw [sendEntry_block_past h, sendEntry_block_past (s := s.setWb w) h]; rfl

theorem sendAll_setWb (es : List WbEntry) (w : List WbEntry) (s : State) : sendAll es (s.setWb w) = (sendAll es s).setWb w := by
  induction es generalizing s with
  | nil => rfl
  | cons e es ih => rw [sendAll, sendAll, sendEntry_setWb, ih]

/-- Draining sends what stands in the buffer. -/
theorem drainAll_setWb (s : State) (w : List WbEntry) : drainAll (s.setWb w) = sendAll w (s.setWb []) := rfl

@[simp] theorem drainAll_setWb_nil (s : State) : (drainAll s).setWb [] = drainAll s := by
  unfold drainAll; rw [sendAll_setWb]; rfl

/-- Nothing is left to send. -/
@[simp] theorem drainAll_drainAll (s : State) : drainAll (drainAll s) = drainAll s := by
  rw [← drainAll_setWb_nil s, drainAll_setWb]
  simp [sendAll]

/-- A buffered line is sent behind everything before it. -/
theorem drainAll_pushBlock (pa : PAddr) (vi : BitVec 2) (r p : Bool) (bs : List Byte) (par : BitVec 32) (s : State) :
    drainAll (pushBlock pa vi r p bs par s) = sendEntry (.block pa vi r p bs par) (drainAll s) := by
  rw [pushBlock, drainAll_setWb, drainAll_setWb_nil, sendAll, sendAll]

/-- Sending the oldest entries first makes no difference. -/
theorem drainAll_drainSome (n : Nat) (s : State) : drainAll (drainSome n s) = drainAll s := by
  rw [drainSome, sendAll_setWb, drainAll_setWb, ← sendAll_setWb, ← sendAll_append, List.take_append_drop]; rfl

/-- A buffered write request is sent behind everything before it. -/
theorem drainAll_pushSingle (pa : PAddr) (vi : BitVec 2) (bs : List Byte) (s : State) :
    drainAll (pushSingle pa vi bs s) = sendEntry (.single pa vi bs) (drainAll s) := by
  have one : ∀ t : State, drainAll (t.setWb (t.wb ++ [.single pa vi bs])) = sendEntry (.single pa vi bs) (drainAll t) := fun t => by
    rw [drainAll_setWb, sendAll_append]; rfl
  unfold pushSingle
  dsimp only
  rw [one]
  split
  · rw [drainAll_drainAll]
  · split
    · rfl
    · rw [drainAll_drainSome]

theorem drainSome_all (s : State) : drainSome s.wb.length s = drainAll s := by
  rw [drainSome, List.take_length, List.drop_length]; rfl

/-- Sending touches no part of the data cache. -/
theorem sendEntry_setDCache (e : WbEntry) (c : List (Nat × DSet)) (s : State) :
    sendEntry e (s.setDCache c) = (sendEntry e s).setDCache c := by
  cases e with
  | single => rfl
  | block pa vi r p bs par =>
    by_cases h : (p && s.boot.scEnable && s.cp0.configSE) = true
    · rw [sendEntry_block_into h, sendEntry_block_into (s := s.setDCache c) h]; rfl
    · rw [sendEntry_block_past h, sendEntry_block_past (s := s.setDCache c) h]; rfl

theorem sendAll_setDCache (es : List WbEntry) (c : List (Nat × DSet)) (s : State) :
    sendAll es (s.setDCache c) = (sendAll es s).setDCache c := by
  induction es generalizing s with
  | nil => rfl
  | cons e es ih => rw [sendAll, sendAll, sendEntry_setDCache, ih]

theorem drainSome_putDSet (n i : Nat) (d : DSet) (s : State) :
    drainSome n (s.putDSet i d) = (drainSome n s).setDCache (putAt s.dcache i d) := by
  unfold State.putDSet drainSome
  exact sendAll_setDCache _ _ (s.setWb (s.wb.drop n))

/-- A write request stands in the buffer behind the earlier ones, of which the oldest may have been sent. -/
theorem buffered_pushSingle (va : Dword) (pa : PAddr) (bs : List Byte) (s : State) :
    Buffered va pa bs s (pushSingle pa (va.extractLsb' 12 2) bs s) := by
  unfold pushSingle
  dsimp only
  split
  · refine ⟨s.wb.length, ?_, ?_⟩
    · rw [← drainSome_all, drainSome_wb]; rfl
    · rw [← drainSome_all]; exact ⟨rfl, fun _ => rfl⟩
  · split
    · exact ⟨0, rfl, rfl, fun _ => rfl⟩
    · refine ⟨1, ?_, rfl, fun _ => rfl⟩
      rw [drainSome_wb]; rfl

/-- What stands in the buffer does not depend on the data cache. -/
theorem buffered_putDSet {va : Dword} {pa : PAddr} {bs : List Byte} {i : Nat} {d : DSet} {s t : State}
    (h : Buffered va pa bs (s.putDSet i d) t) : Buffered va pa bs s t := by
  obtain ⟨n, h1, h2, h3⟩ := h
  rw [drainSome_putDSet] at h2
  simp only [drainSome_putDSet] at h3
  exact ⟨n, h1, h2, h3⟩

/-- What a sent entry leaves in memory. -/
theorem memory_sendEntry {s : State} (hm : Memory.wf s.mem) (e : WbEntry) (pa : PAddr) (bs : List Byte) (hl : bs.length ≤ memSize)
    (he : (sendEntry e s).mem = physWriteBytes s.physMap s.mem pa.toNat bs) :
    (∀ k, (h : k < bs.length) → memRead (sendEntry e s).mem ((pa.toNat + k) % memSize) =
      if kindAt s.physMap ((pa.toNat + k) % memSize) = .memory then bs[k] else memRead s.mem ((pa.toNat + k) % memSize)) ∧
    ∀ a, (∀ k < bs.length, (pa.toNat + k) % memSize ≠ a) → memRead (sendEntry e s).mem a = memRead s.mem a := by
  rw [he]
  exact ⟨fun k h => memRead_physWriteBytes hm hl h, fun a h => memRead_physWriteBytes_other hm h⟩

@[simp] theorem sendEntry_single_mem (pa : PAddr) (vi : BitVec 2) (bs : List Byte) (s : State) :
    (sendEntry (.single pa vi bs) s).mem = physWriteBytes s.physMap s.mem pa.toNat bs := rfl
@[simp] theorem sendEntry_block_mem (pa : PAddr) (vi : BitVec 2) (r p : Bool) (bs : List Byte) (par : BitVec 32) (s : State) :
    (sendEntry (.block pa vi r p bs par) s).mem = physWriteBytes s.physMap s.mem pa.toNat bs := by
  unfold sendEntry; dsimp only; split <;> rfl

/-- A write request changes no line of the secondary cache. -/
theorem slineAt_sendEntry_single (pa : PAddr) (vi : BitVec 2) (bs : List Byte) (s : State) (j : Nat) :
    slineAt (sendEntry (.single pa vi bs) s) j = slineAt s j := rfl

/-- Draining keeps memory in its canonical form. -/
theorem drainAll_mem_wf {s : State} (h : Memory.wf s.mem) : Memory.wf (drainAll s).mem := by
  have : ∀ (es : List WbEntry) (t : State), Memory.wf t.mem → Memory.wf (sendAll es t).mem := by
    intro es
    induction es with
    | nil => exact fun _ h => h
    | cons e es ih =>
      intro t ht
      refine ih _ ?_
      cases e with
      | single => exact physWriteBytes_wf ht
      | block => rw [sendEntry_block_mem]; exact physWriteBytes_wf ht
  exact this _ _ h

theorem OutsideOnly.physMap {s t : State} (h : OutsideOnly s t) : t.physMap = s.physMap := by
  unfold OutsideOnly at h; rw [h]

/-- A write request buffered: memory will hold its bytes. -/
theorem stored_pushSingle {s : State} (hm : Memory.wf s.mem) (pa : PAddr) (vi : BitVec 2) (bs : List Byte) (hl : bs.length ≤ memSize) :
    StoredInMemory pa bs s (pushSingle pa vi bs s) := by
  unfold StoredInMemory sentByte
  rw [drainAll_pushSingle, ← (outsideOnly_drainAll s).physMap]
  exact memory_sendEntry (drainAll_mem_wf hm) _ _ _ hl rfl

@[simp] theorem lineBytes_length (d : BitVec 256) (o n : Nat) : (lineBytes d o n).length = n := by
  induction n generalizing o with
  | zero => rfl
  | succ n ih => simp [lineBytes, ih]

/-- A line written back: memory will hold it. -/
theorem stored_writeBack {s : State} (hm : Memory.wf s.mem) (l : DLine) (i : Nat) (vi : BitVec 2) (r : Bool) :
    StoredInMemory (lineAddress l.tag i) (lineBytes l.data 0 32) s (writeBack l i vi r s) := by
  unfold StoredInMemory sentByte writeBack
  rw [drainAll_pushBlock, ← (outsideOnly_drainAll s).physMap]
  exact memory_sendEntry (drainAll_mem_wf hm) _ _ _ (by simp [memSize]) (by simp)

/-- A line leaves its place. -/
theorem writtenBack_writeOut {s : State} (hm : Memory.wf s.mem) (l : DLine) (i : Nat) (vi : BitVec 2) :
    WrittenBack l i s (writeOut l i vi s) := by
  unfold WrittenBack writeOut
  split
  · exact ⟨stored_writeBack hm _ _ _ _, _, _, rfl⟩
  · exact ⟨rfl, fun _ => rfl⟩

theorem outsideOnly_writeOut (l : DLine) (i : Nat) (vi : BitVec 2) (s : State) : OutsideOnly s (writeOut l i vi s) := by
  unfold writeOut; split
  · exact outsideOnly_pushBlock _ _ _ _ _ _ _
  · exact .rfl

/-! ## Check bits -/

theorem gatherParity_getLsbD (p : BitVec 256) (n : Nat) {k : Nat} (hk : k < 32) :
    (gatherParity p n).getLsbD k = (decide (k < n) && p.getLsbD (8 * k)) := by
  induction n with
  | zero => simp [gatherParity]
  | succ n ih =>
    rw [gatherParity, BitVec.getLsbD_or, ih]
    by_cases h : k = n
    · subst h
      cases hp : p.getLsbD (8 * k) <;> simp [hk]
    · have h1 : decide (k < n + 1) = decide (k < n) := decide_eq_decide.2 (by omega)
      have h2 : (if p.getLsbD (8 * n) then 1#32 <<< n else 0).getLsbD k = false := by
        split
        · simp [BitVec.getLsbD_shiftLeft, BitVec.getLsbD_one]; omega
        · simp
      rw [h1, h2, Bool.or_false]

/-- The check bit of a byte of a line is the byte's even parity (R721). -/
theorem linePar_getLsbD (d : BitVec 256) {k : Nat} (hk : k < 32) : (linePar d).getLsbD k = parityOf (lineByte d k) 8 := by
  unfold linePar
  rw [gatherParity_getLsbD _ _ hk]
  simp only [hk, decide_true, Bool.true_and, foldParity, parityOf, lineByte, BitVec.getLsbD_xor, BitVec.getLsbD_ushiftRight,
    BitVec.getLsbD_extractLsb', Nat.lt_add_one, Nat.reduceLT, Nat.add_zero, Nat.add_comm _ (8 * k)]
  rw [show 2 + (8 * k + 1) = 8 * k + 3 by omega, show 4 + (8 * k + 2) = 8 * k + 6 by omega, show 4 + (8 * k + 1) = 8 * k + 5 by omega,
    show 4 + (8 * k + 3) = 8 * k + 7 by omega]
  generalize d.getLsbD (8 * k) = b0, d.getLsbD (8 * k + 1) = b1, d.getLsbD (8 * k + 2) = b2, d.getLsbD (8 * k + 3) = b3,
    d.getLsbD (8 * k + 4) = b4, d.getLsbD (8 * k + 5) = b5, d.getLsbD (8 * k + 6) = b6, d.getLsbD (8 * k + 7) = b7
  revert b0 b1 b2 b3 b4 b5 b6 b7
  decide

theorem markedWords_getLsbD (p : BitVec 32) (n : Nat) {k : Nat} (hk : k < 8) :
    (markedWords p n).getLsbD k = (decide (k < n) && p.extractLsb' (4 * k) 4 != 0#4) := by
  induction n with
  | zero => simp [markedWords]
  | succ n ih =>
    rw [markedWords, BitVec.getLsbD_or, ih]
    by_cases h : k = n
    · subst h
      cases hp : (p.extractLsb' (4 * k) 4 != 0#4) <;> simp [hk]
    · have h1 : decide (k < n + 1) = decide (k < n) := decide_eq_decide.2 (by omega)
      have h2 : (if p.extractLsb' (4 * n) 4 != 0#4 then 1#8 <<< n else 0).getLsbD k = false := by
        split
        · simp [BitVec.getLsbD_shiftLeft, BitVec.getLsbD_one]; omega
        · simp
      rw [h1, h2, Bool.or_false]

/-- A word brought in with a wrong check bit on any of its bytes raises a parity error when it is fetched (R721). -/
theorem badWord_fetchPar (l : ILine) (p : BitVec 32) {k : Nat} (hk : k < 8) :
    badWord { l with par := fetchPar l.data p } k = ((badBytes l.data p).extractLsb' (4 * k) 4 != 0#4) := by
  unfold badWord fetchPar
  rw [← BitVec.xor_assoc, BitVec.xor_self, BitVec.zero_xor, markedWords_getLsbD _ _ hk]
  simp [hk]

/-- Good check bits give the words' own parity. -/
@[simp] theorem fetchPar_linePar (d : BitVec 256) : fetchPar d (linePar d) = wordPar (linePar d) 8 := by
  unfold fetchPar badBytes
  rw [BitVec.xor_self, show markedWords 0#32 8 = 0#8 by decide, BitVec.xor_zero]

theorem byteMask_getLsbD (o n : Nat) {k : Nat} (hk : k < 32) : (byteMask o n).getLsbD k = decide (o ≤ k ∧ k < o + n) := by
  unfold byteMask
  rw [BitVec.getLsbD_shiftLeft, BitVec.getLsbD_ofNat, Nat.testBit_two_pow_sub_one]
  by_cases h : o ≤ k
  · simp [h, hk, show k - o < 32 by omega, show ¬k < o by omega]; omega
  · simp [h, show k < o by omega]

/-- The check bits of a store that stays in its doubleword. -/
theorem storedPar_storePar (bigEndian : Bool) (cp : Cp0) (o n : Nat) (old new : DLine) (h : o % 8 + n ≤ 8)
    (hp : new.par = storePar bigEndian cp o n new.data old.par) : StoredPar bigEndian cp o n old new := by
  intro k hk
  unfold storePar at hp
  rw [hp]
  simp only [BitVec.getLsbD_or, BitVec.getLsbD_and, BitVec.getLsbD_not, byteMask_getLsbD o n hk, hk, decide_true, Bool.true_and]
  by_cases hr : o ≤ k ∧ k < o + n
  · rw [if_pos hr, decide_eq_true hr]
    simp only [Bool.not_true, Bool.and_false, Bool.false_or, Bool.and_true]
    by_cases hc : cp.status.ce = true
    · have h8 : k - 8 * (o / 8) = k % 8 := by omega
      have hn : ¬k < 8 * (o / 8) := by omega
      rw [if_pos hc, if_pos hc, BitVec.getLsbD_shiftLeft, h8, BitVec.getLsbD_setWidth, laneOrder]
      cases bigEndian with
      | false => simp [hk, hn, show k % 8 < 32 by omega]
      | true =>
        rw [if_pos rfl, if_pos rfl, BitVec.getLsbD_reverse, BitVec.getMsbD]
        simp [hk, hn, show k % 8 < 32 by omega, show k % 8 < 8 by omega]
    · rw [if_neg hc, if_neg hc, linePar_getLsbD _ hk]
  · rw [if_neg hr, decide_eq_false hr]
    simp

/-! ## Reads -/

/-- Nothing but the memory side and LLbit differs: memory, the buffer, the caches, the bus, the count of free values. -/
def MemorySide (s t : State) : Prop :=
  t = { s with
    mem := t.mem, wb := t.wb, scache := t.scache, bus := t.bus, free := t.free, dcache := t.dcache, icache := t.icache, llBit := t.llBit }

theorem MemorySide.trans {s t u : State} (h : MemorySide s t) (g : MemorySide t u) : MemorySide s u := by
  unfold MemorySide at *; rw [h] at g; exact g

theorem OutsideOnly.memorySide {s t : State} (h : OutsideOnly s t) : MemorySide s t := by
  unfold OutsideOnly at h; unfold MemorySide; rw [h]

theorem beforeRead_eq (s : State) : beforeRead s = drainAll s := rfl

/-- Good data raises nothing. -/
theorem responseError_good {cp : Cp0} {fetch : Bool} {r : ReadResponse} {checked : BitVec 32} (h : GoodAnswer r) :
    responseError cp fetch r checked = none := by
  obtain ⟨h1, h2, _⟩ := h
  simp [responseError, h1, h2]

/-- A block read that is answered: the line, and what it leaves. -/
theorem readBlock_answered {s : State} {pa : PAddr} {c : BitVec 3} {d : LineData} (h : BlockAnswered s pa c d) (fetch : Bool)
    (vi : BitVec 2) (ret : Bool) :
    ∃ t, readBlock (seen .data s).cp0 fetch s.inp.dataResponse pa c vi ret s = .ok (.ok d) t ∧ OutsideOnly s t ∧
      t.wb = [] ∧ t.mem = (drainAll s).mem ∧ SecondaryFilled pa c d s t := by
  have hd := outsideOnly_drainAll s
  have hb : ∀ r, OutsideOnly s ((drainAll s).addBus r) := fun r => hd.trans (Eq.refl _)
  have hmap : (drainAll s).physMap = s.physMap := hd.physMap
  unfold BlockAnswered at h
  unfold readBlock
  dsimp only at h ⊢
  rw [beforeRead_eq]
  by_cases hu : scacheInUse s (seen .data s).cp0 c = true ∧ (slineAt (drainAll s) (scacheIndex s.boot pa)).valid = true ∧
      (slineAt (drainAll s) (scacheIndex s.boot pa)).tag = scacheTag pa
  · rw [if_pos hu] at h
    obtain ⟨rfl, hg⟩ := h
    obtain ⟨u1, u2, u3⟩ := hu
    have hin : (scacheInUse s (seen .data s).cp0 c && (slineAt (drainAll s) (scacheIndex s.boot pa)).valid &&
        (slineAt (drainAll s) (scacheIndex s.boot pa)).tag == scacheTag pa) = true := by simp [u1, u2, u3]
    rw [if_pos hin]
    refine ⟨_, if_neg (by simp [hg]), hb _, by simp, by simp, fun j => ?_⟩
    split
    · rename_i hj
      rw [hj.2, ← u2, ← u3]; rfl
    · rfl
  · rw [if_neg hu] at h
    obtain ⟨d1, d2⟩ := d
    obtain ⟨hg, h1, h2⟩ := h
    dsimp only at h1 h2
    subst h1 h2
    have hin : ¬(scacheInUse s (seen .data s).cp0 c && (slineAt (drainAll s) (scacheIndex s.boot pa)).valid &&
        (slineAt (drainAll s) (scacheIndex s.boot pa)).tag == scacheTag pa) = true := fun e => hu (by simpa [and_assoc] using e)
    rw [if_neg hin, if_neg (show ¬s.inp.dataResponse.unanswered = true by simp [hg.2.2])]
    simp only [responseError_good hg]
    have he : memoryLine ((drainAll s).addBus (.readBlock pa vi ret false)) s.inp.dataResponse (lineOf pa) =
        (lineOfBytes (answerBytes s (lineOf pa) 32), linePar (lineOfBytes (answerBytes s (lineOf pa) 32))) := by
      simp [memoryLine, answerBytes, hmap, hg.2.1]
    rw [he]
    by_cases hs : scacheInUse s (seen .data s).cp0 c = true
    · simp only [if_pos hs]
      refine ⟨_, rfl, (hb _).trans (Eq.refl _), by simp, by simp, fun j => ?_⟩
      rw [slineAt_putSLine]
      by_cases hj : j = scacheIndex s.boot pa
      · simp [hs, hj]
      · simp only [if_neg hj, if_neg (fun x : _ ∧ _ => hj x.2)]; rfl
    · simp only [if_neg hs]
      refine ⟨_, rfl, hb _, by simp, by simp, fun j => ?_⟩
      simp only [if_neg (fun x : _ ∧ _ => hs x.1)]; rfl

/-- The link behind a line that leaves. -/
theorem linkBroken_lineGone (s : State) (l : DLine) (i : Nat) : LinkBroken l i s (s.lineGone l i) := by
  unfold LinkBroken State.lineGone State.breakLink
  by_cases hv : dvalid l = true
  · by_cases hl : lineOf s.linkAddr == lineAddress l.tag i
    · simp [hv, hl]
    · simp [hv, hl]
  · simp [hv]

theorem memorySide_lineGone (s : State) (l : DLine) (i : Nat) : MemorySide s (s.lineGone l i) := by
  unfold State.lineGone State.breakLink MemorySide
  split
  · split <;> rfl
  · rfl

theorem lineGone_eq (s : State) (l : DLine) (i : Nat) : s.lineGone l i = s.setLlBit (s.lineGone l i).llBit := by
  unfold State.lineGone State.breakLink
  split
  · split <;> rfl
  · rfl

/-- The tag parity that a refill and a store write is right. -/
@[simp] theorem dtagBad_dtagged (l : DLine) : dtagBad (dtagged l) = false := by simp [dtagBad, dtagged]
@[simp] theorem itagBad_itagged (l : ILine) : itagBad (itagged l) = false := by simp [itagBad, itagged]

/-- What is sent to memory depends on memory, the physical map and the buffer alone. -/
theorem mem_sendAll_congr {es : List WbEntry} {s t : State} (hm : t.mem = s.mem) (hp : t.physMap = s.physMap) :
    (sendAll es t).mem = (sendAll es s).mem := by
  induction es generalizing s t with
  | nil => exact hm
  | cons e es ih =>
    refine ih ?_ ((outsideOnly_sendEntry e t).physMap.trans (hp.trans (outsideOnly_sendEntry e s).physMap.symm))
    cases e with
    | single => simp [hm, hp]
    | block => simp [hm, hp]

/-- What is sent to the secondary cache depends on that cache, the boot mode, CP0 and the buffer alone. -/
theorem scache_sendAll_congr {es : List WbEntry} {s t : State} (hs : t.scache = s.scache) (hb : t.boot = s.boot) (hc : t.cp0 = s.cp0) :
    (sendAll es t).scache = (sendAll es s).scache := by
  induction es generalizing s t with
  | nil => exact hs
  | cons e es ih =>
    refine ih ?_ (by rw [outsideOnly_sendEntry e t, outsideOnly_sendEntry e s]; exact hb)
      (by rw [outsideOnly_sendEntry e t, outsideOnly_sendEntry e s]; exact hc)
    cases e with
    | single => exact hs
    | block pa vi r p bs par =>
      by_cases h : (p && s.boot.scEnable && s.cp0.configSE) = true
      · rw [sendEntry_block_into h, sendEntry_block_into (s := t) (by rw [hb, hc]; exact h)]; simp [hs, hb]
      · rw [sendEntry_block_past h, sendEntry_block_past (s := t) (by rw [hb, hc]; exact h)]; exact hs

/-- The secondary cache once everything is sent. -/
theorem slineAt_drainAll_congr {s t : State} (hs : t.scache = s.scache) (hr : t.scacheRest = s.scacheRest) (hb : t.boot = s.boot)
    (hc : t.cp0 = s.cp0) (hw : t.wb = s.wb) (j : Nat) : slineAt (drainAll t) j = slineAt (drainAll s) j := by
  refine slineAt_congr ?_ (by rw [outsideOnly_drainAll t, outsideOnly_drainAll s]; exact hr) j
  unfold drainAll
  rw [hw]; exact scache_sendAll_congr hs hb hc

theorem sentByte_congr {s t : State} (hm : t.mem = s.mem) (hp : t.physMap = s.physMap) (hw : t.wb = s.wb) (a : Nat) :
    sentByte t a = sentByte s a := by
  unfold sentByte drainAll
  rw [hw, mem_sendAll_congr (s := s.setWb []) (by simpa using hm) (by simpa using hp)]

theorem writtenBack_congr {l : DLine} {i : Nat} {s s' t t' : State} (h : WrittenBack l i s t) (sm : s'.mem = s.mem)
    (sp : s'.physMap = s.physMap) (sw : s'.wb = s.wb) (tm : t'.mem = t.mem) (tp : t'.physMap = t.physMap) (tw : t'.wb = t.wb) :
    WrittenBack l i s' t' := by
  unfold WrittenBack at *
  split
  · rename_i hd
    rw [if_pos hd] at h
    obtain ⟨⟨h1, h2⟩, vi, r, h3⟩ := h
    refine ⟨⟨fun k hk => ?_, fun a ha => ?_⟩, vi, r, tw.trans h3⟩
    · rw [sentByte_congr tm tp tw, sentByte_congr sm sp sw, sp]; exact h1 k hk
    · rw [sentByte_congr tm tp tw, sentByte_congr sm sp sw]; exact h2 a ha
  · rename_i hd
    rw [if_neg hd] at h
    exact ⟨tw.trans (h.1.trans sw.symm), fun a => by rw [tm, sm]; exact h.2 a⟩

/-- With nothing buffered a line that leaves changes no line of the secondary cache yet. -/
theorem writeOut_scache {s : State} (h : s.wb = []) (l : DLine) (i : Nat) (vi : BitVec 2) : (writeOut l i vi s).scache = s.scache := by
  unfold writeOut writeBack pushBlock drainAll
  rw [h]; split <;> rfl

/-- A line that leaves keeps memory in its canonical form. -/
theorem writeOut_mem_wf {s : State} (h : Memory.wf s.mem) (l : DLine) (i : Nat) (vi : BitVec 2) : Memory.wf (writeOut l i vi s).mem := by
  unfold writeOut; split
  · exact drainAll_mem_wf h
  · exact h

/-- A refill that is answered, over a line that is not modified with wrong parity. -/
theorem refillD_filled {s : State} (hm : Memory.wf s.mem) {va : Dword} {pa : PAddr} {c : BitVec 3} {old : DLine} {d : LineData}
    (hv : Victim s va old) (hd : BlockAnswered s pa c d) :
    ∃ t, refillD (seen .data s).cp0 va pa c s = .ok (dsetAt s (setIndex va)).fifo t ∧ MemorySide s t ∧ LineFilled va pa c old d s t ∧
      LinkBroken old (setIndex va) s t ∧ Memory.wf t.mem := by
  obtain ⟨u, hr, hu, hwb, hmem, hsec⟩ := readBlock_answered hd false (va.extractLsb' 12 2) false
  obtain ⟨ho, hp⟩ := hv
  have hset : ∀ j, dsetAt u j = dsetAt s j := dsetAt_congr (by rw [hu]) (by rw [hu])
  have hvic : victimError (seen .data s).cp0 old = none := by
    unfold victimError writebackError
    by_cases hx : (dvalid old && old.w) = true
    · simp [hx, hp hx]
    · simp [hx]
  unfold refillD
  simp only [hr, Res.bind_ok, replaceD, hset, ← ho, hvic]
  generalize hn : dtagged { dlineInvalid with state := 3, tag := primaryTag pa, data := d.1, par := d.2, wbPage := c == 3 } = new
  generalize hD : ({ dsetWay (dsetAt s (setIndex va)) (dsetAt s (setIndex va)).fifo new with
    fifo := !(dsetAt s (setIndex va)).fifo } : DSet) = D
  have hDw : dwayOf D (dsetAt s (setIndex va)).fifo = new := by subst hD; simp
  have hDo : dwayOf D (!(dsetAt s (setIndex va)).fifo) = dwayOf (dsetAt s (setIndex va)) (!(dsetAt s (setIndex va)).fifo) := by
    subst hD; simp
  have hDf : D.fifo = !(dsetAt s (setIndex va)).fifo := by subst hD; rfl
  generalize hw : u.putDSet (setIndex va) D = w
  have hwu : MemorySide u w := by subst hw; exact Eq.refl _
  have hwm : w.mem = (drainAll s).mem := by subst hw; exact hmem
  have hww : w.wb = [] := by subst hw; exact hwb
  have hout := outsideOnly_writeOut old (setIndex va) (va.extractLsb' 12 2) w
  have hback := writtenBack_writeOut (s := w) (hwm ▸ drainAll_mem_wf hm) old (setIndex va) (va.extractLsb' 12 2)
  have hwf := writeOut_mem_wf (hwm ▸ drainAll_mem_wf hm : Memory.wf w.mem) old (setIndex va) (va.extractLsb' 12 2)
  have hws := writeOut_scache hww old (setIndex va) (va.extractLsb' 12 2)
  generalize writeOut old (setIndex va) (va.extractLsb' 12 2) w = x at *
  have hside : MemorySide s x := (hu.memorySide.trans hwu).trans hout.memorySide
  have hgone := lineGone_eq x old (setIndex va)
  have hxd : x.dcache = putAt s.dcache (setIndex va) D := by
    rw [hout]; subst hw; simp only [State.putDSet_dcache]; rw [hu]
  have hxs : x.scache = u.scache := by rw [hws]; subst hw; rfl
  have hxi : x.icache = s.icache := by rw [hout]; subst hw; simp only [State.putDSet_icache]; rw [hu]
  have hput : PutDLine (setIndex va) (dsetAt s (setIndex va)).fifo new s (x.lineGone old (setIndex va)) := by
    refine putDLine_of (d := D) ?_ ?_ hDw hDo
    · rw [hgone]; exact hxd
    · rw [hgone]; exact (show x = _ from hside) ▸ rfl
  refine ⟨_, rfl, hside.trans (memorySide_lineGone _ _ _), ⟨⟨new, ?_⟩, ?_, ?_, ?_, ?_, ?_⟩, ?_, by rw [hgone]; exact hwf⟩
  · subst hn; exact ⟨rfl, rfl, rfl, rfl, rfl, dtagBad_dtagged _, hput⟩
  · rw [dsetAt_congr (s := s.putDSet (setIndex va) D) (by rw [hgone]; exact hxd) (by rw [hgone]; exact (show x = _ from hside) ▸ rfl),
      dsetAt_putDSet, if_pos rfl, hDf]
  · refine writtenBack_congr hback hwm.symm ?_ (by simp [hww]) (by rw [hgone]; rfl) (by rw [hgone]; rfl) (by rw [hgone]; rfl)
    rw [(outsideOnly_drainAll s).physMap]; subst hw; exact hu.physMap.symm
  · intro j
    rw [hgone, ← hsec j]
    exact slineAt_congr hxs (by rw [hside, hu]) j
  · intro j
    exact isetAt_congr (by rw [hgone]; exact hxi) (by rw [hgone, hside]; rfl) j
  · rw [hgone]; exact ⟨by rw [hside]; rfl, by rw [hside]; rfl⟩
  · have hl := linkBroken_lineGone x old (setIndex va)
    have hx : x.llBit = s.llBit ∧ x.linkAddr = s.linkAddr ∧ x.linkKnown = s.linkKnown := by
      rw [hout]; subst hw; rw [hu]; exact ⟨rfl, rfl, rfl⟩
    unfold LinkBroken at hl ⊢
    rwa [hx.1, hx.2.1, hx.2.2] at hl

/-! ## Loads and stores -/

/-- Outside reverse-endian mode the bytes lie at the address that translation gives. -/
theorem placeOf_plain {s : State} (h : PlainOrder s) (n : Nat) (pa : PAddr) : placeOf s n pa = pa := by
  unfold PlainOrder at h; simp [placeOf, mirrored, h]

theorem dataAddress_plain {s : State} (h : PlainOrder s) (kind : AccessKind) (n : Nat) (va : Dword) :
    dataAddress s kind n va = translate (seen .data s) kind va := by
  unfold dataAddress; split <;> simp_all [placeOf_plain h]

/-- A tag that is right raises nothing. -/
theorem tagParity_none {cp : Cp0} {fetch : Bool} {r : ReadResponse} {bad : Bool} (h : r.tagError = false) (hb : bad = false) :
    tagParity cp fetch r bad = none := by simp [tagParity, h, hb]

/-- A cached load that hits. -/
theorem loadCached_hit {s : State} {va : Dword} {pa : PAddr} {c : BitVec 3} {n : Nat} {way : Bool} {l : DLine}
    (h : LineHeld s va pa way l) :
    loadCached (seen .data s).cp0 va pa c n s = .ok (lineBytes l.data (lineOffset pa) n) s := by
  obtain ⟨ht, hb, hh, rfl, hp⟩ := h
  simp [loadCached, tagParity_none ht hb, hh, hp]

/-- A cached load that misses. -/
theorem loadCached_miss {s : State} (hm : Memory.wf s.mem) {va : Dword} {pa : PAddr} {c : BitVec 3} {n : Nat} {old : DLine}
    {d : LineData} (h : NoLine s va pa) (hv : Victim s va old) (hd : BlockAnswered s pa c d) :
    ∃ t, loadCached (seen .data s).cp0 va pa c n s = .ok (lineBytes d.1 (lineOffset pa) n) t ∧ MemorySide s t ∧
      LineFilled va pa c old d s t ∧ LinkBroken old (setIndex va) s t := by
  obtain ⟨ht, hb, hh⟩ := h
  obtain ⟨t, hr, hs, hf, hl, _⟩ := refillD_filled hm hv hd
  obtain ⟨l, hl1, _, _, _, _, _, hput⟩ := hf.line
  refine ⟨t, ?_, hs, hf, hl⟩
  simp [loadCached, tagParity_none ht hb, hh, hr, hput.line, hl1]

theorem memorySide_pushSingle (pa : PAddr) (vi : BitVec 2) (bs : List Byte) (s : State) : MemorySide s (pushSingle pa vi bs s) :=
  (outsideOnly_pushSingle pa vi bs s).memorySide

/-- The byte of a line after one of its bytes is replaced. -/
theorem lineByte_setLineByte (d : BitVec 256) {j k : Nat} (b : Byte) (hj : j < 32) (hk : k < 32) :
    lineByte (setLineByte d k b) j = if j = k then b else lineByte d j := by
  have hff : ∀ x, (0xFF#256).getLsbD x = decide (x < 8) := fun x => by
    rw [show (0xFF#256) = (BitVec.allOnes 8).setWidth 256 by decide, BitVec.getLsbD_setWidth, BitVec.getLsbD_allOnes]
    by_cases hx : x < 8
    · simp [hx]; omega
    · simp [hx]
  apply BitVec.eq_of_getLsbD_eq
  intro i hi
  have h1 : 8 * j + i < 256 := by omega
  unfold lineByte setLineByte
  rw [BitVec.getLsbD_extractLsb', BitVec.getLsbD_or, BitVec.getLsbD_and, BitVec.getLsbD_not, BitVec.getLsbD_shiftLeft,
    BitVec.getLsbD_shiftLeft, hff, BitVec.getLsbD_setWidth]
  by_cases h : j = k
  · subst h
    rw [if_pos rfl]
    simp [hi, h1, show ¬(8 * j + i < 8 * j) by omega, show 8 * j + i - 8 * j = i by omega, show i < 256 by omega]
  · rw [if_neg h, BitVec.getLsbD_extractLsb']
    by_cases hlt : 8 * j + i < 8 * k
    · simp [hi, h1, hlt]
    · have : ¬(8 * j + i - 8 * k < 8) := by omega
      simp [hi, h1, hlt, this, BitVec.getLsbD_of_ge b _ (Nat.le_of_not_lt this)]

/-- A line after the bytes from an offset on are replaced. -/
theorem storedInLine_setLineBytes (d : BitVec 256) (o : Nat) (bs : List Byte) (h : o + bs.length ≤ 32) :
    StoredInLine o bs d (setLineBytes d o bs) := by
  induction bs generalizing d o with
  | nil => exact ⟨fun k hk => absurd hk (by simp), fun _ _ _ => rfl⟩
  | cons b bs ih =>
    simp only [List.length_cons] at h
    obtain ⟨h1, h2⟩ := ih (setLineByte d o b) (o + 1) (by omega)
    refine ⟨fun k hk => ?_, fun k hk ho => ?_⟩
    · cases k with
      | zero =>
        refine (h2 o (by omega) (.inl (by omega))).trans ?_
        rw [lineByte_setLineByte d b (by omega) (by omega), if_pos rfl]; rfl
      | succ k =>
        have := h1 k (by simpa using hk)
        rwa [show o + 1 + k = o + (k + 1) by omega] at this
    · simp only [List.length_cons] at ho
      refine (h2 k hk (by omega)).trans ?_
      rw [lineByte_setLineByte d b hk (by omega), if_neg (by omega)]

theorem storedInMemory_congr {pa : PAddr} {bs : List Byte} {s s' t t' : State} (h : StoredInMemory pa bs s t) (sm : s'.mem = s.mem)
    (sp : s'.physMap = s.physMap) (sw : s'.wb = s.wb) (tm : t'.mem = t.mem) (tp : t'.physMap = t.physMap) (tw : t'.wb = t.wb) :
    StoredInMemory pa bs s' t' := by
  obtain ⟨h1, h2⟩ := h
  refine ⟨fun k hk => ?_, fun a ha => ?_⟩
  · rw [sentByte_congr tm tp tw, sentByte_congr sm sp sw, sp]; exact h1 k hk
  · rw [sentByte_congr tm tp tw, sentByte_congr sm sp sw]; exact h2 a ha

/-- A store into a line, and to memory too unless it is a write-back store. -/
theorem storedHeld_storeInLine {s : State} (hm : Memory.wf s.mem) (cp : Cp0) (va : Dword) (pa : PAddr) (c : BitVec 3) (way : Bool)
    (bs : List Byte) (hl : lineOffset pa % 8 + bs.length ≤ 8) :
    let u := storeInLine cp (setIndex va) way (lineOffset pa) (c == 3) bs s
    let t := if c == 3 then u else pushSingle pa (va.extractLsb' 12 2) bs u
    MemorySide s t ∧ StoredHeld cp va pa c way bs s t ∧ t.llBit = s.llBit := by
  intro u t
  have ho : lineOffset pa < 32 := (pa.extractLsb' 0 5).isLt
  have hu : ∃ D, u = s.putDSet (setIndex va) (dsetWay (dsetAt s (setIndex va)) way D) ∧ D.state = 3 ∧
      D.tag = (dwayOf (dsetAt s (setIndex va)) way).tag ∧ D.w = ((dwayOf (dsetAt s (setIndex va)) way).w || c == 3) ∧
      StoredInLine (lineOffset pa) bs (dwayOf (dsetAt s (setIndex va)) way).data D.data ∧
      StoredPar s.boot.bigEndianMem cp (lineOffset pa) bs.length (dwayOf (dsetAt s (setIndex va)) way) D ∧ dtagBad D = false :=
    ⟨_, rfl, rfl, rfl, rfl, storedInLine_setLineBytes _ _ _ (by omega), storedPar_storePar _ _ _ _ _ _ hl rfl, dtagBad_dtagged _⟩
  clear_value u
  obtain ⟨D, rfl, h1, h2, h3, h4, h5, h6⟩ := hu
  have hside : MemorySide s (s.putDSet (setIndex va) (dsetWay (dsetAt s (setIndex va)) way D)) := Eq.refl _
  have hput : ∀ x, x.dcache = putAt s.dcache (setIndex va) (dsetWay (dsetAt s (setIndex va)) way D) → x.dcacheRest = s.dcacheRest →
      OnlyDLine (setIndex va) way D s x := fun x hx hr =>
    ⟨putDLine_of hx hr (by simp) (by simp), by
      rw [dsetAt_congr (s := s.putDSet (setIndex va) (dsetWay (dsetAt s (setIndex va)) way D)) hx hr, dsetAt_putDSet, if_pos rfl,
        dsetWay_fifo]⟩
  by_cases hc : c = 3
  · have ht : t = s.putDSet (setIndex va) (dsetWay (dsetAt s (setIndex va)) way D) := if_pos (beq_iff_eq.2 hc)
    rw [ht]
    have p := hput (s.putDSet (setIndex va) (dsetWay (dsetAt s (setIndex va)) way D)) rfl rfl
    refine ⟨hside, ⟨D, p, h4, h5, h1, h2, h6, fun _ => rfl, ?_⟩, rfl⟩
    rw [if_pos hc]
    exact ⟨by rw [h3, beq_iff_eq.2 hc, Bool.or_true], ⟨rfl, fun _ => rfl⟩, fun _ => rfl⟩
  · have ht : t = pushSingle pa (va.extractLsb' 12 2) bs (s.putDSet (setIndex va) (dsetWay (dsetAt s (setIndex va)) way D)) :=
      if_neg fun e => hc (beq_iff_eq.1 e)
    rw [ht]
    have hs := outsideOnly_pushSingle pa (va.extractLsb' 12 2) bs (s.putDSet (setIndex va) (dsetWay (dsetAt s (setIndex va)) way D))
    have hst := stored_pushSingle (s := s.putDSet (setIndex va) (dsetWay (dsetAt s (setIndex va)) way D)) hm pa (va.extractLsb' 12 2) bs
      (by simp only [memSize]; omega)
    have hdr := drainAll_pushSingle pa (va.extractLsb' 12 2) bs (s.putDSet (setIndex va) (dsetWay (dsetAt s (setIndex va)) way D))
    have hbf := buffered_putDSet (buffered_pushSingle va pa bs (s.putDSet (setIndex va) (dsetWay (dsetAt s (setIndex va)) way D)))
    generalize pushSingle pa (va.extractLsb' 12 2) bs (s.putDSet (setIndex va) (dsetWay (dsetAt s (setIndex va)) way D)) = x at *
    have p := hput x (by rw [hs]; rfl) (by rw [hs]; rfl)
    refine ⟨hside.trans hs.memorySide, ⟨D, p, h4, h5, h1, h2, h6, fun j => isetAt_congr (by rw [hs]; rfl) (by rw [hs]; rfl) j, ?_⟩,
      by rw [hs]; rfl⟩
    rw [if_neg hc]
    refine ⟨by rw [h3, beq_eq_false_iff_ne.2 hc, Bool.or_false], hbf, storedInMemory_congr hst rfl rfl rfl rfl rfl rfl, fun j => ?_⟩
    rw [hdr, slineAt_sendEntry_single]
    exact slineAt_drainAll_congr (s := s) (t := s.putDSet (setIndex va) (dsetWay (dsetAt s (setIndex va)) way D)) rfl rfl rfl rfl rfl j

/-- A cached store that hits. -/
theorem storeCached_hit {s : State} (hm : Memory.wf s.mem) {va : Dword} {pa : PAddr} {c : BitVec 3} {way : Bool} {bs : List Byte}
    (ht : s.inp.dataResponse.tagError = false) (hb : dsetBad (dsetAt s (setIndex va)) = false)
    (hh : dhit (dsetAt s (setIndex va)) (primaryTag pa) = some way) (hl : lineOffset pa % 8 + bs.length ≤ 8) :
    ∃ t, storeCached (seen .data s).cp0 va pa c bs s = .ok () t ∧ MemorySide s t ∧ StoredHeld (seen .data s).cp0 va pa c way bs s t ∧
      t.llBit = s.llBit := by
  have h := storedHeld_storeInLine hm (seen .data s).cp0 va pa c way bs hl
  refine ⟨_, ?_, h⟩
  simp only [storeCached, tagParity_none ht hb, hh]

/-- A cached store that misses and brings the line in. -/
theorem storeCached_miss {s : State} (hm : Memory.wf s.mem) {va : Dword} {pa : PAddr} {c : BitVec 3} {old : DLine} {d : LineData}
    {bs : List Byte} (h : NoLine s va pa) (hv : Victim s va old) (hd : BlockAnswered s pa c d) (hc : c ≠ 0)
    (hl : lineOffset pa % 8 + bs.length ≤ 8) :
    ∃ t u, storeCached (seen .data s).cp0 va pa c bs s = .ok () t ∧ MemorySide s t ∧ MemorySide s u ∧ LineFilled va pa c old d s u ∧
      StoredHeld (seen .data s).cp0 va pa c (dsetAt s (setIndex va)).fifo bs u t ∧ LinkBroken old (setIndex va) s t := by
  obtain ⟨ht, hb, hh⟩ := h
  obtain ⟨u, hr, hs, hf, hlk, hwf⟩ := refillD_filled hm hv hd
  have h := storedHeld_storeInLine hwf (seen .data s).cp0 va pa c (dsetAt s (setIndex va)).fifo bs hl
  refine ⟨_, u, ?_, hs.trans h.1, hs, hf, h.2.1, ?_⟩
  · simp only [storeCached, tagParity_none ht hb, hh, if_neg (show ¬(c == 0) = true by simpa using hc), hr, Res.bind_ok]
  · obtain ⟨l1, l2, l3⟩ := hlk
    refine ⟨?_, ?_, h.2.2.trans l3⟩
    · exact (show _ = _ from congrArg State.linkAddr h.1).trans l1
    · exact (show _ = _ from congrArg State.linkKnown h.1).trans l2

/-- A cached store that misses with attribute 0 goes to memory alone. -/
theorem storeCached_past {s : State} {va : Dword} {pa : PAddr} {bs : List Byte} (h : NoLine s va pa) :
    storeCached (seen .data s).cp0 va pa 0 bs s = .ok () (pushSingle pa (va.extractLsb' 12 2) bs s) := by
  obtain ⟨ht, hb, hh⟩ := h
  simp [storeCached, tagParity_none ht hb, hh]

/-- An uncached read answered with good data. -/
theorem readUncached_answered {s : State} (h : GoodAnswer s.inp.dataResponse) (cp : Cp0) (pa : PAddr) (vi : BitVec 2) (n size : Nat)
    (checked : BitVec 32) :
    readUncached cp false s.inp.dataResponse pa vi n size checked s =
      .ok (answerBytes s pa n) ((drainAll s).addBus (.read pa vi size)) := by
  unfold readUncached
  simp [responseError_good h, h.2.2, beforeRead_eq, answerBytes, (outsideOnly_drainAll s).physMap]

end Sys2Proof.Machine
end

