-- ==== Sys2Proof/Laws/Encoding.lean ====
section
/-! SUPPORT. Sys2Proof/Laws/Encoding.lean: the fields of an encoded word are the fields it was made of (spec/30_encoding.md R221), and a
word is made of its fields. -/

namespace Sys2Proof

@[simp] theorem opOf_mkI (op : BitVec 6) (rs : BitVec 5) (rt : BitVec 5) (imm : BitVec 16) : opOf (mkI op rs rt imm) = op := by
  apply BitVec.eq_of_getLsbD_eq; intro i hi
  simp only [opOf, mkI, BitVec.getLsbD_extractLsb', hi, decide_true, Bool.true_and]
  show BitVec.getLsbD (w := 6+5+5+16) _ _ = _
  simp only [BitVec.getLsbD_append]
  have h0 : ¬ (26 + i < 16) := by omega
  have h1 : ¬ (26 + i - 16 < 5) := by omega
  have h2 : ¬ (26 + i - 16 - 5 < 5) := by omega
  have e : 26 + i - 16 - 5 - 5 = i := by omega
  simp [h0, h1, h2, e, hi]
@[simp] theorem rsOf_mkI (op : BitVec 6) (rs : BitVec 5) (rt : BitVec 5) (imm : BitVec 16) : rsOf (mkI op rs rt imm) = rs := by
  apply BitVec.eq_of_getLsbD_eq; intro i hi
  simp only [rsOf, mkI, BitVec.getLsbD_extractLsb', hi, decide_true, Bool.true_and]
  show BitVec.getLsbD (w := 6+5+5+16) _ _ = _
  simp only [BitVec.getLsbD_append]
  have h0 : ¬ (21 + i < 16) := by omega
  have h1 : ¬ (21 + i - 16 < 5) := by omega
  have e : 21 + i - 16 - 5 = i := by omega
  simp [h0, h1, e, hi]
@[simp] theorem rtOf_mkI (op : BitVec 6) (rs : BitVec 5) (rt : BitVec 5) (imm : BitVec 16) : rtOf (mkI op rs rt imm) = rt := by
  apply BitVec.eq_of_getLsbD_eq; intro i hi
  simp only [rtOf, mkI, BitVec.getLsbD_extractLsb', hi, decide_true, Bool.true_and]
  show BitVec.getLsbD (w := 6+5+5+16) _ _ = _
  simp only [BitVec.getLsbD_append]
  have h0 : ¬ (16 + i < 16) := by omega
  have e : 16 + i - 16 = i := by omega
  simp [h0, e, hi]
@[simp] theorem immOf_mkI (op : BitVec 6) (rs : BitVec 5) (rt : BitVec 5) (imm : BitVec 16) : immOf (mkI op rs rt imm) = imm := by
  apply BitVec.eq_of_getLsbD_eq; intro i hi
  simp only [immOf, mkI, BitVec.getLsbD_extractLsb', hi, decide_true, Bool.true_and]
  show BitVec.getLsbD (w := 6+5+5+16) _ _ = _
  simp only [BitVec.getLsbD_append]
  simp [hi]

@[simp] theorem opOf_mkR (op : BitVec 6) (rs : BitVec 5) (rt : BitVec 5) (rd : BitVec 5) (sa : BitVec 5) (fn : BitVec 6) : opOf (mkR op rs rt rd sa fn) = op := by
  apply BitVec.eq_of_getLsbD_eq; intro i hi
  simp only [opOf, mkR, BitVec.getLsbD_extractLsb', hi, decide_true, Bool.true_and]
  show BitVec.getLsbD (w := 6+5+5+5+5+6) _ _ = _
  simp only [BitVec.getLsbD_append]
  have h0 : ¬ (26 + i < 6) := by omega
  have h1 : ¬ (26 + i - 6 < 5) := by omega
  have h2 : ¬ (26 + i - 6 - 5 < 5) := by omega
  have h3 : ¬ (26 + i - 6 - 5 - 5 < 5) := by omega
  have h4 : ¬ (26 + i - 6 - 5 - 5 - 5 < 5) := by omega
  have e : 26 + i - 6 - 5 - 5 - 5 - 5 = i := by omega
  simp [h0, h1, h2, h3, h4, e, hi]
@[simp] theorem rsOf_mkR (op : BitVec 6) (rs : BitVec 5) (rt : BitVec 5) (rd : BitVec 5) (sa : BitVec 5) (fn : BitVec 6) : rsOf (mkR op rs rt rd sa fn) = rs := by
  apply BitVec.eq_of_getLsbD_eq; intro i hi
  simp only [rsOf, mkR, BitVec.getLsbD_extractLsb', hi, decide_true, Bool.true_and]
  show BitVec.getLsbD (w := 6+5+5+5+5+6) _ _ = _
  simp only [BitVec.getLsbD_append]
  have h0 : ¬ (21 + i < 6) := by omega
  have h1 : ¬ (21 + i - 6 < 5) := by omega
  have h2 : ¬ (21 + i - 6 - 5 < 5) := by omega
  have h3 : ¬ (21 + i - 6 - 5 - 5 < 5) := by omega
  have e : 21 + i - 6 - 5 - 5 - 5 = i := by omega
  simp [h0, h1, h2, h3, e, hi]
@[simp] theorem rtOf_mkR (op : BitVec 6) (rs : BitVec 5) (rt : BitVec 5) (rd : BitVec 5) (sa : BitVec 5) (fn : BitVec 6) : rtOf (mkR op rs rt rd sa fn) = rt := by
  apply BitVec.eq_of_getLsbD_eq; intro i hi
  simp only [rtOf, mkR, BitVec.getLsbD_extractLsb', hi, decide_true, Bool.true_and]
  show BitVec.getLsbD (w := 6+5+5+5+5+6) _ _ = _
  simp only [BitVec.getLsbD_append]
  have h0 : ¬ (16 + i < 6) := by omega
  have h1 : ¬ (16 + i - 6 < 5) := by omega
  have h2 : ¬ (16 + i - 6 - 5 < 5) := by omega
  have e : 16 + i - 6 - 5 - 5 = i := by omega
  simp [h0, h1, h2, e, hi]
@[simp] theorem rdOf_mkR (op : BitVec 6) (rs : BitVec 5) (rt : BitVec 5) (rd : BitVec 5) (sa : BitVec 5) (fn : BitVec 6) : rdOf (mkR op rs rt rd sa fn) = rd := by
  apply BitVec.eq_of_getLsbD_eq; intro i hi
  simp only [rdOf, mkR, BitVec.getLsbD_extractLsb', hi, decide_true, Bool.true_and]
  show BitVec.getLsbD (w := 6+5+5+5+5+6) _ _ = _
  simp only [BitVec.getLsbD_append]
  have h0 : ¬ (11 + i < 6) := by omega
  have h1 : ¬ (11 + i - 6 < 5) := by omega
  have e : 11 + i - 6 - 5 = i := by omega
  simp [h0, h1, e, hi]
@[simp] theorem saOf_mkR (op : BitVec 6) (rs : BitVec 5) (rt : BitVec 5) (rd : BitVec 5) (sa : BitVec 5) (fn : BitVec 6) : saOf (mkR op rs rt rd sa fn) = sa := by
  apply BitVec.eq_of_getLsbD_eq; intro i hi
  simp only [saOf, mkR, BitVec.getLsbD_extractLsb', hi, decide_true, Bool.true_and]
  show BitVec.getLsbD (w := 6+5+5+5+5+6) _ _ = _
  simp only [BitVec.getLsbD_append]
  have h0 : ¬ (6 + i < 6) := by omega
  have e : 6 + i - 6 = i := by omega
  simp [h0, e, hi]
@[simp] theorem fnOf_mkR (op : BitVec 6) (rs : BitVec 5) (rt : BitVec 5) (rd : BitVec 5) (sa : BitVec 5) (fn : BitVec 6) : fnOf (mkR op rs rt rd sa fn) = fn := by
  apply BitVec.eq_of_getLsbD_eq; intro i hi
  simp only [fnOf, mkR, BitVec.getLsbD_extractLsb', hi, decide_true, Bool.true_and]
  show BitVec.getLsbD (w := 6+5+5+5+5+6) _ _ = _
  simp only [BitVec.getLsbD_append]
  simp [hi]

@[simp] theorem opOf_mkJ (op : BitVec 6) (target : BitVec 26) : opOf (mkJ op target) = op := by
  apply BitVec.eq_of_getLsbD_eq; intro i hi
  simp only [opOf, mkJ, BitVec.getLsbD_extractLsb', hi, decide_true, Bool.true_and]
  show BitVec.getLsbD (w := 6+26) _ _ = _
  simp only [BitVec.getLsbD_append]
  have h0 : ¬ (26 + i < 26) := by omega
  have e : 26 + i - 26 = i := by omega
  simp [h0, e, hi]
@[simp] theorem targetOf_mkJ (op : BitVec 6) (target : BitVec 26) : targetOf (mkJ op target) = target := by
  apply BitVec.eq_of_getLsbD_eq; intro i hi
  simp only [targetOf, mkJ, BitVec.getLsbD_extractLsb', hi, decide_true, Bool.true_and]
  show BitVec.getLsbD (w := 6+26) _ _ = _
  simp only [BitVec.getLsbD_append]
  simp [hi]

@[simp] theorem opOf_mkCode20 (op : BitVec 6) (code : BitVec 20) (fn : BitVec 6) : opOf (mkCode20 op code fn) = op := by
  apply BitVec.eq_of_getLsbD_eq; intro i hi
  simp only [opOf, mkCode20, BitVec.getLsbD_extractLsb', hi, decide_true, Bool.true_and]
  show BitVec.getLsbD (w := 6+20+6) _ _ = _
  simp only [BitVec.getLsbD_append]
  have h0 : ¬ (26 + i < 6) := by omega
  have h1 : ¬ (26 + i - 6 < 20) := by omega
  have e : 26 + i - 6 - 20 = i := by omega
  simp [h0, h1, e, hi]
@[simp] theorem fnOf_mkCode20 (op : BitVec 6) (code : BitVec 20) (fn : BitVec 6) : fnOf (mkCode20 op code fn) = fn := by
  apply BitVec.eq_of_getLsbD_eq; intro i hi
  simp only [fnOf, mkCode20, BitVec.getLsbD_extractLsb', hi, decide_true, Bool.true_and]
  show BitVec.getLsbD (w := 6+20+6) _ _ = _
  simp only [BitVec.getLsbD_append]
  simp [hi]

@[simp] theorem opOf_mkCode10 (op : BitVec 6) (rs : BitVec 5) (rt : BitVec 5) (code : BitVec 10) (fn : BitVec 6) : opOf (mkCode10 op rs rt code fn) = op := by
  apply BitVec.eq_of_getLsbD_eq; intro i hi
  simp only [opOf, mkCode10, BitVec.getLsbD_extractLsb', hi, decide_true, Bool.true_and]
  show BitVec.getLsbD (w := 6+5+5+10+6) _ _ = _
  simp only [BitVec.getLsbD_append]
  have h0 : ¬ (26 + i < 6) := by omega
  have h1 : ¬ (26 + i - 6 < 10) := by omega
  have h2 : ¬ (26 + i - 6 - 10 < 5) := by omega
  have h3 : ¬ (26 + i - 6 - 10 - 5 < 5) := by omega
  have e : 26 + i - 6 - 10 - 5 - 5 = i := by omega
  simp [h0, h1, h2, h3, e, hi]
@[simp] theorem rsOf_mkCode10 (op : BitVec 6) (rs : BitVec 5) (rt : BitVec 5) (code : BitVec 10) (fn : BitVec 6) : rsOf (mkCode10 op rs rt code fn) = rs := by
  apply BitVec.eq_of_getLsbD_eq; intro i hi
  simp only [rsOf, mkCode10, BitVec.getLsbD_extractLsb', hi, decide_true, Bool.true_and]
  show BitVec.getLsbD (w := 6+5+5+10+6) _ _ = _
  simp only [BitVec.getLsbD_append]
  have h0 : ¬ (21 + i < 6) := by omega
  have h1 : ¬ (21 + i - 6 < 10) := by omega
  have h2 : ¬ (21 + i - 6 - 10 < 5) := by omega
  have e : 21 + i - 6 - 10 - 5 = i := by omega
  simp [h0, h1, h2, e, hi]
@[simp] theorem rtOf_mkCode10 (op : BitVec 6) (rs : BitVec 5) (rt : BitVec 5) (code : BitVec 10) (fn : BitVec 6) : rtOf (mkCode10 op rs rt code fn) = rt := by
  apply BitVec.eq_of_getLsbD_eq; intro i hi
  simp only [rtOf, mkCode10, BitVec.getLsbD_extractLsb', hi, decide_true, Bool.true_and]
  show BitVec.getLsbD (w := 6+5+5+10+6) _ _ = _
  simp only [BitVec.getLsbD_append]
  have h0 : ¬ (16 + i < 6) := by omega
  have h1 : ¬ (16 + i - 6 < 10) := by omega
  have e : 16 + i - 6 - 10 = i := by omega
  simp [h0, h1, e, hi]
@[simp] theorem code10Of_mkCode10 (op : BitVec 6) (rs : BitVec 5) (rt : BitVec 5) (code : BitVec 10) (fn : BitVec 6) : code10Of (mkCode10 op rs rt code fn) = code := by
  apply BitVec.eq_of_getLsbD_eq; intro i hi
  simp only [code10Of, mkCode10, BitVec.getLsbD_extractLsb', hi, decide_true, Bool.true_and]
  show BitVec.getLsbD (w := 6+5+5+10+6) _ _ = _
  simp only [BitVec.getLsbD_append]
  have h0 : ¬ (6 + i < 6) := by omega
  have e : 6 + i - 6 = i := by omega
  simp [h0, e, hi]
@[simp] theorem fnOf_mkCode10 (op : BitVec 6) (rs : BitVec 5) (rt : BitVec 5) (code : BitVec 10) (fn : BitVec 6) : fnOf (mkCode10 op rs rt code fn) = fn := by
  apply BitVec.eq_of_getLsbD_eq; intro i hi
  simp only [fnOf, mkCode10, BitVec.getLsbD_extractLsb', hi, decide_true, Bool.true_and]
  show BitVec.getLsbD (w := 6+5+5+10+6) _ _ = _
  simp only [BitVec.getLsbD_append]
  simp [hi]

/-- A bit of a concatenation of slices is the bit of the word. -/
theorem slice_append {n a b : Nat} (w : BitVec n) (lo : Nat) :
    w.extractLsb' (lo + b) a ++ w.extractLsb' lo b = w.extractLsb' lo (a + b) := by
  apply BitVec.eq_of_getLsbD_eq; intro i hi
  simp only [BitVec.getLsbD_append, BitVec.getLsbD_extractLsb', hi, decide_true, Bool.true_and]
  by_cases h : i < b
  · simp [h]
  · have : i - b < a := by omega
    have e : lo + b + (i - b) = lo + i := by omega
    simp [h, this, e]

theorem mkI_fields (w : Word) : mkI (opOf w) (rsOf w) (rtOf w) (immOf w) = w := by
  simp only [mkI, opOf, rsOf, rtOf, immOf]
  rw [show BitVec.extractLsb' 26 6 w ++ BitVec.extractLsb' 21 5 w = BitVec.extractLsb' 21 11 w from slice_append w 21]
  rw [show BitVec.extractLsb' 21 11 w ++ BitVec.extractLsb' 16 5 w = BitVec.extractLsb' 16 16 w from slice_append w 16]
  rw [show BitVec.extractLsb' 16 16 w ++ BitVec.extractLsb' 0 16 w = BitVec.extractLsb' 0 32 w from slice_append w 0]
  exact BitVec.eq_of_getLsbD_eq fun i hi => by simp

theorem mkR_fields (w : Word) : mkR (opOf w) (rsOf w) (rtOf w) (rdOf w) (saOf w) (fnOf w) = w := by
  simp only [mkR, opOf, rsOf, rtOf, rdOf, saOf, fnOf]
  rw [show BitVec.extractLsb' 26 6 w ++ BitVec.extractLsb' 21 5 w = BitVec.extractLsb' 21 11 w from slice_append w 21]
  rw [show BitVec.extractLsb' 21 11 w ++ BitVec.extractLsb' 16 5 w = BitVec.extractLsb' 16 16 w from slice_append w 16]
  rw [show BitVec.extractLsb' 16 16 w ++ BitVec.extractLsb' 11 5 w = BitVec.extractLsb' 11 21 w from slice_append w 11]
  rw [show BitVec.extractLsb' 11 21 w ++ BitVec.extractLsb' 6 5 w = BitVec.extractLsb' 6 26 w from slice_append w 6]
  rw [show BitVec.extractLsb' 6 26 w ++ BitVec.extractLsb' 0 6 w = BitVec.extractLsb' 0 32 w from slice_append w 0]
  exact BitVec.eq_of_getLsbD_eq fun i hi => by simp

theorem mkJ_fields (w : Word) : mkJ (opOf w) (targetOf w) = w := by
  simp only [mkJ, opOf, targetOf]
  rw [show BitVec.extractLsb' 26 6 w ++ BitVec.extractLsb' 0 26 w = BitVec.extractLsb' 0 32 w from slice_append w 0]
  exact BitVec.eq_of_getLsbD_eq fun i hi => by simp

theorem mkCode10_fields (w : Word) : mkCode10 (opOf w) (rsOf w) (rtOf w) (code10Of w) (fnOf w) = w := by
  simp only [mkCode10, opOf, rsOf, rtOf, code10Of, fnOf]
  rw [show BitVec.extractLsb' 26 6 w ++ BitVec.extractLsb' 21 5 w = BitVec.extractLsb' 21 11 w from slice_append w 21]
  rw [show BitVec.extractLsb' 21 11 w ++ BitVec.extractLsb' 16 5 w = BitVec.extractLsb' 16 16 w from slice_append w 16]
  rw [show BitVec.extractLsb' 16 16 w ++ BitVec.extractLsb' 6 10 w = BitVec.extractLsb' 6 26 w from slice_append w 6]
  rw [show BitVec.extractLsb' 6 26 w ++ BitVec.extractLsb' 0 6 w = BitVec.extractLsb' 0 32 w from slice_append w 0]
  exact BitVec.eq_of_getLsbD_eq fun i hi => by simp

end Sys2Proof
end

