-- ==== Sys2Proof/Laws/Frame.lean ====
section
/-! SUPPORT. Sys2Proof/Laws/Frame.lean: the addresses of Sys2Proof/Safety.lean are those the meanings compute; what writes
given up, an NMI over buffered writes among them, leave of the state. -/

namespace Sys2Proof.Machine

/-! ## Addresses -/

theorem word64_add (a b : Dword) : word64 (a.toInt + b.toInt) = a + b := by
  rw [word64, BitVec.ofInt_add, BitVec.ofInt_toInt, BitVec.ofInt_toInt]

theorem sext16_toInt (o : BitVec 16) : (sext16 o).toInt = o.toInt := BitVec.toInt_signExtend_of_le (by omega)

/-- The effective address is the sum the loads and stores compute. -/
theorem effectiveAddress_eq (s : State) (b : RegNum) (o : BitVec 16) : effectiveAddress s b o = baseOffset s b o := by
  unfold effectiveAddress baseOffset s64
  rw [← sext16_toInt, word64_add]

/-- The indexed address is the sum the indexed accesses compute. -/
theorem indexedAddress_eq (s : State) (b i : RegNum) : indexedAddress s b i = baseIndex s b i := by
  unfold indexedAddress baseIndex u64 word64
  rw [← Int.natCast_add, BitVec.ofInt_natCast, BitVec.ofNat_add]; simp

/-! ## Writes given up (spec/70_reset_and_hazards.md R852) -/

@[simp] theorem freeBytes_length (g n : Nat) : (freeBytes g n).length = n := by
  induction n generalizing g with
  | zero => rfl
  | succ n ih => simp [freeBytes, ih]

/-- Writes given up change memory, in the bytes they name only, and count free values. -/
theorem abandon_eq (ts : List (PAddr × Nat)) (s : State) :
    ∃ m n, abandon ts s = (s.setMem m).drawn n ∧ (Memory.wf s.mem → Memory.wf m ∧
      ∀ a, (∀ w ∈ ts, ∀ k < w.2, (w.1.toNat + k) % memSize ≠ a) → memRead m a = memRead s.mem a) := by
  induction ts generalizing s with
  | nil => exact ⟨s.mem, 0, rfl, fun h => ⟨h, fun _ _ => rfl⟩⟩
  | cons w ts ih =>
    obtain ⟨m, n, he, hm⟩ := ih
      ((s.setMem (physWriteBytes s.physMap s.mem w.1.toNat (freeBytes s.free w.2))).drawn w.2)
    refine ⟨m, w.2 + n, he.trans (by simp only [State.setMem, State.drawn, Nat.add_assoc]), fun h => ?_⟩
    obtain ⟨hw, hr⟩ := hm (physWriteBytes_wf h)
    exact ⟨hw, fun a ha => (hr a fun v hv => ha v (List.mem_cons_of_mem _ hv)).trans
      (memRead_physWriteBytes_other h (by simpa using ha w (List.mem_cons_self ..)))⟩

/-- The buffered writes given up: the buffer is empty, memory changes in the bytes they name only, free values are counted. -/
theorem abandonWrites_eq (s : State) :
    ∃ m n, abandonWrites s = ((s.setMem m).drawn n).setWb [] ∧ (Memory.wf s.mem → Memory.wf m ∧
      ∀ a, (∀ e ∈ s.wb, ∀ k < (entryTarget e).2, ((entryTarget e).1.toNat + k) % memSize ≠ a) → memRead m a = memRead s.mem a) := by
  obtain ⟨m, n, he, hm⟩ := abandon_eq (s.wb.map entryTarget) s
  exact ⟨m, n, congrArg (State.setWb · []) he, by simpa using hm⟩

end Sys2Proof.Machine
end

