-- ==== Sys2Proof/Laws/PerInstr.lean ====
section
/-! SUPPORT. Sys2Proof/Laws/PerInstr.lean: for every instruction, the word the encoder writes has the fixed bits of the instruction's row
of spec/opcode_table.json. -/

namespace Sys2Proof.Laws

open Sys2Proof

/-- The bits a row fixes and their values: the mask and the match of spec/opcode_table.json. -/
def tableRow : Instr → Word × Word
  | .lb _ _ _ => (0xFC000000, 0x80000000)
  | .lbu _ _ _ => (0xFC000000, 0x90000000)
  | .lh _ _ _ => (0xFC000000, 0x84000000)
  | .lhu _ _ _ => (0xFC000000, 0x94000000)
  | .lw _ _ _ => (0xFC000000, 0x8C000000)
  | .lwu _ _ _ => (0xFC000000, 0x9C000000)
  | .ld _ _ _ => (0xFC000000, 0xDC000000)
  | .sb _ _ _ => (0xFC000000, 0xA0000000)
  | .sh _ _ _ => (0xFC000000, 0xA4000000)
  | .sw _ _ _ => (0xFC000000, 0xAC000000)
  | .sd _ _ _ => (0xFC000000, 0xFC000000)
  | .lwl _ _ _ => (0xFC000000, 0x88000000)
  | .lwr _ _ _ => (0xFC000000, 0x98000000)
  | .ldl _ _ _ => (0xFC000000, 0x68000000)
  | .ldr _ _ _ => (0xFC000000, 0x6C000000)
  | .swl _ _ _ => (0xFC000000, 0xA8000000)
  | .swr _ _ _ => (0xFC000000, 0xB8000000)
  | .sdl _ _ _ => (0xFC000000, 0xB0000000)
  | .sdr _ _ _ => (0xFC000000, 0xB4000000)
  | .ll _ _ _ => (0xFC000000, 0xC0000000)
  | .lld _ _ _ => (0xFC000000, 0xD0000000)
  | .sc _ _ _ => (0xFC000000, 0xE0000000)
  | .scd _ _ _ => (0xFC000000, 0xF0000000)
  | .pref _ _ _ => (0xFC000000, 0xCC000000)
  | .addi _ _ _ => (0xFC000000, 0x20000000)
  | .addiu _ _ _ => (0xFC000000, 0x24000000)
  | .slti _ _ _ => (0xFC000000, 0x28000000)
  | .sltiu _ _ _ => (0xFC000000, 0x2C000000)
  | .andi _ _ _ => (0xFC000000, 0x30000000)
  | .ori _ _ _ => (0xFC000000, 0x34000000)
  | .xori _ _ _ => (0xFC000000, 0x38000000)
  | .daddi _ _ _ => (0xFC000000, 0x60000000)
  | .daddiu _ _ _ => (0xFC000000, 0x64000000)
  | .lui _ _ => (0xFFE00000, 0x3C000000)
  | .add _ _ _ => (0xFC0007FF, 0x00000020)
  | .addu _ _ _ => (0xFC0007FF, 0x00000021)
  | .sub _ _ _ => (0xFC0007FF, 0x00000022)
  | .subu _ _ _ => (0xFC0007FF, 0x00000023)
  | .and _ _ _ => (0xFC0007FF, 0x00000024)
  | .or _ _ _ => (0xFC0007FF, 0x00000025)
  | .xor _ _ _ => (0xFC0007FF, 0x00000026)
  | .nor _ _ _ => (0xFC0007FF, 0x00000027)
  | .slt _ _ _ => (0xFC0007FF, 0x0000002A)
  | .sltu _ _ _ => (0xFC0007FF, 0x0000002B)
  | .dadd _ _ _ => (0xFC0007FF, 0x0000002C)
  | .daddu _ _ _ => (0xFC0007FF, 0x0000002D)
  | .dsub _ _ _ => (0xFC0007FF, 0x0000002E)
  | .dsubu _ _ _ => (0xFC0007FF, 0x0000002F)
  | .sll _ _ _ => (0xFFE0003F, 0x00000000)
  | .srl _ _ _ => (0xFFE0003F, 0x00000002)
  | .sra _ _ _ => (0xFFE0003F, 0x00000003)
  | .dsll _ _ _ => (0xFFE0003F, 0x00000038)
  | .dsrl _ _ _ => (0xFFE0003F, 0x0000003A)
  | .dsra _ _ _ => (0xFFE0003F, 0x0000003B)
  | .dsll32 _ _ _ => (0xFFE0003F, 0x0000003C)
  | .dsrl32 _ _ _ => (0xFFE0003F, 0x0000003E)
  | .dsra32 _ _ _ => (0xFFE0003F, 0x0000003F)
  | .sllv _ _ _ => (0xFC0007FF, 0x00000004)
  | .srlv _ _ _ => (0xFC0007FF, 0x00000006)
  | .srav _ _ _ => (0xFC0007FF, 0x00000007)
  | .dsllv _ _ _ => (0xFC0007FF, 0x00000014)
  | .dsrlv _ _ _ => (0xFC0007FF, 0x00000016)
  | .dsrav _ _ _ => (0xFC0007FF, 0x00000017)
  | .mult _ _ => (0xFC00FFFF, 0x00000018)
  | .multu _ _ => (0xFC00FFFF, 0x00000019)
  | .dmult _ _ => (0xFC00FFFF, 0x0000001C)
  | .dmultu _ _ => (0xFC00FFFF, 0x0000001D)
  | .div _ _ => (0xFC00FFFF, 0x0000001A)
  | .divu _ _ => (0xFC00FFFF, 0x0000001B)
  | .ddiv _ _ => (0xFC00FFFF, 0x0000001E)
  | .ddivu _ _ => (0xFC00FFFF, 0x0000001F)
  | .mfhi _ => (0xFFFF07FF, 0x00000010)
  | .mthi _ => (0xFC1FFFFF, 0x00000011)
  | .mflo _ => (0xFFFF07FF, 0x00000012)
  | .mtlo _ => (0xFC1FFFFF, 0x00000013)
  | .movn _ _ _ => (0xFC0007FF, 0x0000000B)
  | .movz _ _ _ => (0xFC0007FF, 0x0000000A)
  | .movf _ _ _ => (0xFC0307FF, 0x00000001)
  | .movt _ _ _ => (0xFC0307FF, 0x00010001)
  | .j _ => (0xFC000000, 0x08000000)
  | .jal _ => (0xFC000000, 0x0C000000)
  | .jr _ => (0xFC1FFFFF, 0x00000008)
  | .jalr _ _ => (0xFC1F07FF, 0x00000009)
  | .beq _ _ _ => (0xFC000000, 0x10000000)
  | .bne _ _ _ => (0xFC000000, 0x14000000)
  | .blez _ _ => (0xFC1F0000, 0x18000000)
  | .bgtz _ _ => (0xFC1F0000, 0x1C000000)
  | .bltz _ _ => (0xFC1F0000, 0x04000000)
  | .bgez _ _ => (0xFC1F0000, 0x04010000)
  | .bltzal _ _ => (0xFC1F0000, 0x04100000)
  | .bgezal _ _ => (0xFC1F0000, 0x04110000)
  | .bltzl _ _ => (0xFC1F0000, 0x04020000)
  | .bgezl _ _ => (0xFC1F0000, 0x04030000)
  | .bltzall _ _ => (0xFC1F0000, 0x04120000)
  | .bgezall _ _ => (0xFC1F0000, 0x04130000)
  | .beql _ _ _ => (0xFC000000, 0x50000000)
  | .bnel _ _ _ => (0xFC000000, 0x54000000)
  | .blezl _ _ => (0xFC1F0000, 0x58000000)
  | .bgtzl _ _ => (0xFC1F0000, 0x5C000000)
  | .tge _ _ _ => (0xFC00003F, 0x00000030)
  | .tgeu _ _ _ => (0xFC00003F, 0x00000031)
  | .tlt _ _ _ => (0xFC00003F, 0x00000032)
  | .tltu _ _ _ => (0xFC00003F, 0x00000033)
  | .teq _ _ _ => (0xFC00003F, 0x00000034)
  | .tne _ _ _ => (0xFC00003F, 0x00000036)
  | .tgei _ _ => (0xFC1F0000, 0x04080000)
  | .tgeiu _ _ => (0xFC1F0000, 0x04090000)
  | .tlti _ _ => (0xFC1F0000, 0x040A0000)
  | .tltiu _ _ => (0xFC1F0000, 0x040B0000)
  | .teqi _ _ => (0xFC1F0000, 0x040C0000)
  | .tnei _ _ => (0xFC1F0000, 0x040E0000)
  | .mfc0 _ _ => (0xFFE007FF, 0x40000000)
  | .mtc0 _ _ => (0xFFE007FF, 0x40800000)
  | .dmfc0 _ _ => (0xFFE007FF, 0x40200000)
  | .dmtc0 _ _ => (0xFFE007FF, 0x40A00000)
  | .cacheIIndexInvalidate _ _ => (0xFC1F0000, 0xBC000000)
  | .cacheIIndexLoadTag _ _ => (0xFC1F0000, 0xBC040000)
  | .cacheIIndexStoreTag _ _ => (0xFC1F0000, 0xBC080000)
  | .cacheIHitInvalidate _ _ => (0xFC1F0000, 0xBC100000)
  | .cacheIFill _ _ => (0xFC1F0000, 0xBC140000)
  | .cacheIHitWriteback _ _ => (0xFC1F0000, 0xBC180000)
  | .cacheDIndexWritebackInvalidate _ _ => (0xFC1F0000, 0xBC010000)
  | .cacheDIndexLoadTag _ _ => (0xFC1F0000, 0xBC050000)
  | .cacheDIndexStoreTag _ _ => (0xFC1F0000, 0xBC090000)
  | .cacheDCreateDirtyExclusive _ _ => (0xFC1F0000, 0xBC0D0000)
  | .cacheDHitInvalidate _ _ => (0xFC1F0000, 0xBC110000)
  | .cacheDHitWritebackInvalidate _ _ => (0xFC1F0000, 0xBC150000)
  | .cacheDHitWriteback _ _ => (0xFC1F0000, 0xBC190000)
  | .cacheSValidClear _ _ => (0xFC1F0000, 0xBC030000)
  | .cacheSIndexLoadTag _ _ => (0xFC1F0000, 0xBC070000)
  | .cacheSIndexStoreTag _ _ => (0xFC1F0000, 0xBC0B0000)
  | .cacheSCachePageInvalidate _ _ => (0xFC1F0000, 0xBC170000)
  | .lwc1 _ _ _ => (0xFC000000, 0xC4000000)
  | .ldc1 _ _ _ => (0xFC000000, 0xD4000000)
  | .swc1 _ _ _ => (0xFC000000, 0xE4000000)
  | .sdc1 _ _ _ => (0xFC000000, 0xF4000000)
  | .lwxc1 _ _ _ => (0xFC00F83F, 0x4C000000)
  | .ldxc1 _ _ _ => (0xFC00F83F, 0x4C000001)
  | .swxc1 _ _ _ => (0xFC0007FF, 0x4C000008)
  | .sdxc1 _ _ _ => (0xFC0007FF, 0x4C000009)
  | .mfc1 _ _ => (0xFFE007FF, 0x44000000)
  | .mtc1 _ _ => (0xFFE007FF, 0x44800000)
  | .dmfc1 _ _ => (0xFFE007FF, 0x44200000)
  | .dmtc1 _ _ => (0xFFE007FF, 0x44A00000)
  | .cfc1 _ _ => (0xFFE007FF, 0x44400000)
  | .ctc1 _ _ => (0xFFE007FF, 0x44C00000)
  | .movS _ _ => (0xFFFF003F, 0x46000006)
  | .movD _ _ => (0xFFFF003F, 0x46200006)
  | .movfS _ _ _ => (0xFFE3003F, 0x46000011)
  | .movtS _ _ _ => (0xFFE3003F, 0x46010011)
  | .movzS _ _ _ => (0xFFE0003F, 0x46000012)
  | .movnS _ _ _ => (0xFFE0003F, 0x46000013)
  | .movfD _ _ _ => (0xFFE3003F, 0x46200011)
  | .movtD _ _ _ => (0xFFE3003F, 0x46210011)
  | .movzD _ _ _ => (0xFFE0003F, 0x46200012)
  | .movnD _ _ _ => (0xFFE0003F, 0x46200013)
  | .addS _ _ _ => (0xFFE0003F, 0x46000000)
  | .addD _ _ _ => (0xFFE0003F, 0x46200000)
  | .subS _ _ _ => (0xFFE0003F, 0x46000001)
  | .subD _ _ _ => (0xFFE0003F, 0x46200001)
  | .mulS _ _ _ => (0xFFE0003F, 0x46000002)
  | .mulD _ _ _ => (0xFFE0003F, 0x46200002)
  | .divS _ _ _ => (0xFFE0003F, 0x46000003)
  | .divD _ _ _ => (0xFFE0003F, 0x46200003)
  | .sqrtS _ _ => (0xFFFF003F, 0x46000004)
  | .sqrtD _ _ => (0xFFFF003F, 0x46200004)
  | .absS _ _ => (0xFFFF003F, 0x46000005)
  | .absD _ _ => (0xFFFF003F, 0x46200005)
  | .negS _ _ => (0xFFFF003F, 0x46000007)
  | .negD _ _ => (0xFFFF003F, 0x46200007)
  | .recipS _ _ => (0xFFFF003F, 0x46000015)
  | .recipD _ _ => (0xFFFF003F, 0x46200015)
  | .rsqrtS _ _ => (0xFFFF003F, 0x46000016)
  | .rsqrtD _ _ => (0xFFFF003F, 0x46200016)
  | .maddS _ _ _ _ => (0xFC00003F, 0x4C000020)
  | .maddD _ _ _ _ => (0xFC00003F, 0x4C000021)
  | .msubS _ _ _ _ => (0xFC00003F, 0x4C000028)
  | .msubD _ _ _ _ => (0xFC00003F, 0x4C000029)
  | .nmaddS _ _ _ _ => (0xFC00003F, 0x4C000030)
  | .nmaddD _ _ _ _ => (0xFC00003F, 0x4C000031)
  | .nmsubS _ _ _ _ => (0xFC00003F, 0x4C000038)
  | .nmsubD _ _ _ _ => (0xFC00003F, 0x4C000039)
  | .roundWS _ _ => (0xFFFF003F, 0x4600000C)
  | .roundWD _ _ => (0xFFFF003F, 0x4620000C)
  | .truncWS _ _ => (0xFFFF003F, 0x4600000D)
  | .truncWD _ _ => (0xFFFF003F, 0x4620000D)
  | .ceilWS _ _ => (0xFFFF003F, 0x4600000E)
  | .ceilWD _ _ => (0xFFFF003F, 0x4620000E)
  | .floorWS _ _ => (0xFFFF003F, 0x4600000F)
  | .floorWD _ _ => (0xFFFF003F, 0x4620000F)
  | .cvtWS _ _ => (0xFFFF003F, 0x46000024)
  | .cvtWD _ _ => (0xFFFF003F, 0x46200024)
  | .roundLS _ _ => (0xFFFF003F, 0x46000008)
  | .roundLD _ _ => (0xFFFF003F, 0x46200008)
  | .truncLS _ _ => (0xFFFF003F, 0x46000009)
  | .truncLD _ _ => (0xFFFF003F, 0x46200009)
  | .ceilLS _ _ => (0xFFFF003F, 0x4600000A)
  | .ceilLD _ _ => (0xFFFF003F, 0x4620000A)
  | .floorLS _ _ => (0xFFFF003F, 0x4600000B)
  | .floorLD _ _ => (0xFFFF003F, 0x4620000B)
  | .cvtLS _ _ => (0xFFFF003F, 0x46000025)
  | .cvtLD _ _ => (0xFFFF003F, 0x46200025)
  | .cvtSD _ _ => (0xFFFF003F, 0x46200020)
  | .cvtSW _ _ => (0xFFFF003F, 0x46800020)
  | .cvtSL _ _ => (0xFFFF003F, 0x46A00020)
  | .cvtDS _ _ => (0xFFFF003F, 0x46000021)
  | .cvtDW _ _ => (0xFFFF003F, 0x46800021)
  | .cvtDL _ _ => (0xFFFF003F, 0x46A00021)
  | .cFS _ _ _ => (0xFFE000FF, 0x46000030)
  | .cFD _ _ _ => (0xFFE000FF, 0x46200030)
  | .cUnS _ _ _ => (0xFFE000FF, 0x46000031)
  | .cUnD _ _ _ => (0xFFE000FF, 0x46200031)
  | .cEqS _ _ _ => (0xFFE000FF, 0x46000032)
  | .cEqD _ _ _ => (0xFFE000FF, 0x46200032)
  | .cUeqS _ _ _ => (0xFFE000FF, 0x46000033)
  | .cUeqD _ _ _ => (0xFFE000FF, 0x46200033)
  | .cOltS _ _ _ => (0xFFE000FF, 0x46000034)
  | .cOltD _ _ _ => (0xFFE000FF, 0x46200034)
  | .cUltS _ _ _ => (0xFFE000FF, 0x46000035)
  | .cUltD _ _ _ => (0xFFE000FF, 0x46200035)
  | .cOleS _ _ _ => (0xFFE000FF, 0x46000036)
  | .cOleD _ _ _ => (0xFFE000FF, 0x46200036)
  | .cUleS _ _ _ => (0xFFE000FF, 0x46000037)
  | .cUleD _ _ _ => (0xFFE000FF, 0x46200037)
  | .cSfS _ _ _ => (0xFFE000FF, 0x46000038)
  | .cSfD _ _ _ => (0xFFE000FF, 0x46200038)
  | .cNgleS _ _ _ => (0xFFE000FF, 0x46000039)
  | .cNgleD _ _ _ => (0xFFE000FF, 0x46200039)
  | .cSeqS _ _ _ => (0xFFE000FF, 0x4600003A)
  | .cSeqD _ _ _ => (0xFFE000FF, 0x4620003A)
  | .cNglS _ _ _ => (0xFFE000FF, 0x4600003B)
  | .cNglD _ _ _ => (0xFFE000FF, 0x4620003B)
  | .cLtS _ _ _ => (0xFFE000FF, 0x4600003C)
  | .cLtD _ _ _ => (0xFFE000FF, 0x4620003C)
  | .cNgeS _ _ _ => (0xFFE000FF, 0x4600003D)
  | .cNgeD _ _ _ => (0xFFE000FF, 0x4620003D)
  | .cLeS _ _ _ => (0xFFE000FF, 0x4600003E)
  | .cLeD _ _ _ => (0xFFE000FF, 0x4620003E)
  | .cNgtS _ _ _ => (0xFFE000FF, 0x4600003F)
  | .cNgtD _ _ _ => (0xFFE000FF, 0x4620003F)
  | .bc1f _ _ => (0xFFE30000, 0x45000000)
  | .bc1t _ _ => (0xFFE30000, 0x45010000)
  | .bc1fl _ _ => (0xFFE30000, 0x45020000)
  | .bc1tl _ _ => (0xFFE30000, 0x45030000)
  | .syscall => (0xFC00003F, 0x0000000C)
  | .brk => (0xFC00003F, 0x0000000D)
  | .sync => (0xFFFFFFFF, 0x0000000F)
  | .tlbr => (0xFFFFFFFF, 0x42000001)
  | .tlbwi => (0xFFFFFFFF, 0x42000002)
  | .tlbwr => (0xFFFFFFFF, 0x42000006)
  | .tlbp => (0xFFFFFFFF, 0x42000008)
  | .eret => (0xFFFFFFFF, 0x42000018)
  | .wait => (0xFFFFFFFF, 0x42000020)
  | .prefx => (0xFC0007FF, 0x4C00000F)

/-- The encoded word carries the fixed bits of its row. -/
def FixedBits.Statement (i : Instr) : Prop := encode i &&& (tableRow i).1 = (tableRow i).2

theorem mkI_and (a b c d a' b' c' d') : mkI a b c d &&& mkI a' b' c' d' = mkI (a &&& a') (b &&& b') (c &&& c') (d &&& d') :=
  (BitVec.and_append).trans (congrArg₂ _ ((BitVec.and_append).trans (congrArg₂ _ BitVec.and_append rfl)) rfl)

theorem mkJ_and (a b a' b') : mkJ a b &&& mkJ a' b' = mkJ (a &&& a') (b &&& b') := BitVec.and_append

theorem mkCode10_and (a b c d e a' b' c' d' e') : mkCode10 a b c d e &&& mkCode10 a' b' c' d' e' =
    mkCode10 (a &&& a') (b &&& b') (c &&& c') (d &&& d') (e &&& e') :=
  (BitVec.and_append).trans (congrArg₂ _ ((BitVec.and_append).trans
    (congrArg₂ _ ((BitVec.and_append).trans (congrArg₂ _ BitVec.and_append rfl)) rfl)) rfl)

theorem mkR_and (a b c d e f a' b' c' d' e' f') : mkR a b c d e f &&& mkR a' b' c' d' e' f' =
    mkR (a &&& a') (b &&& b') (c &&& c') (d &&& d') (e &&& e') (f &&& f') :=
  (BitVec.and_append).trans (congrArg₂ _ ((BitVec.and_append).trans
    (congrArg₂ _ ((BitVec.and_append).trans (congrArg₂ _ ((BitVec.and_append).trans (congrArg₂ _ BitVec.and_append rfl)) rfl)) rfl)) rfl)

/-- The low two bits of a field whose upper three hold a condition-code number. -/
theorem cc_and (x : BitVec 3) (y : BitVec 2) : (x ++ y) &&& 3#5 = 0#3 ++ y := by
  have h : (3#5 : BitVec (3 + 2)) = 0#3 ++ 3#2 := rfl
  have h2 : y &&& 3#2 = y := BitVec.and_allOnes
  exact (congrArg _ h).trans (BitVec.and_append.trans (congrArg₂ _ BitVec.and_zero h2))

namespace FixedBits

theorem lb (rt : BitVec 5) (offset : BitVec 16) (base : BitVec 5) : Statement (.lb rt offset base) := by
  show mkI 32#6 base rt offset &&& mkI 63#6 0#5 0#5 0#16 = mkI 32#6 0#5 0#5 0#16
  rw [mkI_and]; simp
theorem lbu (rt : BitVec 5) (offset : BitVec 16) (base : BitVec 5) : Statement (.lbu rt offset base) := by
  show mkI 36#6 base rt offset &&& mkI 63#6 0#5 0#5 0#16 = mkI 36#6 0#5 0#5 0#16
  rw [mkI_and]; simp
theorem lh (rt : BitVec 5) (offset : BitVec 16) (base : BitVec 5) : Statement (.lh rt offset base) := by
  show mkI 33#6 base rt offset &&& mkI 63#6 0#5 0#5 0#16 = mkI 33#6 0#5 0#5 0#16
  rw [mkI_and]; simp
theorem lhu (rt : BitVec 5) (offset : BitVec 16) (base : BitVec 5) : Statement (.lhu rt offset base) := by
  show mkI 37#6 base rt offset &&& mkI 63#6 0#5 0#5 0#16 = mkI 37#6 0#5 0#5 0#16
  rw [mkI_and]; simp
theorem lw (rt : BitVec 5) (offset : BitVec 16) (base : BitVec 5) : Statement (.lw rt offset base) := by
  show mkI 35#6 base rt offset &&& mkI 63#6 0#5 0#5 0#16 = mkI 35#6 0#5 0#5 0#16
  rw [mkI_and]; simp
theorem lwu (rt : BitVec 5) (offset : BitVec 16) (base : BitVec 5) : Statement (.lwu rt offset base) := by
  show mkI 39#6 base rt offset &&& mkI 63#6 0#5 0#5 0#16 = mkI 39#6 0#5 0#5 0#16
  rw [mkI_and]; simp
theorem ld (rt : BitVec 5) (offset : BitVec 16) (base : BitVec 5) : Statement (.ld rt offset base) := by
  show mkI 55#6 base rt offset &&& mkI 63#6 0#5 0#5 0#16 = mkI 55#6 0#5 0#5 0#16
  rw [mkI_and]; simp
theorem sb (rt : BitVec 5) (offset : BitVec 16) (base : BitVec 5) : Statement (.sb rt offset base) := by
  show mkI 40#6 base rt offset &&& mkI 63#6 0#5 0#5 0#16 = mkI 40#6 0#5 0#5 0#16
  rw [mkI_and]; simp
theorem sh (rt : BitVec 5) (offset : BitVec 16) (base : BitVec 5) : Statement (.sh rt offset base) := by
  show mkI 41#6 base rt offset &&& mkI 63#6 0#5 0#5 0#16 = mkI 41#6 0#5 0#5 0#16
  rw [mkI_and]; simp
theorem sw (rt : BitVec 5) (offset : BitVec 16) (base : BitVec 5) : Statement (.sw rt offset base) := by
  show mkI 43#6 base rt offset &&& mkI 63#6 0#5 0#5 0#16 = mkI 43#6 0#5 0#5 0#16
  rw [mkI_and]; simp
theorem sd (rt : BitVec 5) (offset : BitVec 16) (base : BitVec 5) : Statement (.sd rt offset base) := by
  show mkI 63#6 base rt offset &&& mkI 63#6 0#5 0#5 0#16 = mkI 63#6 0#5 0#5 0#16
  rw [mkI_and]; simp
theorem lwl (rt : BitVec 5) (offset : BitVec 16) (base : BitVec 5) : Statement (.lwl rt offset base) := by
  show mkI 34#6 base rt offset &&& mkI 63#6 0#5 0#5 0#16 = mkI 34#6 0#5 0#5 0#16
  rw [mkI_and]; simp
theorem lwr (rt : BitVec 5) (offset : BitVec 16) (base : BitVec 5) : Statement (.lwr rt offset base) := by
  show mkI 38#6 base rt offset &&& mkI 63#6 0#5 0#5 0#16 = mkI 38#6 0#5 0#5 0#16
  rw [mkI_and]; simp
theorem ldl (rt : BitVec 5) (offset : BitVec 16) (base : BitVec 5) : Statement (.ldl rt offset base) := by
  show mkI 26#6 base rt offset &&& mkI 63#6 0#5 0#5 0#16 = mkI 26#6 0#5 0#5 0#16
  rw [mkI_and]; simp
theorem ldr (rt : BitVec 5) (offset : BitVec 16) (base : BitVec 5) : Statement (.ldr rt offset base) := by
  show mkI 27#6 base rt offset &&& mkI 63#6 0#5 0#5 0#16 = mkI 27#6 0#5 0#5 0#16
  rw [mkI_and]; simp
theorem swl (rt : BitVec 5) (offset : BitVec 16) (base : BitVec 5) : Statement (.swl rt offset base) := by
  show mkI 42#6 base rt offset &&& mkI 63#6 0#5 0#5 0#16 = mkI 42#6 0#5 0#5 0#16
  rw [mkI_and]; simp
theorem swr (rt : BitVec 5) (offset : BitVec 16) (base : BitVec 5) : Statement (.swr rt offset base) := by
  show mkI 46#6 base rt offset &&& mkI 63#6 0#5 0#5 0#16 = mkI 46#6 0#5 0#5 0#16
  rw [mkI_and]; simp
theorem sdl (rt : BitVec 5) (offset : BitVec 16) (base : BitVec 5) : Statement (.sdl rt offset base) := by
  show mkI 44#6 base rt offset &&& mkI 63#6 0#5 0#5 0#16 = mkI 44#6 0#5 0#5 0#16
  rw [mkI_and]; simp
theorem sdr (rt : BitVec 5) (offset : BitVec 16) (base : BitVec 5) : Statement (.sdr rt offset base) := by
  show mkI 45#6 base rt offset &&& mkI 63#6 0#5 0#5 0#16 = mkI 45#6 0#5 0#5 0#16
  rw [mkI_and]; simp
theorem ll (rt : BitVec 5) (offset : BitVec 16) (base : BitVec 5) : Statement (.ll rt offset base) := by
  show mkI 48#6 base rt offset &&& mkI 63#6 0#5 0#5 0#16 = mkI 48#6 0#5 0#5 0#16
  rw [mkI_and]; simp
theorem lld (rt : BitVec 5) (offset : BitVec 16) (base : BitVec 5) : Statement (.lld rt offset base) := by
  show mkI 52#6 base rt offset &&& mkI 63#6 0#5 0#5 0#16 = mkI 52#6 0#5 0#5 0#16
  rw [mkI_and]; simp
theorem sc (rt : BitVec 5) (offset : BitVec 16) (base : BitVec 5) : Statement (.sc rt offset base) := by
  show mkI 56#6 base rt offset &&& mkI 63#6 0#5 0#5 0#16 = mkI 56#6 0#5 0#5 0#16
  rw [mkI_and]; simp
theorem scd (rt : BitVec 5) (offset : BitVec 16) (base : BitVec 5) : Statement (.scd rt offset base) := by
  show mkI 60#6 base rt offset &&& mkI 63#6 0#5 0#5 0#16 = mkI 60#6 0#5 0#5 0#16
  rw [mkI_and]; simp
theorem pref (hint : BitVec 5) (offset : BitVec 16) (base : BitVec 5) : Statement (.pref hint offset base) := by
  show mkI 51#6 base hint offset &&& mkI 63#6 0#5 0#5 0#16 = mkI 51#6 0#5 0#5 0#16
  rw [mkI_and]; simp
theorem addi (rt : BitVec 5) (rs : BitVec 5) (imm : BitVec 16) : Statement (.addi rt rs imm) := by
  show mkI 8#6 rs rt imm &&& mkI 63#6 0#5 0#5 0#16 = mkI 8#6 0#5 0#5 0#16
  rw [mkI_and]; simp
theorem addiu (rt : BitVec 5) (rs : BitVec 5) (imm : BitVec 16) : Statement (.addiu rt rs imm) := by
  show mkI 9#6 rs rt imm &&& mkI 63#6 0#5 0#5 0#16 = mkI 9#6 0#5 0#5 0#16
  rw [mkI_and]; simp
theorem slti (rt : BitVec 5) (rs : BitVec 5) (imm : BitVec 16) : Statement (.slti rt rs imm) := by
  show mkI 10#6 rs rt imm &&& mkI 63#6 0#5 0#5 0#16 = mkI 10#6 0#5 0#5 0#16
  rw [mkI_and]; simp
theorem sltiu (rt : BitVec 5) (rs : BitVec 5) (imm : BitVec 16) : Statement (.sltiu rt rs imm) := by
  show mkI 11#6 rs rt imm &&& mkI 63#6 0#5 0#5 0#16 = mkI 11#6 0#5 0#5 0#16
  rw [mkI_and]; simp
theorem andi (rt : BitVec 5) (rs : BitVec 5) (imm : BitVec 16) : Statement (.andi rt rs imm) := by
  show mkI 12#6 rs rt imm &&& mkI 63#6 0#5 0#5 0#16 = mkI 12#6 0#5 0#5 0#16
  rw [mkI_and]; simp
theorem ori (rt : BitVec 5) (rs : BitVec 5) (imm : BitVec 16) : Statement (.ori rt rs imm) := by
  show mkI 13#6 rs rt imm &&& mkI 63#6 0#5 0#5 0#16 = mkI 13#6 0#5 0#5 0#16
  rw [mkI_and]; simp
theorem xori (rt : BitVec 5) (rs : BitVec 5) (imm : BitVec 16) : Statement (.xori rt rs imm) := by
  show mkI 14#6 rs rt imm &&& mkI 63#6 0#5 0#5 0#16 = mkI 14#6 0#5 0#5 0#16
  rw [mkI_and]; simp
theorem daddi (rt : BitVec 5) (rs : BitVec 5) (imm : BitVec 16) : Statement (.daddi rt rs imm) := by
  show mkI 24#6 rs rt imm &&& mkI 63#6 0#5 0#5 0#16 = mkI 24#6 0#5 0#5 0#16
  rw [mkI_and]; simp
theorem daddiu (rt : BitVec 5) (rs : BitVec 5) (imm : BitVec 16) : Statement (.daddiu rt rs imm) := by
  show mkI 25#6 rs rt imm &&& mkI 63#6 0#5 0#5 0#16 = mkI 25#6 0#5 0#5 0#16
  rw [mkI_and]; simp
theorem lui (rt : BitVec 5) (imm : BitVec 16) : Statement (.lui rt imm) := by
  show mkI 15#6 0#5 rt imm &&& mkI 63#6 31#5 0#5 0#16 = mkI 15#6 0#5 0#5 0#16
  rw [mkI_and]; simp
theorem add (rd : BitVec 5) (rs : BitVec 5) (rt : BitVec 5) : Statement (.add rd rs rt) := by
  show mkR 0#6 rs rt rd 0#5 32#6 &&& mkR 63#6 0#5 0#5 0#5 31#5 63#6 = mkR 0#6 0#5 0#5 0#5 0#5 32#6
  rw [mkR_and]; simp
theorem addu (rd : BitVec 5) (rs : BitVec 5) (rt : BitVec 5) : Statement (.addu rd rs rt) := by
  show mkR 0#6 rs rt rd 0#5 33#6 &&& mkR 63#6 0#5 0#5 0#5 31#5 63#6 = mkR 0#6 0#5 0#5 0#5 0#5 33#6
  rw [mkR_and]; simp
theorem sub (rd : BitVec 5) (rs : BitVec 5) (rt : BitVec 5) : Statement (.sub rd rs rt) := by
  show mkR 0#6 rs rt rd 0#5 34#6 &&& mkR 63#6 0#5 0#5 0#5 31#5 63#6 = mkR 0#6 0#5 0#5 0#5 0#5 34#6
  rw [mkR_and]; simp
theorem subu (rd : BitVec 5) (rs : BitVec 5) (rt : BitVec 5) : Statement (.subu rd rs rt) := by
  show mkR 0#6 rs rt rd 0#5 35#6 &&& mkR 63#6 0#5 0#5 0#5 31#5 63#6 = mkR 0#6 0#5 0#5 0#5 0#5 35#6
  rw [mkR_and]; simp
theorem and (rd : BitVec 5) (rs : BitVec 5) (rt : BitVec 5) : Statement (.and rd rs rt) := by
  show mkR 0#6 rs rt rd 0#5 36#6 &&& mkR 63#6 0#5 0#5 0#5 31#5 63#6 = mkR 0#6 0#5 0#5 0#5 0#5 36#6
  rw [mkR_and]; simp
theorem or (rd : BitVec 5) (rs : BitVec 5) (rt : BitVec 5) : Statement (.or rd rs rt) := by
  show mkR 0#6 rs rt rd 0#5 37#6 &&& mkR 63#6 0#5 0#5 0#5 31#5 63#6 = mkR 0#6 0#5 0#5 0#5 0#5 37#6
  rw [mkR_and]; simp
theorem xor (rd : BitVec 5) (rs : BitVec 5) (rt : BitVec 5) : Statement (.xor rd rs rt) := by
  show mkR 0#6 rs rt rd 0#5 38#6 &&& mkR 63#6 0#5 0#5 0#5 31#5 63#6 = mkR 0#6 0#5 0#5 0#5 0#5 38#6
  rw [mkR_and]; simp
theorem nor (rd : BitVec 5) (rs : BitVec 5) (rt : BitVec 5) : Statement (.nor rd rs rt) := by
  show mkR 0#6 rs rt rd 0#5 39#6 &&& mkR 63#6 0#5 0#5 0#5 31#5 63#6 = mkR 0#6 0#5 0#5 0#5 0#5 39#6
  rw [mkR_and]; simp
theorem slt (rd : BitVec 5) (rs : BitVec 5) (rt : BitVec 5) : Statement (.slt rd rs rt) := by
  show mkR 0#6 rs rt rd 0#5 42#6 &&& mkR 63#6 0#5 0#5 0#5 31#5 63#6 = mkR 0#6 0#5 0#5 0#5 0#5 42#6
  rw [mkR_and]; simp
theorem sltu (rd : BitVec 5) (rs : BitVec 5) (rt : BitVec 5) : Statement (.sltu rd rs rt) := by
  show mkR 0#6 rs rt rd 0#5 43#6 &&& mkR 63#6 0#5 0#5 0#5 31#5 63#6 = mkR 0#6 0#5 0#5 0#5 0#5 43#6
  rw [mkR_and]; simp
theorem dadd (rd : BitVec 5) (rs : BitVec 5) (rt : BitVec 5) : Statement (.dadd rd rs rt) := by
  show mkR 0#6 rs rt rd 0#5 44#6 &&& mkR 63#6 0#5 0#5 0#5 31#5 63#6 = mkR 0#6 0#5 0#5 0#5 0#5 44#6
  rw [mkR_and]; simp
theorem daddu (rd : BitVec 5) (rs : BitVec 5) (rt : BitVec 5) : Statement (.daddu rd rs rt) := by
  show mkR 0#6 rs rt rd 0#5 45#6 &&& mkR 63#6 0#5 0#5 0#5 31#5 63#6 = mkR 0#6 0#5 0#5 0#5 0#5 45#6
  rw [mkR_and]; simp
theorem dsub (rd : BitVec 5) (rs : BitVec 5) (rt : BitVec 5) : Statement (.dsub rd rs rt) := by
  show mkR 0#6 rs rt rd 0#5 46#6 &&& mkR 63#6 0#5 0#5 0#5 31#5 63#6 = mkR 0#6 0#5 0#5 0#5 0#5 46#6
  rw [mkR_and]; simp
theorem dsubu (rd : BitVec 5) (rs : BitVec 5) (rt : BitVec 5) : Statement (.dsubu rd rs rt) := by
  show mkR 0#6 rs rt rd 0#5 47#6 &&& mkR 63#6 0#5 0#5 0#5 31#5 63#6 = mkR 0#6 0#5 0#5 0#5 0#5 47#6
  rw [mkR_and]; simp
theorem sll (rd : BitVec 5) (rt : BitVec 5) (sa : BitVec 5) : Statement (.sll rd rt sa) := by
  show mkR 0#6 0#5 rt rd sa 0#6 &&& mkR 63#6 31#5 0#5 0#5 0#5 63#6 = mkR 0#6 0#5 0#5 0#5 0#5 0#6
  rw [mkR_and]; simp
theorem srl (rd : BitVec 5) (rt : BitVec 5) (sa : BitVec 5) : Statement (.srl rd rt sa) := by
  show mkR 0#6 0#5 rt rd sa 2#6 &&& mkR 63#6 31#5 0#5 0#5 0#5 63#6 = mkR 0#6 0#5 0#5 0#5 0#5 2#6
  rw [mkR_and]; simp
theorem sra (rd : BitVec 5) (rt : BitVec 5) (sa : BitVec 5) : Statement (.sra rd rt sa) := by
  show mkR 0#6 0#5 rt rd sa 3#6 &&& mkR 63#6 31#5 0#5 0#5 0#5 63#6 = mkR 0#6 0#5 0#5 0#5 0#5 3#6
  rw [mkR_and]; simp
theorem dsll (rd : BitVec 5) (rt : BitVec 5) (sa : BitVec 5) : Statement (.dsll rd rt sa) := by
  show mkR 0#6 0#5 rt rd sa 56#6 &&& mkR 63#6 31#5 0#5 0#5 0#5 63#6 = mkR 0#6 0#5 0#5 0#5 0#5 56#6
  rw [mkR_and]; simp
theorem dsrl (rd : BitVec 5) (rt : BitVec 5) (sa : BitVec 5) : Statement (.dsrl rd rt sa) := by
  show mkR 0#6 0#5 rt rd sa 58#6 &&& mkR 63#6 31#5 0#5 0#5 0#5 63#6 = mkR 0#6 0#5 0#5 0#5 0#5 58#6
  rw [mkR_and]; simp
theorem dsra (rd : BitVec 5) (rt : BitVec 5) (sa : BitVec 5) : Statement (.dsra rd rt sa) := by
  show mkR 0#6 0#5 rt rd sa 59#6 &&& mkR 63#6 31#5 0#5 0#5 0#5 63#6 = mkR 0#6 0#5 0#5 0#5 0#5 59#6
  rw [mkR_and]; simp
theorem dsll32 (rd : BitVec 5) (rt : BitVec 5) (sa : BitVec 5) : Statement (.dsll32 rd rt sa) := by
  show mkR 0#6 0#5 rt rd sa 60#6 &&& mkR 63#6 31#5 0#5 0#5 0#5 63#6 = mkR 0#6 0#5 0#5 0#5 0#5 60#6
  rw [mkR_and]; simp
theorem dsrl32 (rd : BitVec 5) (rt : BitVec 5) (sa : BitVec 5) : Statement (.dsrl32 rd rt sa) := by
  show mkR 0#6 0#5 rt rd sa 62#6 &&& mkR 63#6 31#5 0#5 0#5 0#5 63#6 = mkR 0#6 0#5 0#5 0#5 0#5 62#6
  rw [mkR_and]; simp
theorem dsra32 (rd : BitVec 5) (rt : BitVec 5) (sa : BitVec 5) : Statement (.dsra32 rd rt sa) := by
  show mkR 0#6 0#5 rt rd sa 63#6 &&& mkR 63#6 31#5 0#5 0#5 0#5 63#6 = mkR 0#6 0#5 0#5 0#5 0#5 63#6
  rw [mkR_and]; simp
theorem sllv (rd : BitVec 5) (rt : BitVec 5) (rs : BitVec 5) : Statement (.sllv rd rt rs) := by
  show mkR 0#6 rs rt rd 0#5 4#6 &&& mkR 63#6 0#5 0#5 0#5 31#5 63#6 = mkR 0#6 0#5 0#5 0#5 0#5 4#6
  rw [mkR_and]; simp
theorem srlv (rd : BitVec 5) (rt : BitVec 5) (rs : BitVec 5) : Statement (.srlv rd rt rs) := by
  show mkR 0#6 rs rt rd 0#5 6#6 &&& mkR 63#6 0#5 0#5 0#5 31#5 63#6 = mkR 0#6 0#5 0#5 0#5 0#5 6#6
  rw [mkR_and]; simp
theorem srav (rd : BitVec 5) (rt : BitVec 5) (rs : BitVec 5) : Statement (.srav rd rt rs) := by
  show mkR 0#6 rs rt rd 0#5 7#6 &&& mkR 63#6 0#5 0#5 0#5 31#5 63#6 = mkR 0#6 0#5 0#5 0#5 0#5 7#6
  rw [mkR_and]; simp
theorem dsllv (rd : BitVec 5) (rt : BitVec 5) (rs : BitVec 5) : Statement (.dsllv rd rt rs) := by
  show mkR 0#6 rs rt rd 0#5 20#6 &&& mkR 63#6 0#5 0#5 0#5 31#5 63#6 = mkR 0#6 0#5 0#5 0#5 0#5 20#6
  rw [mkR_and]; simp
theorem dsrlv (rd : BitVec 5) (rt : BitVec 5) (rs : BitVec 5) : Statement (.dsrlv rd rt rs) := by
  show mkR 0#6 rs rt rd 0#5 22#6 &&& mkR 63#6 0#5 0#5 0#5 31#5 63#6 = mkR 0#6 0#5 0#5 0#5 0#5 22#6
  rw [mkR_and]; simp
theorem dsrav (rd : BitVec 5) (rt : BitVec 5) (rs : BitVec 5) : Statement (.dsrav rd rt rs) := by
  show mkR 0#6 rs rt rd 0#5 23#6 &&& mkR 63#6 0#5 0#5 0#5 31#5 63#6 = mkR 0#6 0#5 0#5 0#5 0#5 23#6
  rw [mkR_and]; simp
theorem mult (rs : BitVec 5) (rt : BitVec 5) : Statement (.mult rs rt) := by
  show mkR 0#6 rs rt 0#5 0#5 24#6 &&& mkR 63#6 0#5 0#5 31#5 31#5 63#6 = mkR 0#6 0#5 0#5 0#5 0#5 24#6
  rw [mkR_and]; simp
theorem multu (rs : BitVec 5) (rt : BitVec 5) : Statement (.multu rs rt) := by
  show mkR 0#6 rs rt 0#5 0#5 25#6 &&& mkR 63#6 0#5 0#5 31#5 31#5 63#6 = mkR 0#6 0#5 0#5 0#5 0#5 25#6
  rw [mkR_and]; simp
theorem dmult (rs : BitVec 5) (rt : BitVec 5) : Statement (.dmult rs rt) := by
  show mkR 0#6 rs rt 0#5 0#5 28#6 &&& mkR 63#6 0#5 0#5 31#5 31#5 63#6 = mkR 0#6 0#5 0#5 0#5 0#5 28#6
  rw [mkR_and]; simp
theorem dmultu (rs : BitVec 5) (rt : BitVec 5) : Statement (.dmultu rs rt) := by
  show mkR 0#6 rs rt 0#5 0#5 29#6 &&& mkR 63#6 0#5 0#5 31#5 31#5 63#6 = mkR 0#6 0#5 0#5 0#5 0#5 29#6
  rw [mkR_and]; simp
theorem div (rs : BitVec 5) (rt : BitVec 5) : Statement (.div rs rt) := by
  show mkR 0#6 rs rt 0#5 0#5 26#6 &&& mkR 63#6 0#5 0#5 31#5 31#5 63#6 = mkR 0#6 0#5 0#5 0#5 0#5 26#6
  rw [mkR_and]; simp
theorem divu (rs : BitVec 5) (rt : BitVec 5) : Statement (.divu rs rt) := by
  show mkR 0#6 rs rt 0#5 0#5 27#6 &&& mkR 63#6 0#5 0#5 31#5 31#5 63#6 = mkR 0#6 0#5 0#5 0#5 0#5 27#6
  rw [mkR_and]; simp
theorem ddiv (rs : BitVec 5) (rt : BitVec 5) : Statement (.ddiv rs rt) := by
  show mkR 0#6 rs rt 0#5 0#5 30#6 &&& mkR 63#6 0#5 0#5 31#5 31#5 63#6 = mkR 0#6 0#5 0#5 0#5 0#5 30#6
  rw [mkR_and]; simp
theorem ddivu (rs : BitVec 5) (rt : BitVec 5) : Statement (.ddivu rs rt) := by
  show mkR 0#6 rs rt 0#5 0#5 31#6 &&& mkR 63#6 0#5 0#5 31#5 31#5 63#6 = mkR 0#6 0#5 0#5 0#5 0#5 31#6
  rw [mkR_and]; simp
theorem mfhi (rd : BitVec 5) : Statement (.mfhi rd) := by
  show mkR 0#6 0#5 0#5 rd 0#5 16#6 &&& mkR 63#6 31#5 31#5 0#5 31#5 63#6 = mkR 0#6 0#5 0#5 0#5 0#5 16#6
  rw [mkR_and]; simp
theorem mthi (rs : BitVec 5) : Statement (.mthi rs) := by
  show mkR 0#6 rs 0#5 0#5 0#5 17#6 &&& mkR 63#6 0#5 31#5 31#5 31#5 63#6 = mkR 0#6 0#5 0#5 0#5 0#5 17#6
  rw [mkR_and]; simp
theorem mflo (rd : BitVec 5) : Statement (.mflo rd) := by
  show mkR 0#6 0#5 0#5 rd 0#5 18#6 &&& mkR 63#6 31#5 31#5 0#5 31#5 63#6 = mkR 0#6 0#5 0#5 0#5 0#5 18#6
  rw [mkR_and]; simp
theorem mtlo (rs : BitVec 5) : Statement (.mtlo rs) := by
  show mkR 0#6 rs 0#5 0#5 0#5 19#6 &&& mkR 63#6 0#5 31#5 31#5 31#5 63#6 = mkR 0#6 0#5 0#5 0#5 0#5 19#6
  rw [mkR_and]; simp
theorem movn (rd : BitVec 5) (rs : BitVec 5) (rt : BitVec 5) : Statement (.movn rd rs rt) := by
  show mkR 0#6 rs rt rd 0#5 11#6 &&& mkR 63#6 0#5 0#5 0#5 31#5 63#6 = mkR 0#6 0#5 0#5 0#5 0#5 11#6
  rw [mkR_and]; simp
theorem movz (rd : BitVec 5) (rs : BitVec 5) (rt : BitVec 5) : Statement (.movz rd rs rt) := by
  show mkR 0#6 rs rt rd 0#5 10#6 &&& mkR 63#6 0#5 0#5 0#5 31#5 63#6 = mkR 0#6 0#5 0#5 0#5 0#5 10#6
  rw [mkR_and]; simp
theorem movf (rd : BitVec 5) (rs : BitVec 5) (cc : BitVec 3) : Statement (.movf rd rs cc) := by
  show mkR 0#6 rs (cc ++ 0#2) rd 0#5 1#6 &&& mkR 63#6 0#5 3#5 0#5 31#5 63#6 = mkR 0#6 0#5 0#5 0#5 0#5 1#6
  rw [mkR_and]; simp [cc_and]
theorem movt (rd : BitVec 5) (rs : BitVec 5) (cc : BitVec 3) : Statement (.movt rd rs cc) := by
  show mkR 0#6 rs (cc ++ 1#2) rd 0#5 1#6 &&& mkR 63#6 0#5 3#5 0#5 31#5 63#6 = mkR 0#6 0#5 1#5 0#5 0#5 1#6
  rw [mkR_and]; simp [cc_and]
theorem j (target : BitVec 26) : Statement (.j target) := by
  show mkJ 2#6 target &&& mkJ 63#6 0#26 = mkJ 2#6 0#26
  rw [mkJ_and]; simp
theorem jal (target : BitVec 26) : Statement (.jal target) := by
  show mkJ 3#6 target &&& mkJ 63#6 0#26 = mkJ 3#6 0#26
  rw [mkJ_and]; simp
theorem jr (rs : BitVec 5) : Statement (.jr rs) := by
  show mkR 0#6 rs 0#5 0#5 0#5 8#6 &&& mkR 63#6 0#5 31#5 31#5 31#5 63#6 = mkR 0#6 0#5 0#5 0#5 0#5 8#6
  rw [mkR_and]; simp
theorem jalr (rd : BitVec 5) (rs : BitVec 5) : Statement (.jalr rd rs) := by
  show mkR 0#6 rs 0#5 rd 0#5 9#6 &&& mkR 63#6 0#5 31#5 0#5 31#5 63#6 = mkR 0#6 0#5 0#5 0#5 0#5 9#6
  rw [mkR_and]; simp
theorem beq (rs : BitVec 5) (rt : BitVec 5) (offset : BitVec 16) : Statement (.beq rs rt offset) := by
  show mkI 4#6 rs rt offset &&& mkI 63#6 0#5 0#5 0#16 = mkI 4#6 0#5 0#5 0#16
  rw [mkI_and]; simp
theorem bne (rs : BitVec 5) (rt : BitVec 5) (offset : BitVec 16) : Statement (.bne rs rt offset) := by
  show mkI 5#6 rs rt offset &&& mkI 63#6 0#5 0#5 0#16 = mkI 5#6 0#5 0#5 0#16
  rw [mkI_and]; simp
theorem blez (rs : BitVec 5) (offset : BitVec 16) : Statement (.blez rs offset) := by
  show mkI 6#6 rs 0#5 offset &&& mkI 63#6 0#5 31#5 0#16 = mkI 6#6 0#5 0#5 0#16
  rw [mkI_and]; simp
theorem bgtz (rs : BitVec 5) (offset : BitVec 16) : Statement (.bgtz rs offset) := by
  show mkI 7#6 rs 0#5 offset &&& mkI 63#6 0#5 31#5 0#16 = mkI 7#6 0#5 0#5 0#16
  rw [mkI_and]; simp
theorem bltz (rs : BitVec 5) (offset : BitVec 16) : Statement (.bltz rs offset) := by
  show mkI 1#6 rs 0#5 offset &&& mkI 63#6 0#5 31#5 0#16 = mkI 1#6 0#5 0#5 0#16
  rw [mkI_and]; simp
theorem bgez (rs : BitVec 5) (offset : BitVec 16) : Statement (.bgez rs offset) := by
  show mkI 1#6 rs 1#5 offset &&& mkI 63#6 0#5 31#5 0#16 = mkI 1#6 0#5 1#5 0#16
  rw [mkI_and]; simp
theorem bltzal (rs : BitVec 5) (offset : BitVec 16) : Statement (.bltzal rs offset) := by
  show mkI 1#6 rs 16#5 offset &&& mkI 63#6 0#5 31#5 0#16 = mkI 1#6 0#5 16#5 0#16
  rw [mkI_and]; simp
theorem bgezal (rs : BitVec 5) (offset : BitVec 16) : Statement (.bgezal rs offset) := by
  show mkI 1#6 rs 17#5 offset &&& mkI 63#6 0#5 31#5 0#16 = mkI 1#6 0#5 17#5 0#16
  rw [mkI_and]; simp
theorem bltzl (rs : BitVec 5) (offset : BitVec 16) : Statement (.bltzl rs offset) := by
  show mkI 1#6 rs 2#5 offset &&& mkI 63#6 0#5 31#5 0#16 = mkI 1#6 0#5 2#5 0#16
  rw [mkI_and]; simp
theorem bgezl (rs : BitVec 5) (offset : BitVec 16) : Statement (.bgezl rs offset) := by
  show mkI 1#6 rs 3#5 offset &&& mkI 63#6 0#5 31#5 0#16 = mkI 1#6 0#5 3#5 0#16
  rw [mkI_and]; simp
theorem bltzall (rs : BitVec 5) (offset : BitVec 16) : Statement (.bltzall rs offset) := by
  show mkI 1#6 rs 18#5 offset &&& mkI 63#6 0#5 31#5 0#16 = mkI 1#6 0#5 18#5 0#16
  rw [mkI_and]; simp
theorem bgezall (rs : BitVec 5) (offset : BitVec 16) : Statement (.bgezall rs offset) := by
  show mkI 1#6 rs 19#5 offset &&& mkI 63#6 0#5 31#5 0#16 = mkI 1#6 0#5 19#5 0#16
  rw [mkI_and]; simp
theorem beql (rs : BitVec 5) (rt : BitVec 5) (offset : BitVec 16) : Statement (.beql rs rt offset) := by
  show mkI 20#6 rs rt offset &&& mkI 63#6 0#5 0#5 0#16 = mkI 20#6 0#5 0#5 0#16
  rw [mkI_and]; simp
theorem bnel (rs : BitVec 5) (rt : BitVec 5) (offset : BitVec 16) : Statement (.bnel rs rt offset) := by
  show mkI 21#6 rs rt offset &&& mkI 63#6 0#5 0#5 0#16 = mkI 21#6 0#5 0#5 0#16
  rw [mkI_and]; simp
theorem blezl (rs : BitVec 5) (offset : BitVec 16) : Statement (.blezl rs offset) := by
  show mkI 22#6 rs 0#5 offset &&& mkI 63#6 0#5 31#5 0#16 = mkI 22#6 0#5 0#5 0#16
  rw [mkI_and]; simp
theorem bgtzl (rs : BitVec 5) (offset : BitVec 16) : Statement (.bgtzl rs offset) := by
  show mkI 23#6 rs 0#5 offset &&& mkI 63#6 0#5 31#5 0#16 = mkI 23#6 0#5 0#5 0#16
  rw [mkI_and]; simp
theorem tge (rs : BitVec 5) (rt : BitVec 5) (code : BitVec 10) : Statement (.tge rs rt code) := by
  show mkCode10 0#6 rs rt code 48#6 &&& mkCode10 63#6 0#5 0#5 0#10 63#6 = mkCode10 0#6 0#5 0#5 0#10 48#6
  rw [mkCode10_and]; simp
theorem tgeu (rs : BitVec 5) (rt : BitVec 5) (code : BitVec 10) : Statement (.tgeu rs rt code) := by
  show mkCode10 0#6 rs rt code 49#6 &&& mkCode10 63#6 0#5 0#5 0#10 63#6 = mkCode10 0#6 0#5 0#5 0#10 49#6
  rw [mkCode10_and]; simp
theorem tlt (rs : BitVec 5) (rt : BitVec 5) (code : BitVec 10) : Statement (.tlt rs rt code) := by
  show mkCode10 0#6 rs rt code 50#6 &&& mkCode10 63#6 0#5 0#5 0#10 63#6 = mkCode10 0#6 0#5 0#5 0#10 50#6
  rw [mkCode10_and]; simp
theorem tltu (rs : BitVec 5) (rt : BitVec 5) (code : BitVec 10) : Statement (.tltu rs rt code) := by
  show mkCode10 0#6 rs rt code 51#6 &&& mkCode10 63#6 0#5 0#5 0#10 63#6 = mkCode10 0#6 0#5 0#5 0#10 51#6
  rw [mkCode10_and]; simp
theorem teq (rs : BitVec 5) (rt : BitVec 5) (code : BitVec 10) : Statement (.teq rs rt code) := by
  show mkCode10 0#6 rs rt code 52#6 &&& mkCode10 63#6 0#5 0#5 0#10 63#6 = mkCode10 0#6 0#5 0#5 0#10 52#6
  rw [mkCode10_and]; simp
theorem tne (rs : BitVec 5) (rt : BitVec 5) (code : BitVec 10) : Statement (.tne rs rt code) := by
  show mkCode10 0#6 rs rt code 54#6 &&& mkCode10 63#6 0#5 0#5 0#10 63#6 = mkCode10 0#6 0#5 0#5 0#10 54#6
  rw [mkCode10_and]; simp
theorem tgei (rs : BitVec 5) (imm : BitVec 16) : Statement (.tgei rs imm) := by
  show mkI 1#6 rs 8#5 imm &&& mkI 63#6 0#5 31#5 0#16 = mkI 1#6 0#5 8#5 0#16
  rw [mkI_and]; simp
theorem tgeiu (rs : BitVec 5) (imm : BitVec 16) : Statement (.tgeiu rs imm) := by
  show mkI 1#6 rs 9#5 imm &&& mkI 63#6 0#5 31#5 0#16 = mkI 1#6 0#5 9#5 0#16
  rw [mkI_and]; simp
theorem tlti (rs : BitVec 5) (imm : BitVec 16) : Statement (.tlti rs imm) := by
  show mkI 1#6 rs 10#5 imm &&& mkI 63#6 0#5 31#5 0#16 = mkI 1#6 0#5 10#5 0#16
  rw [mkI_and]; simp
theorem tltiu (rs : BitVec 5) (imm : BitVec 16) : Statement (.tltiu rs imm) := by
  show mkI 1#6 rs 11#5 imm &&& mkI 63#6 0#5 31#5 0#16 = mkI 1#6 0#5 11#5 0#16
  rw [mkI_and]; simp
theorem teqi (rs : BitVec 5) (imm : BitVec 16) : Statement (.teqi rs imm) := by
  show mkI 1#6 rs 12#5 imm &&& mkI 63#6 0#5 31#5 0#16 = mkI 1#6 0#5 12#5 0#16
  rw [mkI_and]; simp
theorem tnei (rs : BitVec 5) (imm : BitVec 16) : Statement (.tnei rs imm) := by
  show mkI 1#6 rs 14#5 imm &&& mkI 63#6 0#5 31#5 0#16 = mkI 1#6 0#5 14#5 0#16
  rw [mkI_and]; simp
theorem mfc0 (rt : BitVec 5) (rd : BitVec 5) : Statement (.mfc0 rt rd) := by
  show mkR 16#6 0#5 rt rd 0#5 0#6 &&& mkR 63#6 31#5 0#5 0#5 31#5 63#6 = mkR 16#6 0#5 0#5 0#5 0#5 0#6
  rw [mkR_and]; simp
theorem mtc0 (rt : BitVec 5) (rd : BitVec 5) : Statement (.mtc0 rt rd) := by
  show mkR 16#6 4#5 rt rd 0#5 0#6 &&& mkR 63#6 31#5 0#5 0#5 31#5 63#6 = mkR 16#6 4#5 0#5 0#5 0#5 0#6
  rw [mkR_and]; simp
theorem dmfc0 (rt : BitVec 5) (rd : BitVec 5) : Statement (.dmfc0 rt rd) := by
  show mkR 16#6 1#5 rt rd 0#5 0#6 &&& mkR 63#6 31#5 0#5 0#5 31#5 63#6 = mkR 16#6 1#5 0#5 0#5 0#5 0#6
  rw [mkR_and]; simp
theorem dmtc0 (rt : BitVec 5) (rd : BitVec 5) : Statement (.dmtc0 rt rd) := by
  show mkR 16#6 5#5 rt rd 0#5 0#6 &&& mkR 63#6 31#5 0#5 0#5 31#5 63#6 = mkR 16#6 5#5 0#5 0#5 0#5 0#6
  rw [mkR_and]; simp
theorem cacheIIndexInvalidate (offset : BitVec 16) (base : BitVec 5) : Statement (.cacheIIndexInvalidate offset base) := by
  show mkI 47#6 base 0#5 offset &&& mkI 63#6 0#5 31#5 0#16 = mkI 47#6 0#5 0#5 0#16
  rw [mkI_and]; simp
theorem cacheIIndexLoadTag (offset : BitVec 16) (base : BitVec 5) : Statement (.cacheIIndexLoadTag offset base) := by
  show mkI 47#6 base 4#5 offset &&& mkI 63#6 0#5 31#5 0#16 = mkI 47#6 0#5 4#5 0#16
  rw [mkI_and]; simp
theorem cacheIIndexStoreTag (offset : BitVec 16) (base : BitVec 5) : Statement (.cacheIIndexStoreTag offset base) := by
  show mkI 47#6 base 8#5 offset &&& mkI 63#6 0#5 31#5 0#16 = mkI 47#6 0#5 8#5 0#16
  rw [mkI_and]; simp
theorem cacheIHitInvalidate (offset : BitVec 16) (base : BitVec 5) : Statement (.cacheIHitInvalidate offset base) := by
  show mkI 47#6 base 16#5 offset &&& mkI 63#6 0#5 31#5 0#16 = mkI 47#6 0#5 16#5 0#16
  rw [mkI_and]; simp
theorem cacheIFill (offset : BitVec 16) (base : BitVec 5) : Statement (.cacheIFill offset base) := by
  show mkI 47#6 base 20#5 offset &&& mkI 63#6 0#5 31#5 0#16 = mkI 47#6 0#5 20#5 0#16
  rw [mkI_and]; simp
theorem cacheIHitWriteback (offset : BitVec 16) (base : BitVec 5) : Statement (.cacheIHitWriteback offset base) := by
  show mkI 47#6 base 24#5 offset &&& mkI 63#6 0#5 31#5 0#16 = mkI 47#6 0#5 24#5 0#16
  rw [mkI_and]; simp
theorem cacheDIndexWritebackInvalidate (offset : BitVec 16) (base : BitVec 5) : Statement (.cacheDIndexWritebackInvalidate offset base) := by
  show mkI 47#6 base 1#5 offset &&& mkI 63#6 0#5 31#5 0#16 = mkI 47#6 0#5 1#5 0#16
  rw [mkI_and]; simp
theorem cacheDIndexLoadTag (offset : BitVec 16) (base : BitVec 5) : Statement (.cacheDIndexLoadTag offset base) := by
  show mkI 47#6 base 5#5 offset &&& mkI 63#6 0#5 31#5 0#16 = mkI 47#6 0#5 5#5 0#16
  rw [mkI_and]; simp
theorem cacheDIndexStoreTag (offset : BitVec 16) (base : BitVec 5) : Statement (.cacheDIndexStoreTag offset base) := by
  show mkI 47#6 base 9#5 offset &&& mkI 63#6 0#5 31#5 0#16 = mkI 47#6 0#5 9#5 0#16
  rw [mkI_and]; simp
theorem cacheDCreateDirtyExclusive (offset : BitVec 16) (base : BitVec 5) : Statement (.cacheDCreateDirtyExclusive offset base) := by
  show mkI 47#6 base 13#5 offset &&& mkI 63#6 0#5 31#5 0#16 = mkI 47#6 0#5 13#5 0#16
  rw [mkI_and]; simp
theorem cacheDHitInvalidate (offset : BitVec 16) (base : BitVec 5) : Statement (.cacheDHitInvalidate offset base) := by
  show mkI 47#6 base 17#5 offset &&& mkI 63#6 0#5 31#5 0#16 = mkI 47#6 0#5 17#5 0#16
  rw [mkI_and]; simp
theorem cacheDHitWritebackInvalidate (offset : BitVec 16) (base : BitVec 5) : Statement (.cacheDHitWritebackInvalidate offset base) := by
  show mkI 47#6 base 21#5 offset &&& mkI 63#6 0#5 31#5 0#16 = mkI 47#6 0#5 21#5 0#16
  rw [mkI_and]; simp
theorem cacheDHitWriteback (offset : BitVec 16) (base : BitVec 5) : Statement (.cacheDHitWriteback offset base) := by
  show mkI 47#6 base 25#5 offset &&& mkI 63#6 0#5 31#5 0#16 = mkI 47#6 0#5 25#5 0#16
  rw [mkI_and]; simp
theorem cacheSValidClear (offset : BitVec 16) (base : BitVec 5) : Statement (.cacheSValidClear offset base) := by
  show mkI 47#6 base 3#5 offset &&& mkI 63#6 0#5 31#5 0#16 = mkI 47#6 0#5 3#5 0#16
  rw [mkI_and]; simp
theorem cacheSIndexLoadTag (offset : BitVec 16) (base : BitVec 5) : Statement (.cacheSIndexLoadTag offset base) := by
  show mkI 47#6 base 7#5 offset &&& mkI 63#6 0#5 31#5 0#16 = mkI 47#6 0#5 7#5 0#16
  rw [mkI_and]; simp
theorem cacheSIndexStoreTag (offset : BitVec 16) (base : BitVec 5) : Statement (.cacheSIndexStoreTag offset base) := by
  show mkI 47#6 base 11#5 offset &&& mkI 63#6 0#5 31#5 0#16 = mkI 47#6 0#5 11#5 0#16
  rw [mkI_and]; simp
theorem cacheSCachePageInvalidate (offset : BitVec 16) (base : BitVec 5) : Statement (.cacheSCachePageInvalidate offset base) := by
  show mkI 47#6 base 23#5 offset &&& mkI 63#6 0#5 31#5 0#16 = mkI 47#6 0#5 23#5 0#16
  rw [mkI_and]; simp
theorem lwc1 (ft : BitVec 5) (offset : BitVec 16) (base : BitVec 5) : Statement (.lwc1 ft offset base) := by
  show mkI 49#6 base ft offset &&& mkI 63#6 0#5 0#5 0#16 = mkI 49#6 0#5 0#5 0#16
  rw [mkI_and]; simp
theorem ldc1 (ft : BitVec 5) (offset : BitVec 16) (base : BitVec 5) : Statement (.ldc1 ft offset base) := by
  show mkI 53#6 base ft offset &&& mkI 63#6 0#5 0#5 0#16 = mkI 53#6 0#5 0#5 0#16
  rw [mkI_and]; simp
theorem swc1 (ft : BitVec 5) (offset : BitVec 16) (base : BitVec 5) : Statement (.swc1 ft offset base) := by
  show mkI 57#6 base ft offset &&& mkI 63#6 0#5 0#5 0#16 = mkI 57#6 0#5 0#5 0#16
  rw [mkI_and]; simp
theorem sdc1 (ft : BitVec 5) (offset : BitVec 16) (base : BitVec 5) : Statement (.sdc1 ft offset base) := by
  show mkI 61#6 base ft offset &&& mkI 63#6 0#5 0#5 0#16 = mkI 61#6 0#5 0#5 0#16
  rw [mkI_and]; simp
theorem lwxc1 (fd : BitVec 5) (index : BitVec 5) (base : BitVec 5) : Statement (.lwxc1 fd index base) := by
  show mkR 19#6 base index 0#5 fd 0#6 &&& mkR 63#6 0#5 0#5 31#5 0#5 63#6 = mkR 19#6 0#5 0#5 0#5 0#5 0#6
  rw [mkR_and]; simp
theorem ldxc1 (fd : BitVec 5) (index : BitVec 5) (base : BitVec 5) : Statement (.ldxc1 fd index base) := by
  show mkR 19#6 base index 0#5 fd 1#6 &&& mkR 63#6 0#5 0#5 31#5 0#5 63#6 = mkR 19#6 0#5 0#5 0#5 0#5 1#6
  rw [mkR_and]; simp
theorem swxc1 (fs : BitVec 5) (index : BitVec 5) (base : BitVec 5) : Statement (.swxc1 fs index base) := by
  show mkR 19#6 base index fs 0#5 8#6 &&& mkR 63#6 0#5 0#5 0#5 31#5 63#6 = mkR 19#6 0#5 0#5 0#5 0#5 8#6
  rw [mkR_and]; simp
theorem sdxc1 (fs : BitVec 5) (index : BitVec 5) (base : BitVec 5) : Statement (.sdxc1 fs index base) := by
  show mkR 19#6 base index fs 0#5 9#6 &&& mkR 63#6 0#5 0#5 0#5 31#5 63#6 = mkR 19#6 0#5 0#5 0#5 0#5 9#6
  rw [mkR_and]; simp
theorem mfc1 (rt : BitVec 5) (fs : BitVec 5) : Statement (.mfc1 rt fs) := by
  show mkR 17#6 0#5 rt fs 0#5 0#6 &&& mkR 63#6 31#5 0#5 0#5 31#5 63#6 = mkR 17#6 0#5 0#5 0#5 0#5 0#6
  rw [mkR_and]; simp
theorem mtc1 (rt : BitVec 5) (fs : BitVec 5) : Statement (.mtc1 rt fs) := by
  show mkR 17#6 4#5 rt fs 0#5 0#6 &&& mkR 63#6 31#5 0#5 0#5 31#5 63#6 = mkR 17#6 4#5 0#5 0#5 0#5 0#6
  rw [mkR_and]; simp
theorem dmfc1 (rt : BitVec 5) (fs : BitVec 5) : Statement (.dmfc1 rt fs) := by
  show mkR 17#6 1#5 rt fs 0#5 0#6 &&& mkR 63#6 31#5 0#5 0#5 31#5 63#6 = mkR 17#6 1#5 0#5 0#5 0#5 0#6
  rw [mkR_and]; simp
theorem dmtc1 (rt : BitVec 5) (fs : BitVec 5) : Statement (.dmtc1 rt fs) := by
  show mkR 17#6 5#5 rt fs 0#5 0#6 &&& mkR 63#6 31#5 0#5 0#5 31#5 63#6 = mkR 17#6 5#5 0#5 0#5 0#5 0#6
  rw [mkR_and]; simp
theorem cfc1 (rt : BitVec 5) (fs : BitVec 5) : Statement (.cfc1 rt fs) := by
  show mkR 17#6 2#5 rt fs 0#5 0#6 &&& mkR 63#6 31#5 0#5 0#5 31#5 63#6 = mkR 17#6 2#5 0#5 0#5 0#5 0#6
  rw [mkR_and]; simp
theorem ctc1 (rt : BitVec 5) (fs : BitVec 5) : Statement (.ctc1 rt fs) := by
  show mkR 17#6 6#5 rt fs 0#5 0#6 &&& mkR 63#6 31#5 0#5 0#5 31#5 63#6 = mkR 17#6 6#5 0#5 0#5 0#5 0#6
  rw [mkR_and]; simp
theorem movS (fd : BitVec 5) (fs : BitVec 5) : Statement (.movS fd fs) := by
  show mkR 17#6 16#5 0#5 fs fd 6#6 &&& mkR 63#6 31#5 31#5 0#5 0#5 63#6 = mkR 17#6 16#5 0#5 0#5 0#5 6#6
  rw [mkR_and]; simp
theorem movD (fd : BitVec 5) (fs : BitVec 5) : Statement (.movD fd fs) := by
  show mkR 17#6 17#5 0#5 fs fd 6#6 &&& mkR 63#6 31#5 31#5 0#5 0#5 63#6 = mkR 17#6 17#5 0#5 0#5 0#5 6#6
  rw [mkR_and]; simp
theorem movfS (fd : BitVec 5) (fs : BitVec 5) (cc : BitVec 3) : Statement (.movfS fd fs cc) := by
  show mkR 17#6 16#5 (cc ++ 0#2) fs fd 17#6 &&& mkR 63#6 31#5 3#5 0#5 0#5 63#6 = mkR 17#6 16#5 0#5 0#5 0#5 17#6
  rw [mkR_and]; simp [cc_and]
theorem movtS (fd : BitVec 5) (fs : BitVec 5) (cc : BitVec 3) : Statement (.movtS fd fs cc) := by
  show mkR 17#6 16#5 (cc ++ 1#2) fs fd 17#6 &&& mkR 63#6 31#5 3#5 0#5 0#5 63#6 = mkR 17#6 16#5 1#5 0#5 0#5 17#6
  rw [mkR_and]; simp [cc_and]
theorem movzS (fd : BitVec 5) (fs : BitVec 5) (rt : BitVec 5) : Statement (.movzS fd fs rt) := by
  show mkR 17#6 16#5 rt fs fd 18#6 &&& mkR 63#6 31#5 0#5 0#5 0#5 63#6 = mkR 17#6 16#5 0#5 0#5 0#5 18#6
  rw [mkR_and]; simp
theorem movnS (fd : BitVec 5) (fs : BitVec 5) (rt : BitVec 5) : Statement (.movnS fd fs rt) := by
  show mkR 17#6 16#5 rt fs fd 19#6 &&& mkR 63#6 31#5 0#5 0#5 0#5 63#6 = mkR 17#6 16#5 0#5 0#5 0#5 19#6
  rw [mkR_and]; simp
theorem movfD (fd : BitVec 5) (fs : BitVec 5) (cc : BitVec 3) : Statement (.movfD fd fs cc) := by
  show mkR 17#6 17#5 (cc ++ 0#2) fs fd 17#6 &&& mkR 63#6 31#5 3#5 0#5 0#5 63#6 = mkR 17#6 17#5 0#5 0#5 0#5 17#6
  rw [mkR_and]; simp [cc_and]
theorem movtD (fd : BitVec 5) (fs : BitVec 5) (cc : BitVec 3) : Statement (.movtD fd fs cc) := by
  show mkR 17#6 17#5 (cc ++ 1#2) fs fd 17#6 &&& mkR 63#6 31#5 3#5 0#5 0#5 63#6 = mkR 17#6 17#5 1#5 0#5 0#5 17#6
  rw [mkR_and]; simp [cc_and]
theorem movzD (fd : BitVec 5) (fs : BitVec 5) (rt : BitVec 5) : Statement (.movzD fd fs rt) := by
  show mkR 17#6 17#5 rt fs fd 18#6 &&& mkR 63#6 31#5 0#5 0#5 0#5 63#6 = mkR 17#6 17#5 0#5 0#5 0#5 18#6
  rw [mkR_and]; simp
theorem movnD (fd : BitVec 5) (fs : BitVec 5) (rt : BitVec 5) : Statement (.movnD fd fs rt) := by
  show mkR 17#6 17#5 rt fs fd 19#6 &&& mkR 63#6 31#5 0#5 0#5 0#5 63#6 = mkR 17#6 17#5 0#5 0#5 0#5 19#6
  rw [mkR_and]; simp
theorem addS (fd : BitVec 5) (fs : BitVec 5) (ft : BitVec 5) : Statement (.addS fd fs ft) := by
  show mkR 17#6 16#5 ft fs fd 0#6 &&& mkR 63#6 31#5 0#5 0#5 0#5 63#6 = mkR 17#6 16#5 0#5 0#5 0#5 0#6
  rw [mkR_and]; simp
theorem addD (fd : BitVec 5) (fs : BitVec 5) (ft : BitVec 5) : Statement (.addD fd fs ft) := by
  show mkR 17#6 17#5 ft fs fd 0#6 &&& mkR 63#6 31#5 0#5 0#5 0#5 63#6 = mkR 17#6 17#5 0#5 0#5 0#5 0#6
  rw [mkR_and]; simp
theorem subS (fd : BitVec 5) (fs : BitVec 5) (ft : BitVec 5) : Statement (.subS fd fs ft) := by
  show mkR 17#6 16#5 ft fs fd 1#6 &&& mkR 63#6 31#5 0#5 0#5 0#5 63#6 = mkR 17#6 16#5 0#5 0#5 0#5 1#6
  rw [mkR_and]; simp
theorem subD (fd : BitVec 5) (fs : BitVec 5) (ft : BitVec 5) : Statement (.subD fd fs ft) := by
  show mkR 17#6 17#5 ft fs fd 1#6 &&& mkR 63#6 31#5 0#5 0#5 0#5 63#6 = mkR 17#6 17#5 0#5 0#5 0#5 1#6
  rw [mkR_and]; simp
theorem mulS (fd : BitVec 5) (fs : BitVec 5) (ft : BitVec 5) : Statement (.mulS fd fs ft) := by
  show mkR 17#6 16#5 ft fs fd 2#6 &&& mkR 63#6 31#5 0#5 0#5 0#5 63#6 = mkR 17#6 16#5 0#5 0#5 0#5 2#6
  rw [mkR_and]; simp
theorem mulD (fd : BitVec 5) (fs : BitVec 5) (ft : BitVec 5) : Statement (.mulD fd fs ft) := by
  show mkR 17#6 17#5 ft fs fd 2#6 &&& mkR 63#6 31#5 0#5 0#5 0#5 63#6 = mkR 17#6 17#5 0#5 0#5 0#5 2#6
  rw [mkR_and]; simp
theorem divS (fd : BitVec 5) (fs : BitVec 5) (ft : BitVec 5) : Statement (.divS fd fs ft) := by
  show mkR 17#6 16#5 ft fs fd 3#6 &&& mkR 63#6 31#5 0#5 0#5 0#5 63#6 = mkR 17#6 16#5 0#5 0#5 0#5 3#6
  rw [mkR_and]; simp
theorem divD (fd : BitVec 5) (fs : BitVec 5) (ft : BitVec 5) : Statement (.divD fd fs ft) := by
  show mkR 17#6 17#5 ft fs fd 3#6 &&& mkR 63#6 31#5 0#5 0#5 0#5 63#6 = mkR 17#6 17#5 0#5 0#5 0#5 3#6
  rw [mkR_and]; simp
theorem sqrtS (fd : BitVec 5) (fs : BitVec 5) : Statement (.sqrtS fd fs) := by
  show mkR 17#6 16#5 0#5 fs fd 4#6 &&& mkR 63#6 31#5 31#5 0#5 0#5 63#6 = mkR 17#6 16#5 0#5 0#5 0#5 4#6
  rw [mkR_and]; simp
theorem sqrtD (fd : BitVec 5) (fs : BitVec 5) : Statement (.sqrtD fd fs) := by
  show mkR 17#6 17#5 0#5 fs fd 4#6 &&& mkR 63#6 31#5 31#5 0#5 0#5 63#6 = mkR 17#6 17#5 0#5 0#5 0#5 4#6
  rw [mkR_and]; simp
theorem absS (fd : BitVec 5) (fs : BitVec 5) : Statement (.absS fd fs) := by
  show mkR 17#6 16#5 0#5 fs fd 5#6 &&& mkR 63#6 31#5 31#5 0#5 0#5 63#6 = mkR 17#6 16#5 0#5 0#5 0#5 5#6
  rw [mkR_and]; simp
theorem absD (fd : BitVec 5) (fs : BitVec 5) : Statement (.absD fd fs) := by
  show mkR 17#6 17#5 0#5 fs fd 5#6 &&& mkR 63#6 31#5 31#5 0#5 0#5 63#6 = mkR 17#6 17#5 0#5 0#5 0#5 5#6
  rw [mkR_and]; simp
theorem negS (fd : BitVec 5) (fs : BitVec 5) : Statement (.negS fd fs) := by
  show mkR 17#6 16#5 0#5 fs fd 7#6 &&& mkR 63#6 31#5 31#5 0#5 0#5 63#6 = mkR 17#6 16#5 0#5 0#5 0#5 7#6
  rw [mkR_and]; simp
theorem negD (fd : BitVec 5) (fs : BitVec 5) : Statement (.negD fd fs) := by
  show mkR 17#6 17#5 0#5 fs fd 7#6 &&& mkR 63#6 31#5 31#5 0#5 0#5 63#6 = mkR 17#6 17#5 0#5 0#5 0#5 7#6
  rw [mkR_and]; simp
theorem recipS (fd : BitVec 5) (fs : BitVec 5) : Statement (.recipS fd fs) := by
  show mkR 17#6 16#5 0#5 fs fd 21#6 &&& mkR 63#6 31#5 31#5 0#5 0#5 63#6 = mkR 17#6 16#5 0#5 0#5 0#5 21#6
  rw [mkR_and]; simp
theorem recipD (fd : BitVec 5) (fs : BitVec 5) : Statement (.recipD fd fs) := by
  show mkR 17#6 17#5 0#5 fs fd 21#6 &&& mkR 63#6 31#5 31#5 0#5 0#5 63#6 = mkR 17#6 17#5 0#5 0#5 0#5 21#6
  rw [mkR_and]; simp
theorem rsqrtS (fd : BitVec 5) (fs : BitVec 5) : Statement (.rsqrtS fd fs) := by
  show mkR 17#6 16#5 0#5 fs fd 22#6 &&& mkR 63#6 31#5 31#5 0#5 0#5 63#6 = mkR 17#6 16#5 0#5 0#5 0#5 22#6
  rw [mkR_and]; simp
theorem rsqrtD (fd : BitVec 5) (fs : BitVec 5) : Statement (.rsqrtD fd fs) := by
  show mkR 17#6 17#5 0#5 fs fd 22#6 &&& mkR 63#6 31#5 31#5 0#5 0#5 63#6 = mkR 17#6 17#5 0#5 0#5 0#5 22#6
  rw [mkR_and]; simp
theorem maddS (fd : BitVec 5) (fr : BitVec 5) (fs : BitVec 5) (ft : BitVec 5) : Statement (.maddS fd fr fs ft) := by
  show mkR 19#6 fr ft fs fd 32#6 &&& mkR 63#6 0#5 0#5 0#5 0#5 63#6 = mkR 19#6 0#5 0#5 0#5 0#5 32#6
  rw [mkR_and]; simp
theorem maddD (fd : BitVec 5) (fr : BitVec 5) (fs : BitVec 5) (ft : BitVec 5) : Statement (.maddD fd fr fs ft) := by
  show mkR 19#6 fr ft fs fd 33#6 &&& mkR 63#6 0#5 0#5 0#5 0#5 63#6 = mkR 19#6 0#5 0#5 0#5 0#5 33#6
  rw [mkR_and]; simp
theorem msubS (fd : BitVec 5) (fr : BitVec 5) (fs : BitVec 5) (ft : BitVec 5) : Statement (.msubS fd fr fs ft) := by
  show mkR 19#6 fr ft fs fd 40#6 &&& mkR 63#6 0#5 0#5 0#5 0#5 63#6 = mkR 19#6 0#5 0#5 0#5 0#5 40#6
  rw [mkR_and]; simp
theorem msubD (fd : BitVec 5) (fr : BitVec 5) (fs : BitVec 5) (ft : BitVec 5) : Statement (.msubD fd fr fs ft) := by
  show mkR 19#6 fr ft fs fd 41#6 &&& mkR 63#6 0#5 0#5 0#5 0#5 63#6 = mkR 19#6 0#5 0#5 0#5 0#5 41#6
  rw [mkR_and]; simp
theorem nmaddS (fd : BitVec 5) (fr : BitVec 5) (fs : BitVec 5) (ft : BitVec 5) : Statement (.nmaddS fd fr fs ft) := by
  show mkR 19#6 fr ft fs fd 48#6 &&& mkR 63#6 0#5 0#5 0#5 0#5 63#6 = mkR 19#6 0#5 0#5 0#5 0#5 48#6
  rw [mkR_and]; simp
theorem nmaddD (fd : BitVec 5) (fr : BitVec 5) (fs : BitVec 5) (ft : BitVec 5) : Statement (.nmaddD fd fr fs ft) := by
  show mkR 19#6 fr ft fs fd 49#6 &&& mkR 63#6 0#5 0#5 0#5 0#5 63#6 = mkR 19#6 0#5 0#5 0#5 0#5 49#6
  rw [mkR_and]; simp
theorem nmsubS (fd : BitVec 5) (fr : BitVec 5) (fs : BitVec 5) (ft : BitVec 5) : Statement (.nmsubS fd fr fs ft) := by
  show mkR 19#6 fr ft fs fd 56#6 &&& mkR 63#6 0#5 0#5 0#5 0#5 63#6 = mkR 19#6 0#5 0#5 0#5 0#5 56#6
  rw [mkR_and]; simp
theorem nmsubD (fd : BitVec 5) (fr : BitVec 5) (fs : BitVec 5) (ft : BitVec 5) : Statement (.nmsubD fd fr fs ft) := by
  show mkR 19#6 fr ft fs fd 57#6 &&& mkR 63#6 0#5 0#5 0#5 0#5 63#6 = mkR 19#6 0#5 0#5 0#5 0#5 57#6
  rw [mkR_and]; simp
theorem roundWS (fd : BitVec 5) (fs : BitVec 5) : Statement (.roundWS fd fs) := by
  show mkR 17#6 16#5 0#5 fs fd 12#6 &&& mkR 63#6 31#5 31#5 0#5 0#5 63#6 = mkR 17#6 16#5 0#5 0#5 0#5 12#6
  rw [mkR_and]; simp
theorem roundWD (fd : BitVec 5) (fs : BitVec 5) : Statement (.roundWD fd fs) := by
  show mkR 17#6 17#5 0#5 fs fd 12#6 &&& mkR 63#6 31#5 31#5 0#5 0#5 63#6 = mkR 17#6 17#5 0#5 0#5 0#5 12#6
  rw [mkR_and]; simp
theorem truncWS (fd : BitVec 5) (fs : BitVec 5) : Statement (.truncWS fd fs) := by
  show mkR 17#6 16#5 0#5 fs fd 13#6 &&& mkR 63#6 31#5 31#5 0#5 0#5 63#6 = mkR 17#6 16#5 0#5 0#5 0#5 13#6
  rw [mkR_and]; simp
theorem truncWD (fd : BitVec 5) (fs : BitVec 5) : Statement (.truncWD fd fs) := by
  show mkR 17#6 17#5 0#5 fs fd 13#6 &&& mkR 63#6 31#5 31#5 0#5 0#5 63#6 = mkR 17#6 17#5 0#5 0#5 0#5 13#6
  rw [mkR_and]; simp
theorem ceilWS (fd : BitVec 5) (fs : BitVec 5) : Statement (.ceilWS fd fs) := by
  show mkR 17#6 16#5 0#5 fs fd 14#6 &&& mkR 63#6 31#5 31#5 0#5 0#5 63#6 = mkR 17#6 16#5 0#5 0#5 0#5 14#6
  rw [mkR_and]; simp
theorem ceilWD (fd : BitVec 5) (fs : BitVec 5) : Statement (.ceilWD fd fs) := by
  show mkR 17#6 17#5 0#5 fs fd 14#6 &&& mkR 63#6 31#5 31#5 0#5 0#5 63#6 = mkR 17#6 17#5 0#5 0#5 0#5 14#6
  rw [mkR_and]; simp
theorem floorWS (fd : BitVec 5) (fs : BitVec 5) : Statement (.floorWS fd fs) := by
  show mkR 17#6 16#5 0#5 fs fd 15#6 &&& mkR 63#6 31#5 31#5 0#5 0#5 63#6 = mkR 17#6 16#5 0#5 0#5 0#5 15#6
  rw [mkR_and]; simp
theorem floorWD (fd : BitVec 5) (fs : BitVec 5) : Statement (.floorWD fd fs) := by
  show mkR 17#6 17#5 0#5 fs fd 15#6 &&& mkR 63#6 31#5 31#5 0#5 0#5 63#6 = mkR 17#6 17#5 0#5 0#5 0#5 15#6
  rw [mkR_and]; simp
theorem cvtWS (fd : BitVec 5) (fs : BitVec 5) : Statement (.cvtWS fd fs) := by
  show mkR 17#6 16#5 0#5 fs fd 36#6 &&& mkR 63#6 31#5 31#5 0#5 0#5 63#6 = mkR 17#6 16#5 0#5 0#5 0#5 36#6
  rw [mkR_and]; simp
theorem cvtWD (fd : BitVec 5) (fs : BitVec 5) : Statement (.cvtWD fd fs) := by
  show mkR 17#6 17#5 0#5 fs fd 36#6 &&& mkR 63#6 31#5 31#5 0#5 0#5 63#6 = mkR 17#6 17#5 0#5 0#5 0#5 36#6
  rw [mkR_and]; simp
theorem roundLS (fd : BitVec 5) (fs : BitVec 5) : Statement (.roundLS fd fs) := by
  show mkR 17#6 16#5 0#5 fs fd 8#6 &&& mkR 63#6 31#5 31#5 0#5 0#5 63#6 = mkR 17#6 16#5 0#5 0#5 0#5 8#6
  rw [mkR_and]; simp
theorem roundLD (fd : BitVec 5) (fs : BitVec 5) : Statement (.roundLD fd fs) := by
  show mkR 17#6 17#5 0#5 fs fd 8#6 &&& mkR 63#6 31#5 31#5 0#5 0#5 63#6 = mkR 17#6 17#5 0#5 0#5 0#5 8#6
  rw [mkR_and]; simp
theorem truncLS (fd : BitVec 5) (fs : BitVec 5) : Statement (.truncLS fd fs) := by
  show mkR 17#6 16#5 0#5 fs fd 9#6 &&& mkR 63#6 31#5 31#5 0#5 0#5 63#6 = mkR 17#6 16#5 0#5 0#5 0#5 9#6
  rw [mkR_and]; simp
theorem truncLD (fd : BitVec 5) (fs : BitVec 5) : Statement (.truncLD fd fs) := by
  show mkR 17#6 17#5 0#5 fs fd 9#6 &&& mkR 63#6 31#5 31#5 0#5 0#5 63#6 = mkR 17#6 17#5 0#5 0#5 0#5 9#6
  rw [mkR_and]; simp
theorem ceilLS (fd : BitVec 5) (fs : BitVec 5) : Statement (.ceilLS fd fs) := by
  show mkR 17#6 16#5 0#5 fs fd 10#6 &&& mkR 63#6 31#5 31#5 0#5 0#5 63#6 = mkR 17#6 16#5 0#5 0#5 0#5 10#6
  rw [mkR_and]; simp
theorem ceilLD (fd : BitVec 5) (fs : BitVec 5) : Statement (.ceilLD fd fs) := by
  show mkR 17#6 17#5 0#5 fs fd 10#6 &&& mkR 63#6 31#5 31#5 0#5 0#5 63#6 = mkR 17#6 17#5 0#5 0#5 0#5 10#6
  rw [mkR_and]; simp
theorem floorLS (fd : BitVec 5) (fs : BitVec 5) : Statement (.floorLS fd fs) := by
  show mkR 17#6 16#5 0#5 fs fd 11#6 &&& mkR 63#6 31#5 31#5 0#5 0#5 63#6 = mkR 17#6 16#5 0#5 0#5 0#5 11#6
  rw [mkR_and]; simp
theorem floorLD (fd : BitVec 5) (fs : BitVec 5) : Statement (.floorLD fd fs) := by
  show mkR 17#6 17#5 0#5 fs fd 11#6 &&& mkR 63#6 31#5 31#5 0#5 0#5 63#6 = mkR 17#6 17#5 0#5 0#5 0#5 11#6
  rw [mkR_and]; simp
theorem cvtLS (fd : BitVec 5) (fs : BitVec 5) : Statement (.cvtLS fd fs) := by
  show mkR 17#6 16#5 0#5 fs fd 37#6 &&& mkR 63#6 31#5 31#5 0#5 0#5 63#6 = mkR 17#6 16#5 0#5 0#5 0#5 37#6
  rw [mkR_and]; simp
theorem cvtLD (fd : BitVec 5) (fs : BitVec 5) : Statement (.cvtLD fd fs) := by
  show mkR 17#6 17#5 0#5 fs fd 37#6 &&& mkR 63#6 31#5 31#5 0#5 0#5 63#6 = mkR 17#6 17#5 0#5 0#5 0#5 37#6
  rw [mkR_and]; simp
theorem cvtSD (fd : BitVec 5) (fs : BitVec 5) : Statement (.cvtSD fd fs) := by
  show mkR 17#6 17#5 0#5 fs fd 32#6 &&& mkR 63#6 31#5 31#5 0#5 0#5 63#6 = mkR 17#6 17#5 0#5 0#5 0#5 32#6
  rw [mkR_and]; simp
theorem cvtSW (fd : BitVec 5) (fs : BitVec 5) : Statement (.cvtSW fd fs) := by
  show mkR 17#6 20#5 0#5 fs fd 32#6 &&& mkR 63#6 31#5 31#5 0#5 0#5 63#6 = mkR 17#6 20#5 0#5 0#5 0#5 32#6
  rw [mkR_and]; simp
theorem cvtSL (fd : BitVec 5) (fs : BitVec 5) : Statement (.cvtSL fd fs) := by
  show mkR 17#6 21#5 0#5 fs fd 32#6 &&& mkR 63#6 31#5 31#5 0#5 0#5 63#6 = mkR 17#6 21#5 0#5 0#5 0#5 32#6
  rw [mkR_and]; simp
theorem cvtDS (fd : BitVec 5) (fs : BitVec 5) : Statement (.cvtDS fd fs) := by
  show mkR 17#6 16#5 0#5 fs fd 33#6 &&& mkR 63#6 31#5 31#5 0#5 0#5 63#6 = mkR 17#6 16#5 0#5 0#5 0#5 33#6
  rw [mkR_and]; simp
theorem cvtDW (fd : BitVec 5) (fs : BitVec 5) : Statement (.cvtDW fd fs) := by
  show mkR 17#6 20#5 0#5 fs fd 33#6 &&& mkR 63#6 31#5 31#5 0#5 0#5 63#6 = mkR 17#6 20#5 0#5 0#5 0#5 33#6
  rw [mkR_and]; simp
theorem cvtDL (fd : BitVec 5) (fs : BitVec 5) : Statement (.cvtDL fd fs) := by
  show mkR 17#6 21#5 0#5 fs fd 33#6 &&& mkR 63#6 31#5 31#5 0#5 0#5 63#6 = mkR 17#6 21#5 0#5 0#5 0#5 33#6
  rw [mkR_and]; simp
theorem cFS (cc : BitVec 3) (fs : BitVec 5) (ft : BitVec 5) : Statement (.cFS cc fs ft) := by
  show mkR 17#6 16#5 ft fs (cc ++ 0#2) 48#6 &&& mkR 63#6 31#5 0#5 0#5 3#5 63#6 = mkR 17#6 16#5 0#5 0#5 0#5 48#6
  rw [mkR_and]; simp [cc_and]
theorem cFD (cc : BitVec 3) (fs : BitVec 5) (ft : BitVec 5) : Statement (.cFD cc fs ft) := by
  show mkR 17#6 17#5 ft fs (cc ++ 0#2) 48#6 &&& mkR 63#6 31#5 0#5 0#5 3#5 63#6 = mkR 17#6 17#5 0#5 0#5 0#5 48#6
  rw [mkR_and]; simp [cc_and]
theorem cUnS (cc : BitVec 3) (fs : BitVec 5) (ft : BitVec 5) : Statement (.cUnS cc fs ft) := by
  show mkR 17#6 16#5 ft fs (cc ++ 0#2) 49#6 &&& mkR 63#6 31#5 0#5 0#5 3#5 63#6 = mkR 17#6 16#5 0#5 0#5 0#5 49#6
  rw [mkR_and]; simp [cc_and]
theorem cUnD (cc : BitVec 3) (fs : BitVec 5) (ft : BitVec 5) : Statement (.cUnD cc fs ft) := by
  show mkR 17#6 17#5 ft fs (cc ++ 0#2) 49#6 &&& mkR 63#6 31#5 0#5 0#5 3#5 63#6 = mkR 17#6 17#5 0#5 0#5 0#5 49#6
  rw [mkR_and]; simp [cc_and]
theorem cEqS (cc : BitVec 3) (fs : BitVec 5) (ft : BitVec 5) : Statement (.cEqS cc fs ft) := by
  show mkR 17#6 16#5 ft fs (cc ++ 0#2) 50#6 &&& mkR 63#6 31#5 0#5 0#5 3#5 63#6 = mkR 17#6 16#5 0#5 0#5 0#5 50#6
  rw [mkR_and]; simp [cc_and]
theorem cEqD (cc : BitVec 3) (fs : BitVec 5) (ft : BitVec 5) : Statement (.cEqD cc fs ft) := by
  show mkR 17#6 17#5 ft fs (cc ++ 0#2) 50#6 &&& mkR 63#6 31#5 0#5 0#5 3#5 63#6 = mkR 17#6 17#5 0#5 0#5 0#5 50#6
  rw [mkR_and]; simp [cc_and]
theorem cUeqS (cc : BitVec 3) (fs : BitVec 5) (ft : BitVec 5) : Statement (.cUeqS cc fs ft) := by
  show mkR 17#6 16#5 ft fs (cc ++ 0#2) 51#6 &&& mkR 63#6 31#5 0#5 0#5 3#5 63#6 = mkR 17#6 16#5 0#5 0#5 0#5 51#6
  rw [mkR_and]; simp [cc_and]
theorem cUeqD (cc : BitVec 3) (fs : BitVec 5) (ft : BitVec 5) : Statement (.cUeqD cc fs ft) := by
  show mkR 17#6 17#5 ft fs (cc ++ 0#2) 51#6 &&& mkR 63#6 31#5 0#5 0#5 3#5 63#6 = mkR 17#6 17#5 0#5 0#5 0#5 51#6
  rw [mkR_and]; simp [cc_and]
theorem cOltS (cc : BitVec 3) (fs : BitVec 5) (ft : BitVec 5) : Statement (.cOltS cc fs ft) := by
  show mkR 17#6 16#5 ft fs (cc ++ 0#2) 52#6 &&& mkR 63#6 31#5 0#5 0#5 3#5 63#6 = mkR 17#6 16#5 0#5 0#5 0#5 52#6
  rw [mkR_and]; simp [cc_and]
theorem cOltD (cc : BitVec 3) (fs : BitVec 5) (ft : BitVec 5) : Statement (.cOltD cc fs ft) := by
  show mkR 17#6 17#5 ft fs (cc ++ 0#2) 52#6 &&& mkR 63#6 31#5 0#5 0#5 3#5 63#6 = mkR 17#6 17#5 0#5 0#5 0#5 52#6
  rw [mkR_and]; simp [cc_and]
theorem cUltS (cc : BitVec 3) (fs : BitVec 5) (ft : BitVec 5) : Statement (.cUltS cc fs ft) := by
  show mkR 17#6 16#5 ft fs (cc ++ 0#2) 53#6 &&& mkR 63#6 31#5 0#5 0#5 3#5 63#6 = mkR 17#6 16#5 0#5 0#5 0#5 53#6
  rw [mkR_and]; simp [cc_and]
theorem cUltD (cc : BitVec 3) (fs : BitVec 5) (ft : BitVec 5) : Statement (.cUltD cc fs ft) := by
  show mkR 17#6 17#5 ft fs (cc ++ 0#2) 53#6 &&& mkR 63#6 31#5 0#5 0#5 3#5 63#6 = mkR 17#6 17#5 0#5 0#5 0#5 53#6
  rw [mkR_and]; simp [cc_and]
theorem cOleS (cc : BitVec 3) (fs : BitVec 5) (ft : BitVec 5) : Statement (.cOleS cc fs ft) := by
  show mkR 17#6 16#5 ft fs (cc ++ 0#2) 54#6 &&& mkR 63#6 31#5 0#5 0#5 3#5 63#6 = mkR 17#6 16#5 0#5 0#5 0#5 54#6
  rw [mkR_and]; simp [cc_and]
theorem cOleD (cc : BitVec 3) (fs : BitVec 5) (ft : BitVec 5) : Statement (.cOleD cc fs ft) := by
  show mkR 17#6 17#5 ft fs (cc ++ 0#2) 54#6 &&& mkR 63#6 31#5 0#5 0#5 3#5 63#6 = mkR 17#6 17#5 0#5 0#5 0#5 54#6
  rw [mkR_and]; simp [cc_and]
theorem cUleS (cc : BitVec 3) (fs : BitVec 5) (ft : BitVec 5) : Statement (.cUleS cc fs ft) := by
  show mkR 17#6 16#5 ft fs (cc ++ 0#2) 55#6 &&& mkR 63#6 31#5 0#5 0#5 3#5 63#6 = mkR 17#6 16#5 0#5 0#5 0#5 55#6
  rw [mkR_and]; simp [cc_and]
theorem cUleD (cc : BitVec 3) (fs : BitVec 5) (ft : BitVec 5) : Statement (.cUleD cc fs ft) := by
  show mkR 17#6 17#5 ft fs (cc ++ 0#2) 55#6 &&& mkR 63#6 31#5 0#5 0#5 3#5 63#6 = mkR 17#6 17#5 0#5 0#5 0#5 55#6
  rw [mkR_and]; simp [cc_and]
theorem cSfS (cc : BitVec 3) (fs : BitVec 5) (ft : BitVec 5) : Statement (.cSfS cc fs ft) := by
  show mkR 17#6 16#5 ft fs (cc ++ 0#2) 56#6 &&& mkR 63#6 31#5 0#5 0#5 3#5 63#6 = mkR 17#6 16#5 0#5 0#5 0#5 56#6
  rw [mkR_and]; simp [cc_and]
theorem cSfD (cc : BitVec 3) (fs : BitVec 5) (ft : BitVec 5) : Statement (.cSfD cc fs ft) := by
  show mkR 17#6 17#5 ft fs (cc ++ 0#2) 56#6 &&& mkR 63#6 31#5 0#5 0#5 3#5 63#6 = mkR 17#6 17#5 0#5 0#5 0#5 56#6
  rw [mkR_and]; simp [cc_and]
theorem cNgleS (cc : BitVec 3) (fs : BitVec 5) (ft : BitVec 5) : Statement (.cNgleS cc fs ft) := by
  show mkR 17#6 16#5 ft fs (cc ++ 0#2) 57#6 &&& mkR 63#6 31#5 0#5 0#5 3#5 63#6 = mkR 17#6 16#5 0#5 0#5 0#5 57#6
  rw [mkR_and]; simp [cc_and]
theorem cNgleD (cc : BitVec 3) (fs : BitVec 5) (ft : BitVec 5) : Statement (.cNgleD cc fs ft) := by
  show mkR 17#6 17#5 ft fs (cc ++ 0#2) 57#6 &&& mkR 63#6 31#5 0#5 0#5 3#5 63#6 = mkR 17#6 17#5 0#5 0#5 0#5 57#6
  rw [mkR_and]; simp [cc_and]
theorem cSeqS (cc : BitVec 3) (fs : BitVec 5) (ft : BitVec 5) : Statement (.cSeqS cc fs ft) := by
  show mkR 17#6 16#5 ft fs (cc ++ 0#2) 58#6 &&& mkR 63#6 31#5 0#5 0#5 3#5 63#6 = mkR 17#6 16#5 0#5 0#5 0#5 58#6
  rw [mkR_and]; simp [cc_and]
theorem cSeqD (cc : BitVec 3) (fs : BitVec 5) (ft : BitVec 5) : Statement (.cSeqD cc fs ft) := by
  show mkR 17#6 17#5 ft fs (cc ++ 0#2) 58#6 &&& mkR 63#6 31#5 0#5 0#5 3#5 63#6 = mkR 17#6 17#5 0#5 0#5 0#5 58#6
  rw [mkR_and]; simp [cc_and]
theorem cNglS (cc : BitVec 3) (fs : BitVec 5) (ft : BitVec 5) : Statement (.cNglS cc fs ft) := by
  show mkR 17#6 16#5 ft fs (cc ++ 0#2) 59#6 &&& mkR 63#6 31#5 0#5 0#5 3#5 63#6 = mkR 17#6 16#5 0#5 0#5 0#5 59#6
  rw [mkR_and]; simp [cc_and]
theorem cNglD (cc : BitVec 3) (fs : BitVec 5) (ft : BitVec 5) : Statement (.cNglD cc fs ft) := by
  show mkR 17#6 17#5 ft fs (cc ++ 0#2) 59#6 &&& mkR 63#6 31#5 0#5 0#5 3#5 63#6 = mkR 17#6 17#5 0#5 0#5 0#5 59#6
  rw [mkR_and]; simp [cc_and]
theorem cLtS (cc : BitVec 3) (fs : BitVec 5) (ft : BitVec 5) : Statement (.cLtS cc fs ft) := by
  show mkR 17#6 16#5 ft fs (cc ++ 0#2) 60#6 &&& mkR 63#6 31#5 0#5 0#5 3#5 63#6 = mkR 17#6 16#5 0#5 0#5 0#5 60#6
  rw [mkR_and]; simp [cc_and]
theorem cLtD (cc : BitVec 3) (fs : BitVec 5) (ft : BitVec 5) : Statement (.cLtD cc fs ft) := by
  show mkR 17#6 17#5 ft fs (cc ++ 0#2) 60#6 &&& mkR 63#6 31#5 0#5 0#5 3#5 63#6 = mkR 17#6 17#5 0#5 0#5 0#5 60#6
  rw [mkR_and]; simp [cc_and]
theorem cNgeS (cc : BitVec 3) (fs : BitVec 5) (ft : BitVec 5) : Statement (.cNgeS cc fs ft) := by
  show mkR 17#6 16#5 ft fs (cc ++ 0#2) 61#6 &&& mkR 63#6 31#5 0#5 0#5 3#5 63#6 = mkR 17#6 16#5 0#5 0#5 0#5 61#6
  rw [mkR_and]; simp [cc_and]
theorem cNgeD (cc : BitVec 3) (fs : BitVec 5) (ft : BitVec 5) : Statement (.cNgeD cc fs ft) := by
  show mkR 17#6 17#5 ft fs (cc ++ 0#2) 61#6 &&& mkR 63#6 31#5 0#5 0#5 3#5 63#6 = mkR 17#6 17#5 0#5 0#5 0#5 61#6
  rw [mkR_and]; simp [cc_and]
theorem cLeS (cc : BitVec 3) (fs : BitVec 5) (ft : BitVec 5) : Statement (.cLeS cc fs ft) := by
  show mkR 17#6 16#5 ft fs (cc ++ 0#2) 62#6 &&& mkR 63#6 31#5 0#5 0#5 3#5 63#6 = mkR 17#6 16#5 0#5 0#5 0#5 62#6
  rw [mkR_and]; simp [cc_and]
theorem cLeD (cc : BitVec 3) (fs : BitVec 5) (ft : BitVec 5) : Statement (.cLeD cc fs ft) := by
  show mkR 17#6 17#5 ft fs (cc ++ 0#2) 62#6 &&& mkR 63#6 31#5 0#5 0#5 3#5 63#6 = mkR 17#6 17#5 0#5 0#5 0#5 62#6
  rw [mkR_and]; simp [cc_and]
theorem cNgtS (cc : BitVec 3) (fs : BitVec 5) (ft : BitVec 5) : Statement (.cNgtS cc fs ft) := by
  show mkR 17#6 16#5 ft fs (cc ++ 0#2) 63#6 &&& mkR 63#6 31#5 0#5 0#5 3#5 63#6 = mkR 17#6 16#5 0#5 0#5 0#5 63#6
  rw [mkR_and]; simp [cc_and]
theorem cNgtD (cc : BitVec 3) (fs : BitVec 5) (ft : BitVec 5) : Statement (.cNgtD cc fs ft) := by
  show mkR 17#6 17#5 ft fs (cc ++ 0#2) 63#6 &&& mkR 63#6 31#5 0#5 0#5 3#5 63#6 = mkR 17#6 17#5 0#5 0#5 0#5 63#6
  rw [mkR_and]; simp [cc_and]
theorem bc1f (cc : BitVec 3) (offset : BitVec 16) : Statement (.bc1f cc offset) := by
  show mkI 17#6 8#5 (cc ++ 0#2) offset &&& mkI 63#6 31#5 3#5 0#16 = mkI 17#6 8#5 0#5 0#16
  rw [mkI_and]; simp [cc_and]
theorem bc1t (cc : BitVec 3) (offset : BitVec 16) : Statement (.bc1t cc offset) := by
  show mkI 17#6 8#5 (cc ++ 1#2) offset &&& mkI 63#6 31#5 3#5 0#16 = mkI 17#6 8#5 1#5 0#16
  rw [mkI_and]; simp [cc_and]
theorem bc1fl (cc : BitVec 3) (offset : BitVec 16) : Statement (.bc1fl cc offset) := by
  show mkI 17#6 8#5 (cc ++ 2#2) offset &&& mkI 63#6 31#5 3#5 0#16 = mkI 17#6 8#5 2#5 0#16
  rw [mkI_and]; simp [cc_and]
theorem bc1tl (cc : BitVec 3) (offset : BitVec 16) : Statement (.bc1tl cc offset) := by
  show mkI 17#6 8#5 (cc ++ 3#2) offset &&& mkI 63#6 31#5 3#5 0#16 = mkI 17#6 8#5 3#5 0#16
  rw [mkI_and]; simp [cc_and]
theorem syscall : Statement .syscall := rfl
theorem brk : Statement .brk := rfl
theorem sync : Statement .sync := rfl
theorem tlbr : Statement .tlbr := rfl
theorem tlbwi : Statement .tlbwi := rfl
theorem tlbwr : Statement .tlbwr := rfl
theorem tlbp : Statement .tlbp := rfl
theorem eret : Statement .eret := rfl
theorem wait : Statement .wait := rfl
theorem prefx : Statement .prefx := rfl

end FixedBits

end Sys2Proof.Laws
end

