-- ==== Sys2Proof/Tests/Slice0.lean ====
section
/-! SUPPORT. Sys2Proof/Tests/Slice0.lean: the smoke test of WellFormed; the decoding of a word of every instruction, its fields written
out from the encodings of spec/30_encoding.md; vectors of spec/95_test_vectors.md, each one instruction on a small state. -/

namespace Sys2Proof.Tests

set_option Elab.async false

open Sys2Proof.Machine

/-! ## WellFormed: an ill-formed term for each check -/

theorem test_jalr_same_register_is_ill_formed : ¬WellFormed (.jalr 7 7) := by decide +kernel
theorem test_link_branch_on_r31_is_ill_formed :
    ¬WellFormed (.bltzal 31 4) ∧ ¬WellFormed (.bgezal 31 4) ∧ ¬WellFormed (.bltzall 31 4) ∧ ¬WellFormed (.bgezall 31 4) := by decide +kernel
theorem test_reserved_cp0_register_is_ill_formed :
    ¬WellFormed (.mfc0 2 7) ∧ ¬WellFormed (.mtc0 2 31) ∧ ¬WellFormed (.dmfc0 2 18) ∧ ¬WellFormed (.dmtc0 2 25) := by decide +kernel
theorem test_doubleword_move_of_32_bits_is_ill_formed : ¬WellFormed (.dmfc0 2 12) ∧ ¬WellFormed (.dmtc0 2 0) := by decide +kernel
theorem test_reserved_fcr_is_ill_formed : ¬WellFormed (.cfc1 2 1) ∧ ¬WellFormed (.ctc1 2 30) := by decide +kernel
theorem test_legal_forms_are_well_formed :
    WellFormed (.jalr 31 4) ∧ WellFormed (.bgezal 30 4) ∧ WellFormed (.mtc0 2 12) ∧ WellFormed (.dmfc0 2 14) ∧
      WellFormed (.cfc1 2 31) ∧ WellFormed (.ctc1 2 0) := by decide +kernel

/-! ## Decoding: fields from the most significant bit down (spec/30_encoding.md R221 to R233) -/

/-- Every word decodes to its instruction. -/
def decodes (l : List (Word × Instr)) : Bool := l.all fun p => match decodeWord p.1 with | .ok i => i == p.2 | .error _ => false

theorem test_decode_loads_and_stores_1 : decodes [
    (0x20#6 ++ 0x15#5 ++ 0x12#5 ++ 0xA53C#16, .lb 0x12 0xA53C 0x15),
    (0x24#6 ++ 0x15#5 ++ 0x12#5 ++ 0xA53C#16, .lbu 0x12 0xA53C 0x15),
    (0x21#6 ++ 0x15#5 ++ 0x12#5 ++ 0xA53C#16, .lh 0x12 0xA53C 0x15),
    (0x25#6 ++ 0x15#5 ++ 0x12#5 ++ 0xA53C#16, .lhu 0x12 0xA53C 0x15),
    (0x23#6 ++ 0x15#5 ++ 0x12#5 ++ 0xA53C#16, .lw 0x12 0xA53C 0x15),
    (0x27#6 ++ 0x15#5 ++ 0x12#5 ++ 0xA53C#16, .lwu 0x12 0xA53C 0x15),
    (0x37#6 ++ 0x15#5 ++ 0x12#5 ++ 0xA53C#16, .ld 0x12 0xA53C 0x15),
    (0x28#6 ++ 0x15#5 ++ 0x12#5 ++ 0xA53C#16, .sb 0x12 0xA53C 0x15),
    (0x29#6 ++ 0x15#5 ++ 0x12#5 ++ 0xA53C#16, .sh 0x12 0xA53C 0x15),
    (0x2B#6 ++ 0x15#5 ++ 0x12#5 ++ 0xA53C#16, .sw 0x12 0xA53C 0x15),
    (0x3F#6 ++ 0x15#5 ++ 0x12#5 ++ 0xA53C#16, .sd 0x12 0xA53C 0x15),
    (0x22#6 ++ 0x15#5 ++ 0x12#5 ++ 0xA53C#16, .lwl 0x12 0xA53C 0x15),
    (0x26#6 ++ 0x15#5 ++ 0x12#5 ++ 0xA53C#16, .lwr 0x12 0xA53C 0x15),
    (0x1A#6 ++ 0x15#5 ++ 0x12#5 ++ 0xA53C#16, .ldl 0x12 0xA53C 0x15),
    (0x1B#6 ++ 0x15#5 ++ 0x12#5 ++ 0xA53C#16, .ldr 0x12 0xA53C 0x15),
    (0x2A#6 ++ 0x15#5 ++ 0x12#5 ++ 0xA53C#16, .swl 0x12 0xA53C 0x15)] = true := by decide +kernel

theorem test_decode_loads_and_stores_2 : decodes [
    (0x2E#6 ++ 0x15#5 ++ 0x12#5 ++ 0xA53C#16, .swr 0x12 0xA53C 0x15),
    (0x2C#6 ++ 0x15#5 ++ 0x12#5 ++ 0xA53C#16, .sdl 0x12 0xA53C 0x15),
    (0x2D#6 ++ 0x15#5 ++ 0x12#5 ++ 0xA53C#16, .sdr 0x12 0xA53C 0x15),
    (0x30#6 ++ 0x15#5 ++ 0x12#5 ++ 0xA53C#16, .ll 0x12 0xA53C 0x15),
    (0x34#6 ++ 0x15#5 ++ 0x12#5 ++ 0xA53C#16, .lld 0x12 0xA53C 0x15),
    (0x38#6 ++ 0x15#5 ++ 0x12#5 ++ 0xA53C#16, .sc 0x12 0xA53C 0x15),
    (0x3C#6 ++ 0x15#5 ++ 0x12#5 ++ 0xA53C#16, .scd 0x12 0xA53C 0x15),
    (0x33#6 ++ 0x15#5 ++ 0x13#5 ++ 0xA53C#16, .pref 0x13 0xA53C 0x15)] = true := by decide +kernel

theorem test_decode_alu_1 : decodes [
    (8#6 ++ 9#5 ++ 0x12#5 ++ 0x8F1E#16, .addi 0x12 9 0x8F1E),
    (9#6 ++ 9#5 ++ 0x12#5 ++ 0x8F1E#16, .addiu 0x12 9 0x8F1E),
    (0xA#6 ++ 9#5 ++ 0x12#5 ++ 0x8F1E#16, .slti 0x12 9 0x8F1E),
    (0xB#6 ++ 9#5 ++ 0x12#5 ++ 0x8F1E#16, .sltiu 0x12 9 0x8F1E),
    (0xC#6 ++ 9#5 ++ 0x12#5 ++ 0x8F1E#16, .andi 0x12 9 0x8F1E),
    (0xD#6 ++ 9#5 ++ 0x12#5 ++ 0x8F1E#16, .ori 0x12 9 0x8F1E),
    (0xE#6 ++ 9#5 ++ 0x12#5 ++ 0x8F1E#16, .xori 0x12 9 0x8F1E),
    (0x18#6 ++ 9#5 ++ 0x12#5 ++ 0x8F1E#16, .daddi 0x12 9 0x8F1E),
    (0x19#6 ++ 9#5 ++ 0x12#5 ++ 0x8F1E#16, .daddiu 0x12 9 0x8F1E),
    (0x1E0#11 ++ 0x12#5 ++ 0x8F1E#16, .lui 0x12 0x8F1E),
    (0#6 ++ 9#5 ++ 0x12#5 ++ 0x1B#5 ++ 0x20#11, .add 0x1B 9 0x12),
    (0#6 ++ 9#5 ++ 0x12#5 ++ 0x1B#5 ++ 0x21#11, .addu 0x1B 9 0x12),
    (0#6 ++ 9#5 ++ 0x12#5 ++ 0x1B#5 ++ 0x22#11, .sub 0x1B 9 0x12),
    (0#6 ++ 9#5 ++ 0x12#5 ++ 0x1B#5 ++ 0x23#11, .subu 0x1B 9 0x12),
    (0#6 ++ 9#5 ++ 0x12#5 ++ 0x1B#5 ++ 0x24#11, .and 0x1B 9 0x12),
    (0#6 ++ 9#5 ++ 0x12#5 ++ 0x1B#5 ++ 0x25#11, .or 0x1B 9 0x12)] = true := by decide +kernel

theorem test_decode_alu_2 : decodes [
    (0#6 ++ 9#5 ++ 0x12#5 ++ 0x1B#5 ++ 0x26#11, .xor 0x1B 9 0x12),
    (0#6 ++ 9#5 ++ 0x12#5 ++ 0x1B#5 ++ 0x27#11, .nor 0x1B 9 0x12),
    (0#6 ++ 9#5 ++ 0x12#5 ++ 0x1B#5 ++ 0x2A#11, .slt 0x1B 9 0x12),
    (0#6 ++ 9#5 ++ 0x12#5 ++ 0x1B#5 ++ 0x2B#11, .sltu 0x1B 9 0x12),
    (0#6 ++ 9#5 ++ 0x12#5 ++ 0x1B#5 ++ 0x2C#11, .dadd 0x1B 9 0x12),
    (0#6 ++ 9#5 ++ 0x12#5 ++ 0x1B#5 ++ 0x2D#11, .daddu 0x1B 9 0x12),
    (0#6 ++ 9#5 ++ 0x12#5 ++ 0x1B#5 ++ 0x2E#11, .dsub 0x1B 9 0x12),
    (0#6 ++ 9#5 ++ 0x12#5 ++ 0x1B#5 ++ 0x2F#11, .dsubu 0x1B 9 0x12),
    (0#11 ++ 0x12#5 ++ 0x1B#5 ++ 0xD#5 ++ 0#6, .sll 0x1B 0x12 0xD),
    (0#11 ++ 0x12#5 ++ 0x1B#5 ++ 0xD#5 ++ 2#6, .srl 0x1B 0x12 0xD),
    (0#11 ++ 0x12#5 ++ 0x1B#5 ++ 0xD#5 ++ 3#6, .sra 0x1B 0x12 0xD),
    (0#11 ++ 0x12#5 ++ 0x1B#5 ++ 0xD#5 ++ 0x38#6, .dsll 0x1B 0x12 0xD),
    (0#11 ++ 0x12#5 ++ 0x1B#5 ++ 0xD#5 ++ 0x3A#6, .dsrl 0x1B 0x12 0xD),
    (0#11 ++ 0x12#5 ++ 0x1B#5 ++ 0xD#5 ++ 0x3B#6, .dsra 0x1B 0x12 0xD),
    (0#11 ++ 0x12#5 ++ 0x1B#5 ++ 0xD#5 ++ 0x3C#6, .dsll32 0x1B 0x12 0xD),
    (0#11 ++ 0x12#5 ++ 0x1B#5 ++ 0xD#5 ++ 0x3E#6, .dsrl32 0x1B 0x12 0xD)] = true := by decide +kernel

theorem test_decode_alu_3 : decodes [
    (0#11 ++ 0x12#5 ++ 0x1B#5 ++ 0xD#5 ++ 0x3F#6, .dsra32 0x1B 0x12 0xD),
    (0#6 ++ 9#5 ++ 0x12#5 ++ 0x1B#5 ++ 4#11, .sllv 0x1B 0x12 9),
    (0#6 ++ 9#5 ++ 0x12#5 ++ 0x1B#5 ++ 6#11, .srlv 0x1B 0x12 9),
    (0#6 ++ 9#5 ++ 0x12#5 ++ 0x1B#5 ++ 7#11, .srav 0x1B 0x12 9),
    (0#6 ++ 9#5 ++ 0x12#5 ++ 0x1B#5 ++ 0x14#11, .dsllv 0x1B 0x12 9),
    (0#6 ++ 9#5 ++ 0x12#5 ++ 0x1B#5 ++ 0x16#11, .dsrlv 0x1B 0x12 9),
    (0#6 ++ 9#5 ++ 0x12#5 ++ 0x1B#5 ++ 0x17#11, .dsrav 0x1B 0x12 9)] = true := by decide +kernel

theorem test_decode_muldiv : decodes [
    (0#6 ++ 9#5 ++ 0x12#5 ++ 0x18#16, .mult 9 0x12),
    (0#6 ++ 9#5 ++ 0x12#5 ++ 0x19#16, .multu 9 0x12),
    (0#6 ++ 9#5 ++ 0x12#5 ++ 0x1C#16, .dmult 9 0x12),
    (0#6 ++ 9#5 ++ 0x12#5 ++ 0x1D#16, .dmultu 9 0x12),
    (0#6 ++ 9#5 ++ 0x12#5 ++ 0x1A#16, .div 9 0x12),
    (0#6 ++ 9#5 ++ 0x12#5 ++ 0x1B#16, .divu 9 0x12),
    (0#6 ++ 9#5 ++ 0x12#5 ++ 0x1E#16, .ddiv 9 0x12),
    (0#6 ++ 9#5 ++ 0x12#5 ++ 0x1F#16, .ddivu 9 0x12),
    (0#16 ++ 0x1B#5 ++ 0x10#11, .mfhi 0x1B),
    (0#6 ++ 9#5 ++ 0x11#21, .mthi 9),
    (0#16 ++ 0x1B#5 ++ 0x12#11, .mflo 0x1B),
    (0#6 ++ 9#5 ++ 0x13#21, .mtlo 9),
    (0#6 ++ 9#5 ++ 0x12#5 ++ 0x1B#5 ++ 0xB#11, .movn 0x1B 9 0x12),
    (0#6 ++ 9#5 ++ 0x12#5 ++ 0x1B#5 ++ 0xA#11, .movz 0x1B 9 0x12),
    (0#6 ++ 9#5 ++ 5#3 ++ 0#2 ++ 0x1B#5 ++ 1#11, .movf 0x1B 9 5),
    (0#6 ++ 9#5 ++ 5#3 ++ 1#2 ++ 0x1B#5 ++ 1#11, .movt 0x1B 9 5)] = true := by decide +kernel

theorem test_decode_jumps_and_branches_1 : decodes [
    (2#6 ++ 0x2B3C4D5#26, .j 0x2B3C4D5),
    (3#6 ++ 0x2B3C4D5#26, .jal 0x2B3C4D5),
    (0#6 ++ 9#5 ++ 8#21, .jr 9),
    (0#6 ++ 9#5 ++ 0#5 ++ 0x1B#5 ++ 9#11, .jalr 0x1B 9),
    (4#6 ++ 9#5 ++ 0x12#5 ++ 0xA53C#16, .beq 9 0x12 0xA53C),
    (5#6 ++ 9#5 ++ 0x12#5 ++ 0xA53C#16, .bne 9 0x12 0xA53C),
    (6#6 ++ 9#5 ++ 0#5 ++ 0xA53C#16, .blez 9 0xA53C),
    (7#6 ++ 9#5 ++ 0#5 ++ 0xA53C#16, .bgtz 9 0xA53C),
    (1#6 ++ 9#5 ++ 0#5 ++ 0xA53C#16, .bltz 9 0xA53C),
    (1#6 ++ 9#5 ++ 1#5 ++ 0xA53C#16, .bgez 9 0xA53C),
    (1#6 ++ 9#5 ++ 0x10#5 ++ 0xA53C#16, .bltzal 9 0xA53C),
    (1#6 ++ 9#5 ++ 0x11#5 ++ 0xA53C#16, .bgezal 9 0xA53C),
    (1#6 ++ 9#5 ++ 2#5 ++ 0xA53C#16, .bltzl 9 0xA53C),
    (1#6 ++ 9#5 ++ 3#5 ++ 0xA53C#16, .bgezl 9 0xA53C),
    (1#6 ++ 9#5 ++ 0x12#5 ++ 0xA53C#16, .bltzall 9 0xA53C),
    (1#6 ++ 9#5 ++ 0x13#5 ++ 0xA53C#16, .bgezall 9 0xA53C)] = true := by decide +kernel

theorem test_decode_jumps_and_branches_2 : decodes [
    (0x14#6 ++ 9#5 ++ 0x12#5 ++ 0xA53C#16, .beql 9 0x12 0xA53C),
    (0x15#6 ++ 9#5 ++ 0x12#5 ++ 0xA53C#16, .bnel 9 0x12 0xA53C),
    (0x16#6 ++ 9#5 ++ 0#5 ++ 0xA53C#16, .blezl 9 0xA53C),
    (0x17#6 ++ 9#5 ++ 0#5 ++ 0xA53C#16, .bgtzl 9 0xA53C)] = true := by decide +kernel

theorem test_decode_traps : decodes [
    (0#6 ++ 0x2A5#20 ++ 0xC#6, .syscall),
    (0#6 ++ 0x2A5#20 ++ 0xD#6, .brk),
    (0#6 ++ 9#5 ++ 0x12#5 ++ 0x2A5#10 ++ 0x30#6, .tge 9 0x12 0x2A5),
    (0#6 ++ 9#5 ++ 0x12#5 ++ 0x2A5#10 ++ 0x31#6, .tgeu 9 0x12 0x2A5),
    (0#6 ++ 9#5 ++ 0x12#5 ++ 0x2A5#10 ++ 0x32#6, .tlt 9 0x12 0x2A5),
    (0#6 ++ 9#5 ++ 0x12#5 ++ 0x2A5#10 ++ 0x33#6, .tltu 9 0x12 0x2A5),
    (0#6 ++ 9#5 ++ 0x12#5 ++ 0x2A5#10 ++ 0x34#6, .teq 9 0x12 0x2A5),
    (0#6 ++ 9#5 ++ 0x12#5 ++ 0x2A5#10 ++ 0x36#6, .tne 9 0x12 0x2A5),
    (1#6 ++ 9#5 ++ 8#5 ++ 0x8F1E#16, .tgei 9 0x8F1E),
    (1#6 ++ 9#5 ++ 9#5 ++ 0x8F1E#16, .tgeiu 9 0x8F1E),
    (1#6 ++ 9#5 ++ 0xA#5 ++ 0x8F1E#16, .tlti 9 0x8F1E),
    (1#6 ++ 9#5 ++ 0xB#5 ++ 0x8F1E#16, .tltiu 9 0x8F1E),
    (1#6 ++ 9#5 ++ 0xC#5 ++ 0x8F1E#16, .teqi 9 0x8F1E),
    (1#6 ++ 9#5 ++ 0xE#5 ++ 0x8F1E#16, .tnei 9 0x8F1E),
    (0xF#32, .sync)] = true := by decide +kernel

theorem test_decode_cp0_1 : decodes [
    (0x200#11 ++ 0x12#5 ++ 0x1B#5 ++ 0#11, .mfc0 0x12 0x1B),
    (0x204#11 ++ 0x12#5 ++ 0x1B#5 ++ 0#11, .mtc0 0x12 0x1B),
    (0x201#11 ++ 0x12#5 ++ 0x1B#5 ++ 0#11, .dmfc0 0x12 0x1B),
    (0x205#11 ++ 0x12#5 ++ 0x1B#5 ++ 0#11, .dmtc0 0x12 0x1B),
    (0x42000001#32, .tlbr),
    (0x42000002#32, .tlbwi),
    (0x42000006#32, .tlbwr),
    (0x42000008#32, .tlbp),
    (0x42000018#32, .eret),
    (0x42000020#32, .wait),
    (0x2F#6 ++ 0x15#5 ++ 0#5 ++ 0xA53C#16, .cacheIIndexInvalidate 0xA53C 0x15),
    (0x2F#6 ++ 0x15#5 ++ 4#5 ++ 0xA53C#16, .cacheIIndexLoadTag 0xA53C 0x15),
    (0x2F#6 ++ 0x15#5 ++ 8#5 ++ 0xA53C#16, .cacheIIndexStoreTag 0xA53C 0x15),
    (0x2F#6 ++ 0x15#5 ++ 0x10#5 ++ 0xA53C#16, .cacheIHitInvalidate 0xA53C 0x15),
    (0x2F#6 ++ 0x15#5 ++ 0x14#5 ++ 0xA53C#16, .cacheIFill 0xA53C 0x15),
    (0x2F#6 ++ 0x15#5 ++ 0x18#5 ++ 0xA53C#16, .cacheIHitWriteback 0xA53C 0x15)] = true := by decide +kernel

theorem test_decode_cp0_2 : decodes [
    (0x2F#6 ++ 0x15#5 ++ 1#5 ++ 0xA53C#16, .cacheDIndexWritebackInvalidate 0xA53C 0x15),
    (0x2F#6 ++ 0x15#5 ++ 5#5 ++ 0xA53C#16, .cacheDIndexLoadTag 0xA53C 0x15),
    (0x2F#6 ++ 0x15#5 ++ 9#5 ++ 0xA53C#16, .cacheDIndexStoreTag 0xA53C 0x15),
    (0x2F#6 ++ 0x15#5 ++ 0xD#5 ++ 0xA53C#16, .cacheDCreateDirtyExclusive 0xA53C 0x15),
    (0x2F#6 ++ 0x15#5 ++ 0x11#5 ++ 0xA53C#16, .cacheDHitInvalidate 0xA53C 0x15),
    (0x2F#6 ++ 0x15#5 ++ 0x15#5 ++ 0xA53C#16, .cacheDHitWritebackInvalidate 0xA53C 0x15),
    (0x2F#6 ++ 0x15#5 ++ 0x19#5 ++ 0xA53C#16, .cacheDHitWriteback 0xA53C 0x15),
    (0x2F#6 ++ 0x15#5 ++ 3#5 ++ 0xA53C#16, .cacheSValidClear 0xA53C 0x15),
    (0x2F#6 ++ 0x15#5 ++ 7#5 ++ 0xA53C#16, .cacheSIndexLoadTag 0xA53C 0x15),
    (0x2F#6 ++ 0x15#5 ++ 0xB#5 ++ 0xA53C#16, .cacheSIndexStoreTag 0xA53C 0x15),
    (0x2F#6 ++ 0x15#5 ++ 0x17#5 ++ 0xA53C#16, .cacheSCachePageInvalidate 0xA53C 0x15)] = true := by decide +kernel

theorem test_decode_fpu_moves_1 : decodes [
    (0x31#6 ++ 0x15#5 ++ 0xB#5 ++ 0xA53C#16, .lwc1 0xB 0xA53C 0x15),
    (0x35#6 ++ 0x15#5 ++ 0xB#5 ++ 0xA53C#16, .ldc1 0xB 0xA53C 0x15),
    (0x39#6 ++ 0x15#5 ++ 0xB#5 ++ 0xA53C#16, .swc1 0xB 0xA53C 0x15),
    (0x3D#6 ++ 0x15#5 ++ 0xB#5 ++ 0xA53C#16, .sdc1 0xB 0xA53C 0x15),
    (0x13#6 ++ 0x15#5 ++ 0xE#5 ++ 0#5 ++ 6#5 ++ 0#6, .lwxc1 6 0xE 0x15),
    (0x13#6 ++ 0x15#5 ++ 0xE#5 ++ 0#5 ++ 6#5 ++ 1#6, .ldxc1 6 0xE 0x15),
    (0x13#6 ++ 0x15#5 ++ 0xE#5 ++ 0x16#5 ++ 8#11, .swxc1 0x16 0xE 0x15),
    (0x13#6 ++ 0x15#5 ++ 0xE#5 ++ 0x16#5 ++ 9#11, .sdxc1 0x16 0xE 0x15),
    (0x13#6 ++ 0x15#5 ++ 0xE#5 ++ 0x13#5 ++ 0xF#11, .prefx),
    (0x220#11 ++ 0x12#5 ++ 0x16#5 ++ 0#11, .mfc1 0x12 0x16),
    (0x224#11 ++ 0x12#5 ++ 0x16#5 ++ 0#11, .mtc1 0x12 0x16),
    (0x221#11 ++ 0x12#5 ++ 0x16#5 ++ 0#11, .dmfc1 0x12 0x16),
    (0x225#11 ++ 0x12#5 ++ 0x16#5 ++ 0#11, .dmtc1 0x12 0x16),
    (0x222#11 ++ 0x12#5 ++ 0x16#5 ++ 0#11, .cfc1 0x12 0x16),
    (0x226#11 ++ 0x12#5 ++ 0x16#5 ++ 0#11, .ctc1 0x12 0x16),
    (0x4600#16 ++ 0x16#5 ++ 6#5 ++ 6#6, .movS 6 0x16)] = true := by decide +kernel

theorem test_decode_fpu_moves_2 : decodes [
    (0x4620#16 ++ 0x16#5 ++ 6#5 ++ 6#6, .movD 6 0x16),
    (0x230#11 ++ 5#3 ++ 0#2 ++ 0x16#5 ++ 6#5 ++ 0x11#6, .movfS 6 0x16 5),
    (0x230#11 ++ 5#3 ++ 1#2 ++ 0x16#5 ++ 6#5 ++ 0x11#6, .movtS 6 0x16 5),
    (0x230#11 ++ 0x12#5 ++ 0x16#5 ++ 6#5 ++ 0x12#6, .movzS 6 0x16 0x12),
    (0x230#11 ++ 0x12#5 ++ 0x16#5 ++ 6#5 ++ 0x13#6, .movnS 6 0x16 0x12),
    (0x231#11 ++ 5#3 ++ 0#2 ++ 0x16#5 ++ 6#5 ++ 0x11#6, .movfD 6 0x16 5),
    (0x231#11 ++ 5#3 ++ 1#2 ++ 0x16#5 ++ 6#5 ++ 0x11#6, .movtD 6 0x16 5),
    (0x231#11 ++ 0x12#5 ++ 0x16#5 ++ 6#5 ++ 0x12#6, .movzD 6 0x16 0x12),
    (0x231#11 ++ 0x12#5 ++ 0x16#5 ++ 6#5 ++ 0x13#6, .movnD 6 0x16 0x12)] = true := by decide +kernel

theorem test_decode_fpu_arithmetic_1 : decodes [
    (0x230#11 ++ 0xB#5 ++ 0x16#5 ++ 6#5 ++ 0#6, .addS 6 0x16 0xB),
    (0x231#11 ++ 0xB#5 ++ 0x16#5 ++ 6#5 ++ 0#6, .addD 6 0x16 0xB),
    (0x230#11 ++ 0xB#5 ++ 0x16#5 ++ 6#5 ++ 1#6, .subS 6 0x16 0xB),
    (0x231#11 ++ 0xB#5 ++ 0x16#5 ++ 6#5 ++ 1#6, .subD 6 0x16 0xB),
    (0x230#11 ++ 0xB#5 ++ 0x16#5 ++ 6#5 ++ 2#6, .mulS 6 0x16 0xB),
    (0x231#11 ++ 0xB#5 ++ 0x16#5 ++ 6#5 ++ 2#6, .mulD 6 0x16 0xB),
    (0x230#11 ++ 0xB#5 ++ 0x16#5 ++ 6#5 ++ 3#6, .divS 6 0x16 0xB),
    (0x231#11 ++ 0xB#5 ++ 0x16#5 ++ 6#5 ++ 3#6, .divD 6 0x16 0xB),
    (0x4600#16 ++ 0x16#5 ++ 6#5 ++ 4#6, .sqrtS 6 0x16),
    (0x4620#16 ++ 0x16#5 ++ 6#5 ++ 4#6, .sqrtD 6 0x16),
    (0x4600#16 ++ 0x16#5 ++ 6#5 ++ 5#6, .absS 6 0x16),
    (0x4620#16 ++ 0x16#5 ++ 6#5 ++ 5#6, .absD 6 0x16),
    (0x4600#16 ++ 0x16#5 ++ 6#5 ++ 7#6, .negS 6 0x16),
    (0x4620#16 ++ 0x16#5 ++ 6#5 ++ 7#6, .negD 6 0x16),
    (0x4600#16 ++ 0x16#5 ++ 6#5 ++ 0x15#6, .recipS 6 0x16),
    (0x4620#16 ++ 0x16#5 ++ 6#5 ++ 0x15#6, .recipD 6 0x16)] = true := by decide +kernel

theorem test_decode_fpu_arithmetic_2 : decodes [
    (0x4600#16 ++ 0x16#5 ++ 6#5 ++ 0x16#6, .rsqrtS 6 0x16),
    (0x4620#16 ++ 0x16#5 ++ 6#5 ++ 0x16#6, .rsqrtD 6 0x16),
    (0x4600#16 ++ 0x16#5 ++ 6#5 ++ 0xC#6, .roundWS 6 0x16),
    (0x4620#16 ++ 0x16#5 ++ 6#5 ++ 0xC#6, .roundWD 6 0x16),
    (0x4600#16 ++ 0x16#5 ++ 6#5 ++ 0xD#6, .truncWS 6 0x16),
    (0x4620#16 ++ 0x16#5 ++ 6#5 ++ 0xD#6, .truncWD 6 0x16),
    (0x4600#16 ++ 0x16#5 ++ 6#5 ++ 0xE#6, .ceilWS 6 0x16),
    (0x4620#16 ++ 0x16#5 ++ 6#5 ++ 0xE#6, .ceilWD 6 0x16),
    (0x4600#16 ++ 0x16#5 ++ 6#5 ++ 0xF#6, .floorWS 6 0x16),
    (0x4620#16 ++ 0x16#5 ++ 6#5 ++ 0xF#6, .floorWD 6 0x16),
    (0x4600#16 ++ 0x16#5 ++ 6#5 ++ 0x24#6, .cvtWS 6 0x16),
    (0x4620#16 ++ 0x16#5 ++ 6#5 ++ 0x24#6, .cvtWD 6 0x16),
    (0x4600#16 ++ 0x16#5 ++ 6#5 ++ 8#6, .roundLS 6 0x16),
    (0x4620#16 ++ 0x16#5 ++ 6#5 ++ 8#6, .roundLD 6 0x16),
    (0x4600#16 ++ 0x16#5 ++ 6#5 ++ 9#6, .truncLS 6 0x16),
    (0x4620#16 ++ 0x16#5 ++ 6#5 ++ 9#6, .truncLD 6 0x16)] = true := by decide +kernel

theorem test_decode_fpu_arithmetic_3 : decodes [
    (0x4600#16 ++ 0x16#5 ++ 6#5 ++ 0xA#6, .ceilLS 6 0x16),
    (0x4620#16 ++ 0x16#5 ++ 6#5 ++ 0xA#6, .ceilLD 6 0x16),
    (0x4600#16 ++ 0x16#5 ++ 6#5 ++ 0xB#6, .floorLS 6 0x16),
    (0x4620#16 ++ 0x16#5 ++ 6#5 ++ 0xB#6, .floorLD 6 0x16),
    (0x4600#16 ++ 0x16#5 ++ 6#5 ++ 0x25#6, .cvtLS 6 0x16),
    (0x4620#16 ++ 0x16#5 ++ 6#5 ++ 0x25#6, .cvtLD 6 0x16),
    (0x4620#16 ++ 0x16#5 ++ 6#5 ++ 0x20#6, .cvtSD 6 0x16),
    (0x4680#16 ++ 0x16#5 ++ 6#5 ++ 0x20#6, .cvtSW 6 0x16),
    (0x46A0#16 ++ 0x16#5 ++ 6#5 ++ 0x20#6, .cvtSL 6 0x16),
    (0x4600#16 ++ 0x16#5 ++ 6#5 ++ 0x21#6, .cvtDS 6 0x16),
    (0x4680#16 ++ 0x16#5 ++ 6#5 ++ 0x21#6, .cvtDW 6 0x16),
    (0x46A0#16 ++ 0x16#5 ++ 6#5 ++ 0x21#6, .cvtDL 6 0x16)] = true := by decide +kernel

theorem test_decode_fpu_multiply_add : decodes [
    (0x13#6 ++ 0x19#5 ++ 0xB#5 ++ 0x16#5 ++ 6#5 ++ 0x20#6, .maddS 6 0x19 0x16 0xB),
    (0x13#6 ++ 0x19#5 ++ 0xB#5 ++ 0x16#5 ++ 6#5 ++ 0x21#6, .maddD 6 0x19 0x16 0xB),
    (0x13#6 ++ 0x19#5 ++ 0xB#5 ++ 0x16#5 ++ 6#5 ++ 0x28#6, .msubS 6 0x19 0x16 0xB),
    (0x13#6 ++ 0x19#5 ++ 0xB#5 ++ 0x16#5 ++ 6#5 ++ 0x29#6, .msubD 6 0x19 0x16 0xB),
    (0x13#6 ++ 0x19#5 ++ 0xB#5 ++ 0x16#5 ++ 6#5 ++ 0x30#6, .nmaddS 6 0x19 0x16 0xB),
    (0x13#6 ++ 0x19#5 ++ 0xB#5 ++ 0x16#5 ++ 6#5 ++ 0x31#6, .nmaddD 6 0x19 0x16 0xB),
    (0x13#6 ++ 0x19#5 ++ 0xB#5 ++ 0x16#5 ++ 6#5 ++ 0x38#6, .nmsubS 6 0x19 0x16 0xB),
    (0x13#6 ++ 0x19#5 ++ 0xB#5 ++ 0x16#5 ++ 6#5 ++ 0x39#6, .nmsubD 6 0x19 0x16 0xB)] = true := by decide +kernel

theorem test_decode_fpu_compare_1 : decodes [
    (0x230#11 ++ 0xB#5 ++ 0x16#5 ++ 5#3 ++ 0x30#8, .cFS 5 0x16 0xB),
    (0x231#11 ++ 0xB#5 ++ 0x16#5 ++ 5#3 ++ 0x30#8, .cFD 5 0x16 0xB),
    (0x230#11 ++ 0xB#5 ++ 0x16#5 ++ 5#3 ++ 0x31#8, .cUnS 5 0x16 0xB),
    (0x231#11 ++ 0xB#5 ++ 0x16#5 ++ 5#3 ++ 0x31#8, .cUnD 5 0x16 0xB),
    (0x230#11 ++ 0xB#5 ++ 0x16#5 ++ 5#3 ++ 0x32#8, .cEqS 5 0x16 0xB),
    (0x231#11 ++ 0xB#5 ++ 0x16#5 ++ 5#3 ++ 0x32#8, .cEqD 5 0x16 0xB),
    (0x230#11 ++ 0xB#5 ++ 0x16#5 ++ 5#3 ++ 0x33#8, .cUeqS 5 0x16 0xB),
    (0x231#11 ++ 0xB#5 ++ 0x16#5 ++ 5#3 ++ 0x33#8, .cUeqD 5 0x16 0xB),
    (0x230#11 ++ 0xB#5 ++ 0x16#5 ++ 5#3 ++ 0x34#8, .cOltS 5 0x16 0xB),
    (0x231#11 ++ 0xB#5 ++ 0x16#5 ++ 5#3 ++ 0x34#8, .cOltD 5 0x16 0xB),
    (0x230#11 ++ 0xB#5 ++ 0x16#5 ++ 5#3 ++ 0x35#8, .cUltS 5 0x16 0xB),
    (0x231#11 ++ 0xB#5 ++ 0x16#5 ++ 5#3 ++ 0x35#8, .cUltD 5 0x16 0xB),
    (0x230#11 ++ 0xB#5 ++ 0x16#5 ++ 5#3 ++ 0x36#8, .cOleS 5 0x16 0xB),
    (0x231#11 ++ 0xB#5 ++ 0x16#5 ++ 5#3 ++ 0x36#8, .cOleD 5 0x16 0xB),
    (0x230#11 ++ 0xB#5 ++ 0x16#5 ++ 5#3 ++ 0x37#8, .cUleS 5 0x16 0xB),
    (0x231#11 ++ 0xB#5 ++ 0x16#5 ++ 5#3 ++ 0x37#8, .cUleD 5 0x16 0xB)] = true := by decide +kernel

theorem test_decode_fpu_compare_2 : decodes [
    (0x230#11 ++ 0xB#5 ++ 0x16#5 ++ 5#3 ++ 0x38#8, .cSfS 5 0x16 0xB),
    (0x231#11 ++ 0xB#5 ++ 0x16#5 ++ 5#3 ++ 0x38#8, .cSfD 5 0x16 0xB),
    (0x230#11 ++ 0xB#5 ++ 0x16#5 ++ 5#3 ++ 0x39#8, .cNgleS 5 0x16 0xB),
    (0x231#11 ++ 0xB#5 ++ 0x16#5 ++ 5#3 ++ 0x39#8, .cNgleD 5 0x16 0xB),
    (0x230#11 ++ 0xB#5 ++ 0x16#5 ++ 5#3 ++ 0x3A#8, .cSeqS 5 0x16 0xB),
    (0x231#11 ++ 0xB#5 ++ 0x16#5 ++ 5#3 ++ 0x3A#8, .cSeqD 5 0x16 0xB),
    (0x230#11 ++ 0xB#5 ++ 0x16#5 ++ 5#3 ++ 0x3B#8, .cNglS 5 0x16 0xB),
    (0x231#11 ++ 0xB#5 ++ 0x16#5 ++ 5#3 ++ 0x3B#8, .cNglD 5 0x16 0xB),
    (0x230#11 ++ 0xB#5 ++ 0x16#5 ++ 5#3 ++ 0x3C#8, .cLtS 5 0x16 0xB),
    (0x231#11 ++ 0xB#5 ++ 0x16#5 ++ 5#3 ++ 0x3C#8, .cLtD 5 0x16 0xB),
    (0x230#11 ++ 0xB#5 ++ 0x16#5 ++ 5#3 ++ 0x3D#8, .cNgeS 5 0x16 0xB),
    (0x231#11 ++ 0xB#5 ++ 0x16#5 ++ 5#3 ++ 0x3D#8, .cNgeD 5 0x16 0xB),
    (0x230#11 ++ 0xB#5 ++ 0x16#5 ++ 5#3 ++ 0x3E#8, .cLeS 5 0x16 0xB),
    (0x231#11 ++ 0xB#5 ++ 0x16#5 ++ 5#3 ++ 0x3E#8, .cLeD 5 0x16 0xB),
    (0x230#11 ++ 0xB#5 ++ 0x16#5 ++ 5#3 ++ 0x3F#8, .cNgtS 5 0x16 0xB),
    (0x231#11 ++ 0xB#5 ++ 0x16#5 ++ 5#3 ++ 0x3F#8, .cNgtD 5 0x16 0xB)] = true := by decide +kernel

theorem test_decode_fpu_branch : decodes [
    (0x228#11 ++ 5#3 ++ 0#2 ++ 0xA53C#16, .bc1f 5 0xA53C),
    (0x228#11 ++ 5#3 ++ 1#2 ++ 0xA53C#16, .bc1t 5 0xA53C),
    (0x228#11 ++ 5#3 ++ 2#2 ++ 0xA53C#16, .bc1fl 5 0xA53C),
    (0x228#11 ++ 5#3 ++ 3#2 ++ 0xA53C#16, .bc1tl 5 0xA53C)] = true := by decide +kernel

/-! ## Words that are no instruction -/

/-- The word is refused so. -/
def rejects (w : Word) (e : DecodeError) : Bool := match decodeWord w with | .ok _ => false | .error x => x == e

/-- Major opcode 28; COP2; an undefined CACHE operation; SLL with a nonzero rs field; CVT.S.S (spec/95_test_vectors.md C1.10, C1.11, B6, B8). -/
theorem test_rejected_words :
    rejects 0x70000000 .reserved = true ∧ rejects 0x48000000 .cop2 = true ∧ rejects 0xBC820000 .cacheUndefined = true ∧
      rejects 0x00251100 (.mustBeZero .none) = true ∧ rejects 0x46000820 .cop1Undefined = true := by decide +kernel

/-! ## One instruction on a small state -/

/-- The word, executed in `s`, answers a next state with the property. -/
def gives (w : Word) (s : State) (p : State → Bool) : Bool :=
  match decodeWord w with
  | .ok i => match exec i s with | .next t => p t | _ => false
  | .error _ => false

/-- The state after reset with values in r4 and r5. -/
def regs (a b : Dword) : State := (State.reset.writeGpr 4 a).writeGpr 5 b

/-- Rows of word, r4, r5 and the r2 they leave. -/
def gprRows (l : List (Word × Dword × Dword × Dword)) : Bool :=
  l.all fun (w, a, b, r) => gives w (regs a b) fun t => readGpr t 2 == r && !t.entered

/-- Rows of word, r4 and r5 that raise an exception of a code and leave r2. -/
def excRows (code : BitVec 5) (l : List (Word × Dword × Dword)) : Bool :=
  l.all fun (w, a, b) => gives w (regs a b) fun t => t.entered && t.cp0.cause.excCode == code && readGpr t 2 == 0

/-! ### spec/95_test_vectors.md B2 -/

theorem test_immediate_results : gprRows [
    (0x2082FFFF, 5, 0, 4), (0x2482FFFF, 0xFFFFFFFF80000000, 0, 0x7FFFFFFF), (0x2882FFFF, 0xFFFFFFFFFFFFFFFE, 0, 1),
    (0x2C82FFFF, 0, 0, 1), (0x3082FFFF, 0x123456789ABCDEF0, 0, 0xDEF0),
    (0x34821234, 0xFFFFFFFF80000000, 0, 0xFFFFFFFF80001234), (0x3882FFFF, 0xFF, 0, 0xFF00), (0x3C028000, 1, 1, 0xFFFFFFFF80000000),
    (0x6482FFFF, 0x8000000000000000, 0, 0x7FFFFFFFFFFFFFFF)] = true := by decide +kernel

theorem test_three_operand_results : gprRows [
    (0x00851021, 0x7FFFFFFF, 1, 0xFFFFFFFF80000000), (0x00851023, 0xFFFFFFFF80000000, 1, 0x7FFFFFFF),
    (0x00851024, 0xFF00FF00FF00FF00, 0x0FF00FF00FF00FF0, 0x0F000F000F000F00),
    (0x00851025, 0xFF00FF00FF00FF00, 0x0FF00FF00FF00FF0, 0xFFF0FFF0FFF0FFF0),
    (0x00851026, 0xFF00FF00FF00FF00, 0x0FF00FF00FF00FF0, 0xF0F0F0F0F0F0F0F0),
    (0x00851027, 0xFF00FF00FF00FF00, 0x0FF00FF00FF00FF0, 0x000F000F000F000F),
    (0x0085102A, 0xFFFFFFFFFFFFFFFF, 1, 1), (0x0085102B, 0xFFFFFFFFFFFFFFFF, 1, 0),
    (0x0085102D, 0x7FFFFFFFFFFFFFFF, 1, 0x8000000000000000), (0x0085102F, 0, 1, 0xFFFFFFFFFFFFFFFF)] = true := by decide +kernel

theorem test_shift_results : gprRows [
    (0x00051100, 0, 0x08000001, 0xFFFFFFFF80000010), (0x00051102, 0, 0xFFFFFFFF80000010, 0x08000001),
    (0x00051103, 0, 0xFFFFFFFF80000010, 0xFFFFFFFFF8000001), (0x00851004, 0x24, 1, 0x10),
    (0x00851006, 8, 0xFFFFFFFFFF000000, 0x00FF0000), (0x00851007, 8, 0xFFFFFFFFFF000000, 0xFFFFFFFFFFFF0000)] = true := by decide +kernel

theorem test_doubleword_shift_results : gprRows [
    (0x00051138, 0, 0x0800000000000001, 0x8000000000000010), (0x0005113A, 0, 0x8000000000000010, 0x0800000000000001),
    (0x0005113B, 0, 0x8000000000000010, 0xF800000000000001), (0x00851014, 63, 1, 0x8000000000000000),
    (0x00851016, 63, 0x8000000000000000, 1), (0x00851017, 63, 0x8000000000000000, 0xFFFFFFFFFFFFFFFF),
    (0x0005113C, 0, 1, 0x1000000000), (0x0005113E, 0, 0x8000001000000000, 0x08000001),
    (0x0005113F, 0, 0x8000001000000000, 0xFFFFFFFFF8000001)] = true := by decide +kernel

theorem test_integer_overflows : excRows 12 [
    (0x2082FFFF, 0xFFFFFFFF80000000, 0), (0x20821234, 0x7FFFF000, 0), (0x6082FFFF, 0x8000000000000000, 0),
    (0x00851020, 0x7FFFFFFF, 1), (0x00851022, 0xFFFFFFFF80000000, 1), (0x0085102C, 0x7FFFFFFFFFFFFFFF, 1),
    (0x0085102E, 0x8000000000000000, 1), (0x00850020, 0x7FFFFFFF, 1)] = true := by decide +kernel

/-! ### spec/95_test_vectors.md B3 -/

/-- Rows of word, r4, r5 and the HI and LO they leave. -/
def hiLoRows (l : List (Word × Dword × Dword × Dword × Dword)) : Bool :=
  l.all fun (w, a, b, h, o) => gives w (regs a b) fun t => t.hi == h && t.lo == o && !t.entered

theorem test_products_and_quotients : hiLoRows [
    (0x00850018, 0xFFFFFFFFFFFFFFFE, 3, 0xFFFFFFFFFFFFFFFF, 0xFFFFFFFFFFFFFFFA), (0x00850019, 0xFFFFFFFFFFFFFFFE, 3, 2, 0xFFFFFFFFFFFFFFFA),
    (0x0085001C, 0x7FFFFFFFFFFFFFFF, 0x7FFFFFFFFFFFFFFF, 0x3FFFFFFFFFFFFFFF, 1), (0x0085001D, 0xFFFFFFFFFFFFFFFF, 2, 1, 0xFFFFFFFFFFFFFFFE),
    (0x0085001A, 0xFFFFFFFFFFFFFFF9, 2, 0xFFFFFFFFFFFFFFFF, 0xFFFFFFFFFFFFFFFD), (0x0085001A, 0xFFFFFFFF80000000, 0xFFFFFFFFFFFFFFFF, 0, 0xFFFFFFFF80000000),
    (0x0085001B, 0xFFFFFFFFFFFFFFF9, 2, 1, 0x7FFFFFFC), (0x0085001E, 0x8000000000000000, 0xFFFFFFFFFFFFFFFF, 0, 0x8000000000000000),
    (0x0085001F, 0xFFFFFFFFFFFFFFF9, 2, 1, 0x7FFFFFFFFFFFFFFC)] = true := by decide +kernel

theorem test_moves_of_hi_and_lo :
    gives 0x00001012 (State.reset.setLo 42) (fun t => readGpr t 2 == 42) = true ∧
      gives 0x00001010 (State.reset.setHi 43) (fun t => readGpr t 2 == 43) = true ∧
      gives 0x00800011 (regs 0x0123456789ABCDEF 0) (fun t => t.hi == 0x0123456789ABCDEF && t.lo == 0) = true ∧
      gives 0x00800013 (regs 0x0123456789ABCDEF 0) (fun t => t.lo == 0x0123456789ABCDEF && t.hi == 0) = true := by decide +kernel

/-- The state after reset with every coprocessor usable, FCR31 and r2, r4, r5 given. -/
def withFcr (w : Word) (c a b : Dword) : State :=
  (((regs a b).writeGpr 2 c).setStatus { StatusReg.atReset with cu := 15 }).setFcr31 (unpackFcr31 w)

theorem test_conditional_moves :
    gives 0x0085100B (withFcr 0 1 9 0x100000000) (fun t => readGpr t 2 == 9) = true ∧
      gives 0x0085100B (withFcr 0 1 9 0) (fun t => readGpr t 2 == 1) = true ∧
      gives 0x0085100A (withFcr 0 1 9 0) (fun t => readGpr t 2 == 9) = true ∧
      gives 0x009C1001 (withFcr 0x80000000 1 9 0) (fun t => readGpr t 2 == 1) = true ∧
      gives 0x00811001 (withFcr 0x00800000 1 9 0) (fun t => readGpr t 2 == 9) = true ∧
      gives 0x00811001 (regs 9 0) (fun t => t.entered && t.cp0.cause.excCode == 11 && t.cp0.cause.ce == 1) = true := by decide +kernel

/-! ### spec/95_test_vectors.md B4 -/

/-- Rows of word, r4, r5, the address and the pending target they leave, and r31; the instruction stands at 0xFFFFFFFF80001000. -/
def flowRows (l : List (Word × Dword × Dword × Dword × Option Dword × Dword)) : Bool :=
  l.all fun (w, a, b, p, d, k) =>
    gives w ((regs a b).setSeq 0xFFFFFFFF80001000 none) fun t => t.pc == p && t.delay == d && readGpr t 31 == k

theorem test_jumps : flowRows [
    (0x08000800, 0, 0, 0xFFFFFFFF80001004, some 0xFFFFFFFF80002000, 0), (0x0C000800, 0, 0, 0xFFFFFFFF80001004, some 0xFFFFFFFF80002000, 0xFFFFFFFF80001008),
    (0x00800008, 0xFFFFFFFF80002002, 0, 0xFFFFFFFF80001004, some 0xFFFFFFFF80002002, 0),
    (0x0080F809, 0xFFFFFFFF80002000, 0, 0xFFFFFFFF80001004, some 0xFFFFFFFF80002000, 0xFFFFFFFF80001008)] = true := by decide +kernel

theorem test_branches : flowRows [
    (0x10850003, 7, 7, 0xFFFFFFFF80001004, some 0xFFFFFFFF80001010, 0), (0x10850003, 7, 8, 0xFFFFFFFF80001004, some 0xFFFFFFFF80001008, 0),
    (0x1000FFFF, 0, 0, 0xFFFFFFFF80001004, some 0xFFFFFFFF80001000, 0), (0x18800003, 0, 0, 0xFFFFFFFF80001004, some 0xFFFFFFFF80001010, 0),
    (0x1C800003, 0x8000000000000000, 0, 0xFFFFFFFF80001004, some 0xFFFFFFFF80001008, 0),
    (0x04800003, 0x80000000, 0, 0xFFFFFFFF80001004, some 0xFFFFFFFF80001008, 0), (0x04810003, 0, 0, 0xFFFFFFFF80001004, some 0xFFFFFFFF80001010, 0),
    (0x04900003, 5, 0, 0xFFFFFFFF80001004, some 0xFFFFFFFF80001008, 0xFFFFFFFF80001008),
    (0x04110003, 0, 0, 0xFFFFFFFF80001004, some 0xFFFFFFFF80001010, 0xFFFFFFFF80001008)] = true := by decide +kernel

theorem test_likely_branches : flowRows [
    (0x50850003, 7, 8, 0xFFFFFFFF80001008, none, 0), (0x50850003, 7, 7, 0xFFFFFFFF80001004, some 0xFFFFFFFF80001010, 0),
    (0x04920003, 5, 0, 0xFFFFFFFF80001008, none, 0xFFFFFFFF80001008)] = true := by decide +kernel

/-! ### spec/95_test_vectors.md B5 -/

/-- User mode at 0x400100, BEV = 0. -/
def userState : State :=
  (State.reset.setStatus { StatusReg.atReset with bev := false, erl := false, ksu := 2 }).setSeq 0x400100 none

theorem test_system_call :
    gives 0x0000000C userState (fun t => t.cp0.epc == 0x400100 && t.cp0.cause.excCode == 8 && !t.cp0.cause.bd && t.cp0.status.exl &&
      t.pc == 0xFFFFFFFF80000180) = true ∧
    gives 0x0048D14D userState (fun t => t.cp0.epc == 0x400100 && t.cp0.cause.excCode == 9 && t.pc == 0xFFFFFFFF80000180) = true := by decide +kernel

theorem test_traps_taken : excRows 13 [
    (0x00850030, 5, 5), (0x00850031, 0xFFFFFFFFFFFFFFFF, 0), (0x00850032, 0xFFFFFFFFFFFFFFFF, 0), (0x00850034, 3, 3),
    (0x04880064, 100, 0), (0x048A0064, 99, 0)] = true := by decide +kernel

theorem test_traps_not_taken : gprRows [
    (0x00850030, 0xFFFFFFFFFFFFFFFF, 0, 0), (0x00850033, 0xFFFFFFFFFFFFFFFF, 0, 0), (0x00850036, 3, 3, 0),
    (0x0489FFFF, 0xFFFFFFFFFFFFFFFE, 0, 0), (0x048B0064, 0xFFFFFFFFFFFFFFFF, 0, 0), (0x048CFFFF, 0xFFFF, 0, 0),
    (0x048E0064, 100, 0, 0)] = true := by decide +kernel

theorem test_sync_sends_the_buffered_store :
    gives 0x0000000F (State.reset.setWb [.single 0x100 0 [0xAB]]) (fun t => t.wb.isEmpty && memRead t.mem 0x100 == 0xAB) = true := by
  decide +kernel

/-! ### spec/95_test_vectors.md B1: memory 80 11 22 33 44 55 66 F7 at the uncached address 0xFFFFFFFFA0001000 -/

/-- That memory, in a byte order, the address in r4, a value in r2. -/
def mem8 (big : Bool) (v : Dword) : State :=
  let s := (State.reset.writeGpr 4 0xFFFFFFFFA0001000).writeGpr 2 v
  { s.setMem (memWriteBytes [] 0x1000 [0x80, 0x11, 0x22, 0x33, 0x44, 0x55, 0x66, 0xF7]) with
    boot := { s.boot with bigEndianMem := big } }

/-- Rows of word, byte order, r2 before and after. -/
def loadRows (l : List (Word × Bool × Dword × Dword)) : Bool :=
  l.all fun (w, big, v, r) => gives w (mem8 big v) fun t => readGpr t 2 == r && !t.entered

theorem test_loads : loadRows [
    (0x80820000, true, 0, 0xFFFFFFFFFFFFFF80), (0x90820000, false, 0, 0x80), (0x84820000, true, 0, 0xFFFFFFFFFFFF8011),
    (0x84820000, false, 0, 0x1180), (0x94820000, true, 0, 0x8011), (0x8C820000, true, 0, 0xFFFFFFFF80112233),
    (0x8C820004, false, 0, 0xFFFFFFFFF7665544), (0x9C820000, true, 0, 0x80112233),
    (0xDC820000, true, 0, 0x80112233445566F7), (0xDC820000, false, 0, 0xF766554433221180)] = true := by decide +kernel

theorem test_left_and_right_loads : loadRows [
    (0x88820001, true, 0xAABBCCDD, 0x112233DD), (0x98820004, true, 0x112233DD, 0x11223344),
    (0x98820001, false, 0xFFFFFFFFAABBCCDD, 0xFFFFFFFFAA332211), (0x88820004, false, 0xFFFFFFFFAA332211, 0x44332211),
    (0x68820003, true, 0x0102030405060708, 0x33445566F7060708), (0x6C820002, true, 0x0102030405060708, 0x0102030405801122),
    (0x6C820002, false, 0x0102030405060708, 0x0102F76655443322)] = true := by decide +kernel

/-- Rows of word, byte order, r2, and the eight bytes memory holds once the buffered writes are sent. -/
def storeRows (l : List (Word × Bool × Dword × List Byte)) : Bool :=
  l.all fun (w, big, v, bs) => gives w (mem8 big v) fun t => memReadBytes (drainAll t).mem 0x1000 8 == bs && !t.entered

theorem test_stores : storeRows [
    (0xA0820001, true, 0x123456789ABCDEF0, [0x80, 0xF0, 0x22, 0x33, 0x44, 0x55, 0x66, 0xF7]),
    (0xA4820002, true, 0x123456789ABCDEF0, [0x80, 0x11, 0xDE, 0xF0, 0x44, 0x55, 0x66, 0xF7]),
    (0xA4820002, false, 0x123456789ABCDEF0, [0x80, 0x11, 0xF0, 0xDE, 0x44, 0x55, 0x66, 0xF7]),
    (0xAC820004, true, 0x123456789ABCDEF0, [0x80, 0x11, 0x22, 0x33, 0x9A, 0xBC, 0xDE, 0xF0]),
    (0xAC820004, false, 0x123456789ABCDEF0, [0x80, 0x11, 0x22, 0x33, 0xF0, 0xDE, 0xBC, 0x9A]),
    (0xFC820000, true, 0x123456789ABCDEF0, [0x12, 0x34, 0x56, 0x78, 0x9A, 0xBC, 0xDE, 0xF0])] = true := by decide +kernel

theorem test_left_and_right_stores : storeRows [
    (0xA8820001, true, 0xAABBCCDD, [0x80, 0xAA, 0xBB, 0xCC, 0x44, 0x55, 0x66, 0xF7]),
    (0xB8820004, true, 0xAABBCCDD, [0x80, 0x11, 0x22, 0x33, 0xDD, 0x55, 0x66, 0xF7]),
    (0xB8820001, false, 0xAABBCCDD, [0x80, 0xDD, 0xCC, 0xBB, 0x44, 0x55, 0x66, 0xF7]),
    (0xB0820005, true, 0x0102030405060708, [0x80, 0x11, 0x22, 0x33, 0x44, 0x01, 0x02, 0x03]),
    (0xB4820001, true, 0x0102030405060708, [0x07, 0x08, 0x22, 0x33, 0x44, 0x55, 0x66, 0xF7])] = true := by decide +kernel

theorem test_misaligned_accesses :
    gives 0x84820001 (mem8 true 5) (fun t => t.cp0.cause.excCode == 4 && t.cp0.badVAddr == 0xFFFFFFFFA0001001 && readGpr t 2 == 5) = true ∧
      gives 0xDC820004 (mem8 true 5) (fun t => t.cp0.cause.excCode == 4 && t.cp0.badVAddr == 0xFFFFFFFFA0001004) = true ∧
      gives 0xE0820002 (mem8 true 5) (fun t => t.cp0.cause.excCode == 5 && t.cp0.badVAddr == 0xFFFFFFFFA0001002) = true := by decide +kernel

/-- An instruction is refused with a name. -/
def stopsWith (w : Word) (s : State) (r : Refusal) : Bool :=
  match decodeWord w with
  | .ok i => (match exec i s with | .refused e => e == r | _ => false)
  | .error _ => false

/-- spec/20_memory.md R182: LL, and SC without the link, at an uncached address. -/
theorem test_linked_pair_uncached :
    stopsWith 0xC0820000 (mem8 true 0) .llUncached = true ∧ stopsWith 0xE0820000 (mem8 true 8) .scUncached = true := by decide +kernel

/-- A cached address, write-back, with the link set on it and the line held: SC stores and writes 1. -/
theorem test_store_conditional_succeeds :
    gives 0xC0820000 ((((State.reset.writeGpr 4 0xFFFFFFFF80001000).writeGpr 2 8)).setCp0 { Cp0.atReset with configK0 := 3 }) (fun t =>
      readGpr t 2 == 0 && t.llBit && t.linkAddr == 0x1000 && gives 0xE0820000 (t.writeGpr 2 8) fun u => readGpr u 2 == 1 && lineBytes (dsetAt u 128).way0.data 0 4 == [0, 0, 0, 8] &&
        (dsetAt u 128).way0.w) = true := by decide +kernel

theorem test_prefetch_of_an_unmapped_address :
    gives 0xCC800008 State.reset (fun t => t.pc == 0xFFFFFFFFBFC00004 && !t.entered) = true := by decide +kernel

/-! ### spec/95_test_vectors.md B6, C2 -/

/-- Kernel mode after reset with CP0 as given. -/
def withCp0 (f : Cp0 → Cp0) : State := State.reset.setCp0 (f Cp0.atReset)

theorem test_moves_from_cp0 :
    gives 0x40026000 State.reset (fun t => readGpr t 2 == 0x400004) = true ∧
      gives 0x40027000 (withCp0 fun c => { c with epc := 0x180001234 }) (fun t => readGpr t 2 == 0xFFFFFFFF80001234) = true ∧
      gives 0x40227000 (withCp0 fun c => { c with epc := 0x180001234 }) (fun t => readGpr t 2 == 0x180001234) = true ∧
      gives 0x40026000 userState (fun t => t.cp0.cause.excCode == 11 && t.cp0.cause.ce == 0 && t.entered) = true := by decide +kernel

theorem test_moves_to_cp0 :
    gives 0x40826000 (State.reset.writeGpr 2 0x3040FF01) (fun t => packStatus t.cp0.status == 0x3040FF01) = true ∧
      gives 0x40803000 (withCp0 fun c => { c with wired := 8, random := 20 }) (fun t => t.cp0.wired == 0 && t.cp0.random == 47) = true ∧
      gives 0x40825800 { State.reset.writeGpr 2 0x1000 with timerInt := true }
        (fun t => t.cp0.compare == 0x1000 && !(packCause t).getLsbD 15) = true := by decide +kernel

/-- The four registers of C2.1 and Index = 5. -/
def tlbState : State :=
  withCp0 fun c => { c with
    index := 5, entryHi := unpackEntryHi 0x400011, entryLo0 := unpackEntryLo 0x48D1E, entryLo1 := unpackEntryLo 0x48D5E }

/-- The entry of C2.1. -/
def entryC21 : TlbEntry :=
  { mask := 0, r := 0, vpn2 := 0x200, asid := 0x11, g := false, pfn0 := 0x1234, c0 := 3, d0 := true, v0 := true, pfn1 := 0x1235,
    c1 := 3, d1 := true, v1 := true }

theorem test_tlb_write_and_probe :
    gives 0x42000002 tlbState (fun t => t.tlb[5] == entryC21) = true ∧
      gives 0x42000008 ((tlbState.setCp0 { tlbState.cp0 with index := 0 }).setTlb 5 entryC21)
        (fun t => !t.cp0.indexP && t.cp0.index == 5) = true ∧
      gives 0x42000008 tlbState (fun t => t.cp0.indexP) = true := by decide +kernel

theorem test_tlb_read :
    gives 0x42000001 ((withCp0 fun c => { c with index := 5 }).setTlb 5 entryC21) (fun t => t.cp0.pageMask == 0 &&
      packEntryHi t.cp0.entryHi == 0x400011 && packEntryLo t.cp0.entryLo0 == 0x48D1E && packEntryLo t.cp0.entryLo1 == 0x48D5E) = true ∧
    gives 0x42000006 (withCp0 fun c => { c with wired := 8, random := 20 }) (fun t => t.tlb[20] != State.reset.tlb[20]) = true := by
  decide +kernel

/-- Kernel mode without ERL, the entry of C2.1, an ASID. -/
def mappedState (asid : BitVec 8) : State :=
  (withCp0 fun c => { c with status := { StatusReg.atReset with erl := false, bev := false }, entryHi := ⟨0, 0, asid⟩ }).setTlb 5 entryC21

theorem test_translation :
    translate (mappedState 0x11) .load 0x400ABC = .ok (0x1234ABC, 3) ∧ translate (mappedState 0x11) .load 0x401ABC = .ok (0x1235ABC, 3) ∧
      translate (mappedState 0x12) .load 0x400ABC = .error (.exc (.tlbRefill false 0x400ABC)) ∧
      translate (mappedState 0x11) .load 0xFFFFFFFF80001234 = .ok (0x1234, 0) ∧
      translate (mappedState 0x11) .load 0xFFFFFFFFA0001234 = .ok (0x1234, 2) ∧
      translate State.reset .load 0x1000 = .ok (0x1000, 2) := by decide +kernel

/-- Reverse-endian User mode with 64-bit operations, r4 an address of the cached page of C2.1. -/
def reverseState : State :=
  let s := mappedState 0x11
  (s.setStatus { s.cp0.status with ksu := 2, re := true, ux := true }).writeGpr 4 0x400000

/-- The link address is Translate's (R285): LLD and SC of one address pair though the word lies at offset 4; LL of the word at 4 and SCD do
not. -/
theorem test_link_in_reverse_endian_mode :
    gives 0xD0820000 reverseState (fun t => t.linkAddr == 0x1234000 && gives 0xE0820000 (t.writeGpr 2 8) fun u =>
      readGpr u 2 == 1 && lineBytes (dsetAt u 0).way0.data 0 8 == [0, 0, 0, 0, 0, 0, 0, 8]) = true ∧
    gives 0xC0820004 reverseState (fun t => t.linkAddr == 0x1234004 && stopsWith 0xF0820000 t .scOtherAddress) = true := by decide +kernel

/-- Kernel mode with 64-bit addressing. -/
def kxState : State := withCp0 fun c => { c with status := { StatusReg.atReset with kx := true } }

theorem test_xkphys :
    translate kxState .load 0x900000001FC00000 = .ok (0x1FC00000, 2) ∧
      translate kxState .load 0x9000001000000000 = .error (.exc (.addressError false 0x9000001000000000)) := by decide +kernel

theorem test_exception_return :
    gives 0x42000018 ((withCp0 fun c => { c with status := unpackStatus 0xFF13, epc := 0x400104 }).setLlBit true)
      (fun t => t.pc == 0x400104 && packStatus t.cp0.status == 0xFF11 && !t.llBit && t.delay == none) = true ∧
    gives 0x42000018 (withCp0 fun c => { c with errorEpc := 0xFFFFFFFF80003000 })
      (fun t => t.pc == 0xFFFFFFFF80003000 && !t.cp0.status.erl) = true := by decide +kernel

theorem test_wait :
    gives 0x42000020 State.reset (fun t => t.standby) = true ∧
      gives 0x42000020 { State.reset with inp := { State.reset.inp with sysADIdle := false } } (fun t => !t.standby) = true := by decide +kernel

/-- kseg0 cached write-back; the data cache holds the line of 0x2020 in set 257, way 1, modified, its bytes 7. -/
def lineState : State :=
  let d := lineOfBytes (List.replicate 32 7)
  let l := dtagged { dlineInvalid with state := 3, tag := 2, w := true, data := d, par := linePar d, wbPage := true }
  ((withCp0 fun c => { c with configK0 := 3 }).putDSet 257 { way0 := dlineInvalid, way1 := l, fifo := false }).writeGpr 4 0xFFFFFFFF80002000

theorem test_data_cache_operations :
    gives 0xBC950020 lineState (fun t => memReadBytes (drainAll t).mem 0x2020 2 == [7, 7] && (dsetAt t 257).way1.state == 0) = true ∧
      gives 0xBC890020 (lineState.writeGpr 4 0xFFFFFFFF80006000) (fun t => (dsetAt t 257).way1.state == 0 && t.wb.isEmpty) = true ∧
      gives 0xBC990020 lineState (fun t => memRead (drainAll t).mem 0x203F == 7 && (dsetAt t 257).way1.state == 3 && !(dsetAt t 257).way1.w) = true := by
  decide +kernel

/-- The instruction cache holds the line of 0x20040 in set 2, way 0. -/
def ilineState : State :=
  let d : BitVec 256 := 0
  let l := itagged { ilineInvalid with valid := true, tag := 0x20, data := d, par := wordPar (linePar d) 8 }
  ((withCp0 fun c => { c with configK0 := 3 }).putISet 2 { way0 := l, way1 := l, fifo := false }).writeGpr 4 0xFFFFFFFF80020040

/-- The line of `lineState` unmodified, the parity of its W bit wrong. -/
def cleanState : State :=
  lineState.putDSet 257 { dsetAt lineState 257 with way1 := { (dsetAt lineState 257).way1 with w := false, wPar := true } }

/-- "Otherwise nothing" (R504). -/
theorem test_hit_writeback_of_an_unmodified_line :
    gives 0xBC990020 cleanState (fun t => (dsetAt t 257).way1 == (dsetAt cleanState 257).way1 && t.wb.isEmpty) = true := by decide +kernel

/-- Bad parity forced on two bytes of word 0, on all four of word 1 (spec/49_system_interface.md R721). -/
theorem test_word_parity_of_bad_bytes : fetchPar 0 0x3 = 1 ∧ fetchPar 0 0xF0 = 2 ∧ fetchPar 0x80 0x1 = 1 := by decide +kernel

theorem test_instruction_cache_operations :
    gives 0xBC900000 ilineState (fun t => !(isetAt t 2).way0.valid) = true ∧
      gives 0xBC800000 (ilineState.writeGpr 4 0xFFFFFFFF80004040) (fun t => !(isetAt t 2).way1.valid && (isetAt t 2).way0.valid) = true ∧
      gives 0xBC940000 (State.reset.writeGpr 4 0xFFFFFFFF80020040) (fun t => (isetAt t 2).way0.valid && (isetAt t 2).way0.tag == 0x20) = true := by
  decide +kernel

theorem test_secondary_cache_store_tag :
    gives 0xBC8B0000 ((withCp0 fun c => { c with tagLo := 0xABCD1000 }).writeGpr 4 0xFFFFFFFF80000040)
      (fun t => (slineAt t 2).valid && (slineAt t 2).tag == 0xABCD1000 >>> 15) = true := by decide +kernel

/-! ### spec/95_test_vectors.md B7, B8 -/

/-- Every coprocessor usable, FR = 0, FCR31 and values of f4, f6, f8; doublewords stand in pairs. -/
def fprs (w : Word) (a b c : Dword) : State := writeFgrD 8 c (writeFgrD 6 b (writeFgrD 4 a (withFcr w 0 0 0)))

/-- CFC1 of FCR31 empties the pipeline (spec/70_reset_and_hazards.md R871). -/
theorem test_read_of_fcr31_empties_the_pipeline :
    gives 0x4442F800 ((withFcr 0 0 0 0).setFpBusy true) (fun t => !t.fpBusy) = true := by decide +kernel

/-- Rows of word, FCR31, f4, f6, f8, f2 and FCR31 after, for operations that do not trap; `f` is the format of f2. -/
def fpRows (f : Fmt) (l : List (Word × Word × Dword × Dword × Dword × Dword × Word)) : Bool :=
  l.all fun (w, fc, a, b, c, r, fc') => gives w (fprs fc a b c) fun t => readFpr f t 2 == r && packFcr31 t.fcr31 == fc' && !t.entered

/-- Rows of word, FCR31, f4, f6 and FCR31 after, for operations that trap. -/
def fpTrapRows (l : List (Word × Word × Dword × Dword × Word)) : Bool :=
  l.all fun (w, fc, a, b, fc') => gives w (fprs fc a b 0) fun t =>
    t.entered && t.cp0.cause.excCode == 15 && packFcr31 t.fcr31 == fc' && readFgr t 2 == 0

theorem test_fp_add_and_subtract :
    fpRows .S [(0x46062080, 0, 0x3F800000, 0x40000000, 0, 0x40400000, 0), (0x46062080, 0x0001F07C, 0x3F800000, 0x40000000, 0, 0x40400000, 0x7C),
        (0x46062081, 0, 0x3F800000, 0x3F800000, 0, 0, 0), (0x46062081, 3, 0x3F800000, 0x3F800000, 0, 0x80000000, 3)] = true ∧
      fpRows .D [(0x46262080, 0, 0x3FF0000000000000, 0x3CA0000000000000, 0, 0x3FF0000000000000, 0x1004),
        (0x46262080, 2, 0x3FF0000000000000, 0x3CA0000000000000, 0, 0x3FF0000000000001, 0x1006)] = true := by decide +kernel

theorem test_fp_multiply_and_divide :
    fpRows .S [(0x46062082, 0, 0x7F7FFFFF, 0x40000000, 0, 0x7F800000, 0x5014), (0x46062082, 1, 0x7F7FFFFF, 0x40000000, 0, 0x7F7FFFFF, 0x5015),
      (0x46062082, 0x01000000, 0x00800000, 0x3F000000, 0, 0, 0x0100300C), (0x46062083, 0, 0x3F800000, 0x40400000, 0, 0x3EAAAAAB, 0x1004),
      (0x46062083, 4, 0x3F800000, 0, 0, 0x7F800000, 0x8024), (0x46062083, 0, 0x3F800000, 0x80000000, 0, 0xFF800000, 0x8020),
      (0x46062083, 0, 0, 0, 0, zext32 Config.defaultQNaN32, 0x10040)] = true := by decide +kernel

theorem test_fp_traps : fpTrapRows [
    (0x46062082, 0, 0x00800000, 0x3F000000, 0x20000), (0x46062083, 0x80, 0x3F800000, 0x40400000, 0x1080),
    (0x46062082, 0x200, 0x7F7FFFFF, 0x40000000, 0x5200), (0x46062080, 0, 1, 0x3F800000, 0x20000),
    (0x4620208D, 0, 0x41E0000000000000, 0, 0x20000), (0x46202088, 0, 0x4340000000000000, 0, 0x20000),
    (0x46A020A0, 0, 0x0010000000000000, 0, 0x20000)] = true := by decide +kernel

theorem test_fp_one_operand :
    fpRows .S [(0x46002084, 0, 0x40000000, 0, 0, 0x3FB504F3, 0x1004), (0x46002084, 0, 0x80000000, 0, 0, 0x80000000, 0),
        (0x46002084, 0, 0xBF800000, 0, 0, zext32 Config.defaultQNaN32, 0x10040), (0x46002085, 0, 0xC0200000, 0, 0, 0x40200000, 0),
        (0x46002095, 0, 0, 0, 0, 0x7F800000, 0x8020)] = true ∧
      fpRows .D [(0x46202087, 0, 0, 0, 0, 0x8000000000000000, 0)] = true := by decide +kernel

theorem test_fp_multiply_add : fpRows .S [
    (0x4D0620A0, 0, 0x40000000, 0x40400000, 0x3F800000, 0x40E00000, 0), (0x4D0620A0, 0, 0x3F800001, 0x3F800001, 0xBF800002, 0, 0x1004),
    (0x4D0620A8, 0, 0x40000000, 0x40400000, 0x3F800000, 0x40A00000, 0), (0x4D0620B0, 0, 0x40000000, 0x40400000, 0x3F800000, 0xC0E00000, 0),
    (0x4D0620B8, 0, 0x40000000, 0x40400000, 0x3F800000, 0xC0A00000, 0)] = true := by decide +kernel

theorem test_fp_to_integer :
    fpRows .S [(0x4600208C, 0, 0x40200000, 0, 0, 2, 0x1004), (0x4600208C, 0, 0x40600000, 0, 0, 4, 0x1004), (0x4600208D, 0, 0xC0200000, 0, 0, 0xFFFFFFFE, 0x1004),
        (0x4620208D, 0, 0x41DFFFFFFFC00000, 0, 0, 0x7FFFFFFF, 0), (0x4600208E, 0, 0xC0200000, 0, 0, 0xFFFFFFFE, 0x1004),
        (0x4600208F, 0, 0xC0200000, 0, 0, 0xFFFFFFFD, 0x1004), (0x460020A4, 2, 0x40200000, 0, 0, 3, 0x1006)] = true ∧
      fpRows .D [(0x46202088, 0, 0x433FFFFFFFFFFFFF, 0, 0, 0x001FFFFFFFFFFFFF, 0), (0x46002089, 0, 0xC0200000, 0, 0, 0xFFFFFFFFFFFFFFFE, 0x1004),
        (0x4600208B, 0, 0xC0200000, 0, 0, 0xFFFFFFFFFFFFFFFD, 0x1004), (0x462020A5, 2, 0x4004000000000000, 0, 0, 3, 0x1006)] = true := by
  decide +kernel

theorem test_fp_conversions :
    fpRows .S [(0x462020A0, 0, 0x3FB999999999999A, 0, 0, 0x3DCCCCCD, 0x1004), (0x462020A0, 0, 0x7FEFFFFFFFFFFFFF, 0, 0, 0x7F800000, 0x5014),
        (0x468020A0, 0, 0x01000001, 0, 0, 0x4B800000, 0x1004)] = true ∧
      fpRows .D [(0x460020A1, 0, 0x3FC00000, 0, 0, 0x3FF8000000000000, 0), (0x468020A1, 0, 0xFFFFFFFF, 0, 0, 0xBFF0000000000000, 0),
        (0x46A020A1, 0, 0x000FFFFFFFFFFFFF, 0, 0, 0x432FFFFFFFFFFFFE, 0)] = true := by decide +kernel

/-- Rows of word, f4, f6 and FCR31 after a compare from FCR31 = 0. -/
def compareRows (l : List (Word × Dword × Dword × Word)) : Bool :=
  l.all fun (w, a, b, fc) => gives w (fprs 0 a b 0) fun t => packFcr31 t.fcr31 == fc && !t.entered

theorem test_compares : compareRows [
    (0x4606203C, 0x3F800000, 0x40000000, 0x00800000), (0x4606203C, 0x7FBFFFFF, 0x40000000, 0x00010040),
    (0x46062034, 0x7FBFFFFF, 0x40000000, 0), (0x46062031, 0x7FBFFFFF, 0x40000000, 0x00800000),
    (0x46062032, 0, 0x80000000, 0x00800000), (0x4626233C, 0x3FF0000000000000, 0x4000000000000000, 0x08000000)] = true := by decide +kernel

/-- Rows of word and FCR31, at 0xFFFFFFFF80001000, and where control goes. -/
def fpFlowRows (l : List (Word × Word × Dword × Option Dword)) : Bool :=
  l.all fun (w, fc, p, d) => gives w ((withFcr fc 0 0 0).setSeq 0xFFFFFFFF80001000 none) fun t => t.pc == p && t.delay == d

theorem test_condition_branches : fpFlowRows [
    (0x45000003, 0, 0xFFFFFFFF80001004, some 0xFFFFFFFF80001010), (0x4509FFFE, 0x04000000, 0xFFFFFFFF80001004, some 0xFFFFFFFF80000FFC),
    (0x45020003, 0x00800000, 0xFFFFFFFF80001008, none), (0x45030003, 0x00800000, 0xFFFFFFFF80001004, some 0xFFFFFFFF80001010)] = true := by decide +kernel

theorem test_fp_moves :
    gives 0x44022000 (fprs 0 0xBF800000 0 0) (fun t => readGpr t 2 == 0xFFFFFFFFBF800000) = true ∧
      gives 0x44822000 (withFcr 0 0x3F800000 0 0) (fun t => readFgrS t 4 == 0x3F800000) = true ∧
      gives 0x44222000 (fprs 0 0x3FF8000000000000 0 0) (fun t => readGpr t 2 == 0x3FF8000000000000) = true ∧
      gives 0x4442F800 (withFcr 0x00800F83 0 0 0) (fun t => readGpr t 2 == 0x00800F83) = true ∧
      gives 0x44C2F800 (withFcr 0 0x00010800 0 0) (fun t => packFcr31 t.fcr31 == 0x00010800 && t.cp0.cause.excCode == 15) = true ∧
      gives 0x46202086 (fprs 0 0x3FF8000000000000 0 0) (fun t => readFgrD t 2 == 0x3FF8000000000000) = true := by decide +kernel

theorem test_fp_conditional_moves :
    gives 0x462C2091 (fprs 0x08000000 5 0 0) (fun t => readFgrD t 2 == 0) = true ∧
      gives 0x46252091 (fprs 0x02000000 5 0 0) (fun t => readFgrD t 2 == 5) = true ∧
      gives 0x46062092 ((fprs 0 5 0 0).writeGpr 6 0x100000000) (fun t => readFgrD t 2 == 0) = true ∧
      gives 0x46062093 ((fprs 0 5 0 0).writeGpr 6 1) (fun t => readFgrS t 2 == 5) = true := by decide +kernel

/-- The memory of `mem8` with every coprocessor usable; f2 as given. -/
def fpMem (v : Dword) : State := writeFgrD 2 v ((mem8 true 0).setStatus { StatusReg.atReset with cu := 15 })

theorem test_fp_loads_and_stores :
    gives 0xC4820000 (fpMem 0) (fun t => readFgrS t 2 == 0x80112233) = true ∧
      gives 0xD4820000 (fpMem 0) (fun t => readFgrS t 2 == 0x445566F7 && readFgrS t 3 == 0x80112233) = true ∧
      gives 0xE4820000 (fpMem 0x3FC00000) (fun t => memReadBytes (drainAll t).mem 0x1000 4 == [0x3F, 0xC0, 0, 0]) = true ∧
      gives 0xF4820000 (fpMem 0x3FF8000000000000) (fun t => memReadBytes (drainAll t).mem 0x1000 4 == [0x3F, 0xF8, 0, 0]) = true ∧
      gives 0x4C850080 ((fpMem 0).writeGpr 5 4) (fun t => readFgrS t 2 == 0x445566F7) = true ∧
      gives 0x4C850080 (((fpMem 0).writeGpr 4 0x10).writeGpr 5 0xFFFFFFFF80001000) (fun t => t.entered && t.cp0.cause.excCode == 4) = true := by
  decide +kernel

/-! ### spec/95_test_vectors.md C1, C3, C4, C5: steps -/

/-- One step answers a next state with the property. -/
def steps (s : State) (p : State → Bool) : Bool := match step s with | .next t => p t | _ => false

theorem test_step_runs_the_placed_word :
    steps (State.reset.withFetchWord 32 0x34021234) (fun t => readGpr t 2 == 0x1234 && t.pc == 0xFFFFFFFFBFC00004 && t.cp0.random == 46 &&
      t.cp0.count == 1) = true := by decide +kernel

/-- C1.1: User mode, ASID 5, PTEBase set, at 0x400010. -/
def refillState : State :=
  (withCp0 fun c => { c with
    status := { StatusReg.atReset with bev := false, erl := false, ksu := 2 }, entryHi := ⟨0, 0, 5⟩
    contextPTEBase := 0x1FFFFFFFF80 }).setSeq 0x400010 none

theorem test_tlb_refill_entry :
    let t := takeException (.tlbRefill false 0x12345678) refillState
    t.cp0.badVAddr = 0x12345678 ∧ cp0Value t 4 = 0xFFFFFFFFC0091A20 ∧ packEntryHi t.cp0.entryHi = 0x12344005 ∧ t.cp0.cause.excCode = 2 ∧
      t.cp0.epc = 0x400010 ∧ t.pc = 0xFFFFFFFF80000000 ∧
      (takeException (.tlbRefill false 0x12345678) (refillState.setStatus { refillState.cp0.status with ux := true })).pc = 0xFFFFFFFF80000080 ∧
      (takeException (.tlbRefill false 0x12345678) (refillState.setStatus { refillState.cp0.status with exl := true })).pc = 0xFFFFFFFF80000180 := by
  decide +kernel

/-- C1.6: an interrupt on IP2 at 0xFFFFFFFF80002000. -/
def interruptState (status : Word) : State :=
  { (withCp0 fun c => { c with status := unpackStatus status }).setSeq 0xFFFFFFFF80002000 none with intPin := 1 }

theorem test_interrupt :
    steps (interruptState 0x8401) (fun t => t.cp0.epc == 0xFFFFFFFF80002000 && t.cp0.cause.excCode == 0 &&
      packStatus t.cp0.status == 0x8403 && t.pc == 0xFFFFFFFF80000180) = true ∧
    steps (interruptState 0x8400) (fun t => !t.entered && (packCause t).getLsbD 10) = true := by decide +kernel

theorem test_warm_reset :
    steps { interruptState 0xFF01 with intPin := 0, inputs := [{ EnvInput.quiet 0 false with reset := some .warm }] } (fun t =>
      t.cp0.errorEpc == 0xFFFFFFFF80002000 && packStatus t.cp0.status == 0x50FF05 && t.pc == 0xFFFFFFFFBFC00000) = true ∧
    steps { interruptState 0xFF01 with intPin := 0, nmiPin := true } (fun t =>
      t.cp0.errorEpc == 0xFFFFFFFF80002000 && packStatus t.cp0.status == 0x50FF05 && t.pc == 0xFFFFFFFFBFC00000) = true := by decide +kernel

theorem test_cold_reset :
    steps { State.reset with inputs := [{ EnvInput.quiet 0 false with reset := some (.cold BootMode.atReset) }] }
      (fun t => t.pc == 0xFFFFFFFFBFC00000 && t.cp0.random == 47 && t.cp0.status.bev && !t.cp0.status.sr) = true := by decide +kernel

theorem test_external_writes :
    (writeIntReg 0x00010001 State.reset).intReg = 1 ∧ (writeIntReg 0x00010000 { State.reset with intReg := 0x7F }).intReg = 0x7E ∧
      (writeIntReg 0x0000003F State.reset).intReg = 0 ∧ (pendingBits (writeIntReg 0x00010001 State.reset)).getLsbD 2 = true := by decide +kernel

theorem test_count_wraps_and_compare_latches :
    (countStep (withCp0 fun c => { c with count := 0xFFFFFFFF, compare := 5 })).cp0.count = 0 ∧
      (countStep (withCp0 fun c => { c with count := 0xFFF, compare := 0x1000 })).timerInt = true := by decide +kernel

theorem test_bus_errors :
    gives 0x8C820000 { mem8 true 0 with inp := { State.reset.inp with dataResponse := { ReadResponse.good with erroneous := true } } }
      (fun t => t.entered && t.cp0.cause.excCode == 7) = true ∧
    gives 0x8C820000 { mem8 true 0 with inp := { State.reset.inp with dataResponse := { ReadResponse.good with badParity := 1 } } }
      (fun t => t.entered && t.cp0.status.erl && t.pc == 0xFFFFFFFFBFC00300) = true := by decide +kernel

/-- The word written and the data cycle of a byte store: lane 3 holds the byte, the generated check bits count it (R711, R714, R721). -/
theorem test_bus_encodings :
    busCommand (.write 0x1F000003 0 [0] 0) = 0x058 ∧ busCommand (.read 0x1F000004 0 4) = 0x01B ∧
      busCommand (.readBlock 0x2010 0 false false) = 0x011 ∧ subblockOrder 2 = [2, 3, 0, 1] ∧
      busCommand (.writeBlock 0x2000 0 false [] 0 0) = 0x051 ∧ busDataIdentifier false false false 0 = 0x1C0 ∧
      busDataIdentifier true false false 0 = 0x140 ∧ busLanes false 0xFFFFFFFFFFFFFFFF 3 [0xAB] = 0xFFFFFFFFABFFFFFF ∧
      busLanes true 0xFFFFFFFFFFFFFFFF 3 [0xAB] = 0xFFFFFFABFFFFFFFF ∧ laneParity 0x0100000000000007 = 0x81 := by decide +kernel

/-- A byte stored to a ROM is not kept, a device answers with what it has (spec/20_memory.md R141, R142). -/
theorem test_physical_map :
    let s := { mem8 true 9 with
      physMap := [⟨0x1000, 4, .rom⟩, ⟨0x1004, 4, .device⟩]
      inp := { State.reset.inp with dataResponse := { ReadResponse.good with device := 0xDDCCBBAA <<< 32 } } }
    gives 0xA0820000 s (fun t => memRead (drainAll t).mem 0x1000 == 0x80) = true ∧
      gives 0x8C820004 s (fun t => readGpr t 2 == 0xFFFFFFFFAABBCCDD) = true := by decide +kernel

/-- A store to code may be unseen by the next fetch, and is seen where the environment does not hold it back (spec/20_memory.md R186). -/
theorem test_store_to_code :
    gives 0xAC820000 (mem8 true 9) (fun t =>
      (match fetchBytes (t.setSeq 0xFFFFFFFFA0001000 none) with | .ok bs _ => bs == [0, 0, 0, 9] | _ => false) &&
      (match fetchBytes { t.setSeq 0xFFFFFFFFA0001000 none with inp := { t.inp with stale := [(.fetch, 0)] } } with
        | .ok bs _ => bs == [0x80, 0x11, 0x22, 0x33] | _ => false)) = true := by decide +kernel

/-- Two rises of IntReg[6] in one step are two NMIs (spec/60_exceptions.md R794, D36). -/
theorem test_nmi_rises :
    steps { State.reset with inputs := [{ EnvInput.quiet 0 false with
        ext := [.write 0 4 0x400040, .write 0 4 0x400000, .write 0 4 0x400040] }] }
      (fun t => t.pc == 0xFFFFFFFFBFC00000 && t.cp0.status.sr && t.nmiPending == 1) = true := by decide +kernel

/-- An NMI over a buffered write: kept (spec/70_reset_and_hazards.md R853) or emptied (spec/10_state.md R128), as the environment says. -/
theorem test_nmi_write_buffer :
    steps { State.reset with wb := [.single 0x1000 0 [9]], inputs := [EnvInput.quiet 0 true] }
      (fun t => t.cp0.status.sr && t.wb.length == 1 && t.mem.isEmpty) = true ∧
    steps { State.reset with wb := [.single 0x1000 0 [9]], inputs := [{ EnvInput.quiet 0 true with nmiEmptiesBuffer := true }] }
      (fun t => t.cp0.status.sr && t.wb.isEmpty && 1 ≤ t.free) = true := by decide +kernel

/-- A warm reset in the middle of a store: the registers are as before it, the target holds a free value (spec/70_reset_and_hazards.md R852). -/
theorem test_reset_midway :
    steps { (mem8 true 9).withFetchWord 32 0xAC820000 with
        inputs := [{ EnvInput.quiet 0 false with reset := some .warm, resetMidway := true }] }
      (fun t => t.cp0.errorEpc == 0xFFFFFFFFBFC00000 && readGpr t 2 == 9 && t.wb.isEmpty && 4 ≤ t.free) = true := by
  decide +kernel

end Sys2Proof.Tests
end

