-- ==== Sys2Proof/Tests/Witnesses.lean ====
section
/-! SUPPORT. Sys2Proof/Tests/Witnesses.lean: for each statement of Sys2Proof/Certificates/Slice0/Obligations.lean that has hypotheses,
concrete states and operands that meet all of them, one instance for each clause, at the ends of its ranges where it has one. -/

namespace Sys2Proof.Tests

set_option Elab.async false

open Sys2Proof.Machine

/-! ## Encoding and the step -/

theorem witness_EncodeOfDecode :
    decodeWord 0x8C820008 = .ok (.lw 2 8 4) ∧ Instr.lw 2 8 4 ≠ .syscall ∧ Instr.lw 2 8 4 ≠ .brk ∧ Instr.lw 2 8 4 ≠ .prefx := by decide

/-- ORI r2, r0, 0x1234 at the reset vector. -/
def oriState : State := State.reset.withFetchWord 32 0x34021234

theorem witness_StepRunsDecodedInstruction : ∃ u v bs i, Ready oriState u ∧ fetchBytes u = .ok bs v ∧
    decode v.boot.bigEndianMem bs = .ok i ∧ interruptRequest u = false :=
  ⟨_, _, _, .ori 2 0 0x1234, ⟨_, rfl, rfl, rfl, rfl, rfl, rfl⟩, rfl, by decide +kernel, by decide +kernel⟩

/-- An outcome that goes on. -/
def goesOn (r : Result) : Bool := match r with | .next _ => true | _ => false

theorem next_of_goesOn {r : Result} (h : goesOn r = true) : ∃ t, r = .next t := by
  cases r with
  | next t => exact ⟨t, rfl⟩
  | fault f => simp [goesOn] at h
  | refused e => simp [goesOn] at h

/-- Wired and Random at 47, a full write buffer, one byte listed. -/
def fullState : State :=
  let e : WbEntry := .single 0x100 0 [1]
  { State.reset.setWb [e, e, e, e] with mem := [(5, 7)], cp0 := { Cp0.atReset with wired := 47 } }

theorem fullState_inv : Inv fullState := by
  constructor
  case buffer => unfold WriteBufferFits; decide +kernel
  all_goals decide +kernel

theorem witness_StepKeepsInvariant : ∃ t, Inv fullState ∧ step fullState = .next t :=
  (next_of_goesOn (r := step fullState) (by decide +kernel)).imp fun _ h => ⟨fullState_inv, h⟩

/-! ## Integer instructions -/

theorem witness_AluAndShiftResults :
    (∃ w, (aluResult (regs 5 6) (.daddiu 2 4 0x8000) = some w ∨ shiftResult (regs 5 6) (.daddiu 2 4 0x8000) = some w) ∧
      WideOk w.wide (regs 5 6) ∧ w.proper = true) ∧
    ∃ w, (aluResult (regs 0x80000000 6) (.sll 2 4 31) = some w ∨ shiftResult (regs 0x80000000 6) (.sll 2 4 31) = some w) ∧
      WideOk w.wide (regs 0x80000000 6) ∧ w.proper = false :=
  ⟨⟨_, .inl rfl, by unfold WideOk; decide +kernel, by decide +kernel⟩, ⟨_, .inr rfl, by unfold WideOk; decide +kernel, by decide +kernel⟩⟩

theorem witness_TrappingArithmetic :
    (∃ w, trappingResult (regs 0x7FFFFFFE 1) (.add 2 4 5) = some w ∧ WideOk w.wide (regs 0x7FFFFFFE 1) ∧ w.proper = true ∧
      FitsSigned w.wide w.exact) ∧
    (∃ w, trappingResult (regs 0x7FFFFFFFFFFFFFFF 1) (.dadd 2 4 5) = some w ∧ WideOk w.wide (regs 0x7FFFFFFFFFFFFFFF 1) ∧
      w.proper = true ∧ ¬FitsSigned w.wide w.exact) ∧
    ∃ w, trappingResult (regs 0x80000000 1) (.add 2 4 5) = some w ∧ WideOk w.wide (regs 0x80000000 1) ∧ w.proper = false :=
  ⟨⟨_, rfl, by unfold WideOk; decide +kernel, by decide +kernel, by unfold FitsSigned; decide +kernel⟩,
    ⟨_, rfl, by unfold WideOk; decide +kernel, by decide +kernel, by unfold FitsSigned; decide +kernel⟩,
    ⟨_, rfl, by unfold WideOk; decide +kernel, by decide +kernel⟩⟩

theorem witness_MultiplyDivide :
    (∃ w, hiLoResult (regs 0x8000000000000000 0xFFFFFFFFFFFFFFFF) (.ddiv 4 5) = some w ∧
      WideOk w.wide (regs 0x8000000000000000 0xFFFFFFFFFFFFFFFF) ∧ w.known = true) ∧
    ∃ w, hiLoResult (regs 7 0) (.div 4 5) = some w ∧ WideOk w.wide (regs 7 0) ∧ w.known = false :=
  ⟨⟨_, rfl, by unfold WideOk; decide +kernel, by decide +kernel⟩, ⟨_, rfl, by unfold WideOk; decide +kernel, by decide +kernel⟩⟩

/-- Kernel mode, every coprocessor usable. -/
def allUsable : State := withFcr 0 1 9 0

theorem witness_ConditionalMoves :
    Mips4Ok (regs 9 0) ∧ Cp1Ok allUsable ∧ Mips4Ok allUsable ∧ FccSettled allUsable := by
  unfold Mips4Ok Cp1Ok FccSettled; decide +kernel

/-! ## Jumps and branches -/

theorem witness_JumpsAndBranches :
    (∃ b, branchForm (regs 7 7) (.beq 4 5 0x8000) = some b ∧ b.legal = true ∧ b.taken = true ∧ (regs 7 7).delay = none) ∧
    (∃ b, branchForm (regs 7 8) (.beq 4 5 0x7FFF) = some b ∧ b.legal = true ∧ b.taken = false ∧ (regs 7 8).delay = none) ∧
    ∃ b, branchForm (regs 5 0) (.bltzall 4 3) = some b ∧ b.legal = true ∧ b.taken = false ∧ b.likely = true ∧ (regs 5 0).delay = none :=
  ⟨⟨_, rfl, by decide +kernel, by decide +kernel, rfl⟩, ⟨_, rfl, by decide +kernel, by decide +kernel, rfl⟩,
    ⟨_, rfl, by decide +kernel, by decide +kernel, by decide +kernel, rfl⟩⟩

theorem witness_ConditionBranches :
    fpBranchBit (.bc1t 0 4) = some 0 ∧ fpBranchBit (.bc1fl 7 4) = some 7 ∧ Cp1Ok allUsable ∧ Mips4Ok allUsable ∧
      allUsable.delay = none ∧ FccSettled allUsable := by
  unfold Mips4Ok Cp1Ok FccSettled; decide +kernel

/-- The same in a delay slot. -/
def inSlot : State := allUsable.setSeq 0x1000 (some 0x2000)

theorem witness_RefusedControl :
    (∃ b, branchForm inSlot (.j 0) = some b) ∧ fpBranchBit (.bc1t 7 4) = some 7 ∧ Cp1Ok inSlot ∧ Mips4Ok inSlot ∧ Cp0Ok inSlot ∧
      inSlot.delay.isSome = true ∧ allUsable.delay = none :=
  ⟨⟨_, rfl⟩, by unfold Mips4Ok Cp1Ok Cp0Ok; decide +kernel⟩

theorem witness_TrapsOnCondition :
    trapCondition (regs 5 5) (.tge 4 5 0) = some true ∧ trapCondition (regs 5 6) (.tge 4 5 0) = some false := by decide +kernel

/-- A buffered line of a write-back page while the secondary cache is in use, of a write-through page, no buffered line. -/
theorem witness_SyncEmptiesWriteBuffer (wbPage : Bool) :
    (∃ s : State, s.wb = [.block 0x2020 0 false wbPage (List.replicate 32 7) 0] ∧ (s.boot.scEnable && s.cp0.configSE) = true) ∧
      ∀ e ∈ fullState.wb, isBlock e = false :=
  ⟨⟨(State.reset.setWb [.block 0x2020 0 false wbPage (List.replicate 32 7) 0]).setCp0 { Cp0.atReset with configSE := true },
    rfl, by revert wbPage; decide +kernel⟩, by decide +kernel⟩

theorem witness_PrefetchHasNoEffect : Mips4Ok allUsable ∧ Cp1Ok allUsable := by unfold Mips4Ok Cp1Ok; decide +kernel

/-! ## Memory -/

theorem witness_ByteOrder : 8 ≤ 8 ∧ 7 < 8 := by decide

/-- Every coprocessor usable, FR = 0, r4 the address of uncached memory, r5 a small index. -/
def memState : State := (fpMem 0x3FF8000000000000).writeGpr 5 8

/-- The same with the base misaligned by one byte. -/
def oddState : State := memState.writeGpr 4 0xFFFFFFFFA0001001

theorem witness_MisalignedAddressError :
    (∃ f, loadForm oddState (.lh 2 0 4) = some f ∧ WideOk f.wide oddState ∧ f.va.toNat % f.n ≠ 0) ∧
    (∃ f, storeForm oddState (.sd 2 6 4) = some f ∧ WideOk f.wide oddState ∧ f.va.toNat % f.n ≠ 0) ∧
    (∃ f, scForm oddState (.sc 2 1 4) = some f ∧ WideOk f.wide oddState ∧ f.va.toNat % f.n ≠ 0) ∧
    (∃ f, fpLoadForm oddState (.ldxc1 2 5 4) = some f ∧ FpMemOk f oddState ∧ SameRegion f oddState ∧ f.va.toNat % fmtBytes f.f ≠ 0) ∧
    (∃ f, fpStoreForm oddState (.swc1 2 0 4) = some f ∧ FpMemOk f oddState ∧ SameRegion f oddState ∧ f.va.toNat % fmtBytes f.f ≠ 0) ∧
    (State.reset.setSeq 0x1002 none).pc.toNat % 4 ≠ 0 :=
  ⟨⟨_, rfl, by unfold WideOk; decide +kernel, by decide +kernel⟩, ⟨_, rfl, by unfold WideOk; decide +kernel, by decide +kernel⟩,
    ⟨_, rfl, by unfold WideOk; decide +kernel, by decide +kernel⟩,
    ⟨_, rfl, by unfold FpMemOk Cp1Ok Mips4Ok FprsOk; decide +kernel, by rintro b ⟨⟩; decide +kernel, by decide +kernel⟩,
    ⟨_, rfl, by unfold FpMemOk Cp1Ok Mips4Ok FprsOk; decide +kernel, by rintro b ⟨⟩, by decide +kernel⟩, by decide +kernel⟩

/-- Every coprocessor usable in Kernel mode without ERL: the address in r4 is mapped and no entry matches it. -/
def refused : State :=
  ((memState.setStatus { StatusReg.atReset with erl := false, cu := 15 }).writeGpr 4 0x12340000)

/-- A state in which every read is answered with erroneous data. -/
def erring (s : State) : State :=
  let bad : ReadResponse := { s.inp.dataResponse with erroneous := true }
  { s with inp := { s.inp with dataResponse := bad, fetchResponse := bad } }

/-- The translation fails: of the data of each kind of access, of a CACHE address, of a fetch. -/
theorem witness_AccessExceptionsTaken :
    (∃ f, loadForm refused (.ld 2 0 4) = some f ∧ WideOk f.wide refused ∧ f.va.toNat % f.n = 0 ∧
      translate (seen .data refused) .load f.va = .error (.exc (.tlbRefill false 0x12340000))) ∧
    (∃ f, storeForm refused (.sb 2 0 4) = some f ∧ WideOk f.wide refused ∧ f.va.toNat % f.n = 0 ∧
      translate (seen .data refused) .store f.va = .error (.exc (.tlbRefill true 0x12340000))) ∧
    (∃ f, scForm refused (.scd 2 0 4) = some f ∧ WideOk f.wide refused ∧ f.va.toNat % f.n = 0 ∧
      translate (seen .data refused) .store f.va = .error (.exc (.tlbRefill true 0x12340000))) ∧
    (∃ f, loadPartForm refused (.lwl 2 3 4) = some f ∧ WideOk f.wide refused ∧
      translate (seen .data refused) .load f.va = .error (.exc (.tlbRefill false 0x12340003))) ∧
    (∃ f, storePartForm refused (.sdr 2 7 4) = some f ∧ WideOk f.wide refused ∧
      translate (seen .data refused) .store f.va = .error (.exc (.tlbRefill true 0x12340007))) ∧
    (∃ f, fpLoadForm refused (.ldc1 2 0 4) = some f ∧ FpMemOk f refused ∧ SameRegion f refused ∧ f.va.toNat % fmtBytes f.f = 0 ∧
      translate (seen .data refused) .load f.va = .error (.exc (.tlbRefill false 0x12340000))) ∧
    (∃ f, fpStoreForm refused (.swxc1 3 5 4) = some f ∧ FpMemOk f refused ∧ SameRegion f refused ∧ f.va.toNat % fmtBytes f.f = 0 ∧
      translate (seen .data refused) .store f.va = .error (.exc (.tlbRefill true 0x12340008))) ∧
    (∃ va, cacheVa refused (.cacheSCachePageInvalidate 0x7FFF 4) = some va ∧ Cp0Ok refused ∧
      translate (seen .data refused) .load va = .error (.exc (.tlbRefill false 0x12347FFF))) ∧
    translate (seen .fetch (refused.setSeq 0x12340004 none)) .fetch 0x12340004 = .error (.exc (.tlbRefill false 0x12340004)) ∧
    ∃ u v e, Ready (refused.setSeq 0x12340004 none) u ∧ fetchBytes u = .exc e v :=
  ⟨⟨_, rfl, by unfold WideOk; decide +kernel, by decide +kernel, by decide +kernel⟩,
    ⟨_, rfl, by unfold WideOk; decide +kernel, by decide +kernel, by decide +kernel⟩,
    ⟨_, rfl, by unfold WideOk; decide +kernel, by decide +kernel, by decide +kernel⟩,
    ⟨_, rfl, by unfold WideOk; decide +kernel, by decide +kernel⟩, ⟨_, rfl, by unfold WideOk; decide +kernel, by decide +kernel⟩,
    ⟨_, rfl, by unfold FpMemOk Cp1Ok Mips4Ok FprsOk; decide +kernel, by rintro b ⟨⟩, by decide +kernel, by decide +kernel⟩,
    ⟨_, rfl, by unfold FpMemOk Cp1Ok Mips4Ok FprsOk; decide +kernel, by rintro b ⟨⟩; decide +kernel, by decide +kernel, by decide +kernel⟩,
    ⟨_, rfl, by unfold Cp0Ok; decide +kernel, by decide +kernel⟩, by decide +kernel, _, _, _, ⟨_, rfl, rfl, rfl, rfl, by decide +kernel, rfl⟩, rfl⟩

/-- The premises of the statements on accesses, for an access of `n` bytes. -/
abbrev Accesses (s : State) (k : AccessKind) (wide : Bool) (va : Dword) (n : Nat) (pa : PAddr) (c : BitVec 3) : Prop :=
  Memory.wf s.mem ∧ WideOk wide s ∧ PlainOrder s ∧ Reaches s k va n pa c

/-- The address of a line that way `way` holds. -/
abbrev Held (s : State) (va : Dword) (pa : PAddr) (way : Bool) : Prop :=
  LineHeld s va pa way (dwayOf (dsetAt s (setIndex va)) way)

/-- A miss answered with the line `d`. -/
abbrev Missed (s : State) (va : Dword) (pa : PAddr) (c : BitVec 3) (d : LineData) : Prop :=
  NoLine s va pa ∧ Victim s va (dwayOf (dsetAt s (setIndex va)) (dsetAt s (setIndex va)).fifo) ∧ BlockAnswered s pa c d

/-- A line of equal bytes, with its parity. -/
def lineOfByte (b : Byte) : LineData := (lineOfBytes (List.replicate 32 b), linePar (lineOfBytes (List.replicate 32 b)))

theorem witness_UncachedLoads :
    (∃ f, loadForm memState (.ld 2 0 4) = some f ∧ Accesses memState .load f.wide f.va f.n 0x1000 2 ∧ f.linked = false ∧
      GoodAnswer memState.inp.dataResponse) ∧
    ∃ f, loadForm memState (.ll 2 4 4) = some f ∧ Accesses memState .load f.wide f.va f.n 0x1004 2 ∧ f.linked = true := by
  refine ⟨⟨_, rfl, ?_⟩, _, rfl, ?_⟩ <;> unfold Accesses WideOk PlainOrder Reaches
  · unfold GoodAnswer; decide +kernel
  · decide +kernel

theorem witness_CachedLoadHits :
    (∃ f, loadForm lineState (.lld 2 0x38 4) = some f ∧ Accesses lineState .load f.wide f.va f.n 0x2038 3 ∧
      Held lineState f.va 0x2038 true) ∧
    ∃ f, loadForm lineState (.lb 2 0x20 4) = some f ∧ Accesses lineState .load f.wide f.va f.n 0x2020 3 ∧
      Held lineState f.va 0x2020 true := by
  refine ⟨⟨_, rfl, ?_⟩, _, rfl, ?_⟩ <;> (unfold Accesses WideOk PlainOrder Reaches Held LineHeld; decide +kernel)

/-- A miss in set 257 whose way the FIFO bit names holds a modified line. -/
def missState : State := lineState.putDSet 257 { dsetAt lineState 257 with fifo := true }

/-- The secondary cache in use with the line of 0x6020, valid or not, its bytes 9. -/
def secondaryState (valid : Bool) : State :=
  (missState.setCp0 { missState.cp0 with configSE := true }).putSLine (scacheIndex missState.boot 0x6020)
    ⟨valid, scacheTag 0x6020, (lineOfByte 9).1, (lineOfByte 9).2⟩

/-- A modified line goes, for a load; no line goes, for a linked one; the secondary cache holds the line, or does not. -/
theorem witness_CachedLoadMisses :
    (∃ f, loadForm missState (.lw 2 0x4020 4) = some f ∧ Accesses missState .load f.wide f.va f.n 0x6020 3 ∧
      Missed missState f.va 0x6020 3 (lineOfByte 0) ∧ ((dsetAt missState 257).way1.w && f.linked == false) = true) ∧
    (∃ f, loadForm lineState (.lld 2 0x4038 4) = some f ∧ Accesses lineState .load f.wide f.va f.n 0x6038 3 ∧
      Missed lineState f.va 0x6038 3 (lineOfByte 0) ∧ f.linked = true) ∧
    ∃ f, loadForm (secondaryState true) (.lw 2 0x4020 4) = some f ∧
      Accesses (secondaryState true) .load f.wide f.va f.n 0x6020 3 ∧ Missed (secondaryState true) f.va 0x6020 3 (lineOfByte 9) ∧
      Accesses (secondaryState false) .load f.wide f.va f.n 0x6020 3 ∧ Missed (secondaryState false) f.va 0x6020 3 (lineOfByte 0) := by
  refine ⟨⟨_, rfl, ?_⟩, ⟨_, rfl, ?_⟩, _, rfl, ?_⟩ <;>
    (unfold Accesses WideOk PlainOrder Reaches Missed NoLine Victim BlockAnswered GoodAnswer; decide +kernel)

theorem witness_UnalignedPartBytes :
    reverseEndian (seen .data memState).cp0.status = false ∧ translate (seen .data memState) .load 0xFFFFFFFFA0001007 = .ok (0x1007, 2) ∧
      (0x1007#36).toNat % 8 = (0xFFFFFFFFA0001007#64).toNat % 8 ∧
      translate (seen .data memState) .store 0xFFFFFFFFA0001000 = .ok (0x1000, 2) ∧
      (0x1000#36).toNat % 4 = (0xFFFFFFFFA0001000#64).toNat % 4 := by decide +kernel

/-- Every read answered with erroneous data, a modified line in the way that a miss at `errVa` replaces. -/
def errState : State := erring missState

/-- An address whose line is not held. -/
def errVa : Dword := effectiveAddress errState 4 0x4020

/-- The same in front of a cached word whose line is not held. -/
def errFetch : State := errState.setSeq 0xFFFFFFFF80006020 none

/-- Erroneous data for an uncached load, for a linked load and a store that bring their lines in, an uncached fetch, a cached one. -/
theorem witness_AccessesThatErr :
    ComesTo (.ld 2 0 4) (erring memState) .load (effectiveAddress (erring memState) 4 0) 0x1000 2 8 ∧
    ComesTo (.ll 2 0x4020 4) errState .load errVa 0x6020 3 4 ∧ ComesTo (.sw 2 0x4020 4) errState .store errVa 0x6020 3 4 ∧
    Memory.wf (erring memState).mem ∧ Memory.wf errState.mem ∧ BadAnswer (erring memState).inp.dataResponse ∧
    BadAnswer errState.inp.dataResponse ∧
    NoLine errState errVa 0x6020 ∧ Victim errState errVa (dsetAt errState 257).way1 ∧
    AgentAsked errState (seen .data errState).cp0 0x6020 3 ∧
    BadAnswer (erring State.reset).inp.fetchResponse ∧
    translate (seen .fetch (erring State.reset)) .fetch State.reset.pc = .ok (0x1FC00000, 2) ∧
    BadAnswer errFetch.inp.fetchResponse ∧ translate (seen .fetch errFetch) .fetch errFetch.pc = .ok (0x6020, 3) ∧
    errFetch.inp.fetchResponse.tagError = false ∧ isetBad (isetAt (seen .fetch errFetch) (setIndex errFetch.pc)) = false ∧
    ihit (isetAt (seen .fetch errFetch) (setIndex errFetch.pc)) (primaryTag 0x6020) = none ∧
    AgentAsked errFetch (seen .fetch errFetch).cp0 0x6020 3 := by
  refine ⟨.load ⟨2, _, 8, true, true, false⟩ 0x1000 2 rfl ?_ ?_ nofun, .load ⟨2, _, 4, true, false, true⟩ 0x6020 3 rfl ?_ ?_ ?_,
    .store ⟨_, _, 4, false⟩ 0x6020 3 rfl ?_ ?_, ?_⟩
  all_goals try unfold WideOk
  all_goals try unfold Reaches
  all_goals try unfold BadAnswer NoLine Victim AgentAsked
  all_goals decide +kernel

/-- The premises of the statement on left and right accesses. -/
abbrev PartReady (s : State) (k : AccessKind) (f : PartForm) (pa : PAddr) (c : BitVec 3) (n : Nat) : Prop :=
  Memory.wf s.mem ∧ WideOk f.wide s ∧ PlainOrder s ∧ partAccess k f.left f.size f.va s = .ok (pa, c, n)

/-- Uncached, in a line that is held, in one that is not. -/
theorem witness_PartLoads :
    (∃ f, loadPartForm memState (.ldr 2 2 4) = some f ∧ PartReady memState .load f 0x1000 2 3 ∧
      GoodAnswer memState.inp.dataResponse) ∧
    (∃ f, loadPartForm lineState (.lwl 2 0x3D 4) = some f ∧ PartReady lineState .load f 0x203D 3 3 ∧ Held lineState f.va 0x203D true) ∧
    ∃ f, loadPartForm missState (.ldl 2 0x4020 4) = some f ∧ PartReady missState .load f 0x6020 3 8 ∧
      Missed missState f.va 0x6020 3 (lineOfByte 0) := by
  refine ⟨⟨_, rfl, ?_⟩, ⟨_, rfl, ?_⟩, _, rfl, ?_⟩ <;> unfold PartReady WideOk PlainOrder
  · unfold GoodAnswer; decide +kernel
  · unfold Held LineHeld; decide +kernel
  · unfold Missed NoLine Victim BlockAnswered GoodAnswer; decide +kernel

/-- The line of `lineState` under another attribute than write-back. -/
def throughState (c : BitVec 3) : State := lineState.setCp0 { lineState.cp0 with configK0 := c }

/-- The same for stores; a miss with attribute 0, and one with attribute 1. -/
theorem witness_PartStores :
    (∃ f, storePartForm memState (.swl 2 3 4) = some f ∧ PartReady memState .store f 0x1003 2 1) ∧
    (∃ f, storePartForm lineState (.sdr 2 0x3F 4) = some f ∧ PartReady lineState .store f 0x2038 3 8 ∧ Held lineState f.va 0x2038 true) ∧
    (∃ f, storePartForm (throughState 0) (.swr 2 0x4020 4) = some f ∧ PartReady (throughState 0) .store f 0x6020 0 1 ∧
      NoLine (throughState 0) f.va 0x6020) ∧
    ∃ f, storePartForm (throughState 1) (.sdl 2 0x4027 4) = some f ∧ PartReady (throughState 1) .store f 0x6027 1 1 ∧
      Missed (throughState 1) f.va 0x6027 1 (lineOfByte 0) := by
  refine ⟨⟨_, rfl, ?_⟩, ⟨_, rfl, ?_⟩, ⟨_, rfl, ?_⟩, _, rfl, ?_⟩ <;> unfold PartReady WideOk PlainOrder
  · decide +kernel
  · unfold Held LineHeld; decide +kernel
  · unfold NoLine; decide +kernel
  · unfold Missed NoLine Victim BlockAnswered GoodAnswer; decide +kernel

theorem witness_UncachedStores :
    ∃ f, storeForm memState (.sd 2 0x7FF8 4) = some f ∧ Accesses memState .store f.wide f.va f.n 0x8FF8 2 :=
  ⟨_, rfl, by unfold Accesses WideOk PlainOrder Reaches; decide +kernel⟩

/-- Hits, write-back and write-through; misses with attributes 0, 1 and 3. -/
theorem witness_CachedStores :
    (∃ f, storeForm lineState (.sd 2 0x38 4) = some f ∧ Accesses lineState .store f.wide f.va f.n 0x2038 3 ∧
      Held lineState f.va 0x2038 true) ∧
    (∃ f, storeForm (throughState 0) (.sb 2 0x3F 4) = some f ∧ Accesses (throughState 0) .store f.wide f.va f.n 0x203F 0 ∧
      Held (throughState 0) f.va 0x203F true) ∧
    (∃ f, storeForm (throughState 0) (.sb 2 0x403F 4) = some f ∧ Accesses (throughState 0) .store f.wide f.va f.n 0x603F 0 ∧
      NoLine (throughState 0) f.va 0x603F) ∧
    (∃ f, storeForm (throughState 1) (.sh 2 0x403E 4) = some f ∧ Accesses (throughState 1) .store f.wide f.va f.n 0x603E 1 ∧
      Missed (throughState 1) f.va 0x603E 1 (lineOfByte 0)) ∧
    ∃ f, storeForm missState (.sw 2 0x4020 4) = some f ∧ Accesses missState .store f.wide f.va f.n 0x6020 3 ∧
      Missed missState f.va 0x6020 3 (lineOfByte 0) := by
  refine ⟨⟨_, rfl, ?_⟩, ⟨_, rfl, ?_⟩, ⟨_, rfl, ?_⟩, ⟨_, rfl, ?_⟩, _, rfl, ?_⟩ <;> unfold Accesses WideOk PlainOrder Reaches
  · unfold Held LineHeld; decide +kernel
  · unfold Held LineHeld; decide +kernel
  · unfold NoLine; decide +kernel
  · unfold Missed NoLine Victim BlockAnswered GoodAnswer; decide +kernel
  · unfold Missed NoLine Victim BlockAnswered GoodAnswer; decide +kernel

/-- The link on the line of `lineState`. -/
def linkState : State := lineState.setLink 0x2038

/-- Refused; without the link; with it, on a line that is held. -/
theorem witness_StoreConditional :
    (∃ f, scForm memState (.sc 2 0 4) = some f ∧ Accesses memState .store f.wide f.va f.n 0x1000 2) ∧
    (∃ f, scForm linkState (.sc 2 0x3C 4) = some f ∧ Accesses linkState .store f.wide f.va f.n 0x203C 3 ∧
      (linkState.llBit && linkState.linkAddr != 0x203C) = true ∧ Accesses (linkState.setLlBit false) .store f.wide f.va f.n 0x203C 3 ∧
      ((linkState.setLlBit false).linkKnown && (linkState.setLlBit false).linkAddr != 0x203C) = true) ∧
    (∃ f, scForm lineState (.scd 2 0x38 4) = some f ∧ Accesses lineState .store f.wide f.va f.n 0x2038 3 ∧
      (lineState.llBit || lineState.linkKnown) = false ∧ Accesses (linkState.setLlBit false) .store f.wide f.va f.n 0x2038 3 ∧
      (linkState.setLlBit false).llBit = false ∧ (linkState.setLlBit false).linkAddr = 0x2038) ∧
    ∃ f, scForm linkState (.scd 2 0x38 4) = some f ∧ Accesses linkState .store f.wide f.va f.n 0x2038 3 ∧ linkState.llBit = true ∧
      linkState.linkAddr = 0x2038 ∧ Held linkState f.va 0x2038 true := by
  refine ⟨⟨_, rfl, ?_⟩, ⟨_, rfl, ?_⟩, ⟨_, rfl, ?_⟩, _, rfl, ?_⟩ <;> unfold Accesses WideOk PlainOrder Reaches
  · decide +kernel
  · decide +kernel
  · decide +kernel
  · unfold Held LineHeld; decide +kernel

/-- With the link, on lines that are not held: attributes 0 and 3. -/
theorem witness_StoreConditionalMisses :
    (∃ f, scForm ((throughState 0).setLink 0x6038) (.scd 2 0x4038 4) = some f ∧
      Accesses ((throughState 0).setLink 0x6038) .store f.wide f.va f.n 0x6038 0 ∧ NoLine ((throughState 0).setLink 0x6038) f.va 0x6038) ∧
    ∃ f, scForm (missState.setLink 0x6020) (.sc 2 0x4020 4) = some f ∧
      Accesses (missState.setLink 0x6020) .store f.wide f.va f.n 0x6020 3 ∧
      Missed (missState.setLink 0x6020) f.va 0x6020 3 (lineOfByte 0) := by
  refine ⟨⟨_, rfl, ?_⟩, _, rfl, ?_⟩ <;> unfold Accesses WideOk PlainOrder Reaches
  · unfold NoLine; decide +kernel
  · unfold Missed NoLine Victim BlockAnswered GoodAnswer; decide +kernel

/-! ## Address translation -/

/-- Status outside ERL with a mode. -/
def statusIn (ksu : BitVec 2) : StatusReg := { StatusReg.atReset with erl := false, ksu := ksu }

/-- The same with 64-bit addressing. -/
def wideIn (ksu : BitVec 2) : StatusReg := { statusIn ksu with kx := true, sx := true, ux := true }

/-- Every mode with 32- and 64-bit addressing, and ERL; the segments' bounds are numbers. -/
theorem witness_AddressSegments :
    StatusReg.atReset.erl = true ∧
    (∀ k : BitVec 2, k ≠ 3 → (statusIn k).erl = false ∧ extendedAddressing (statusIn k) = false ∧ extendedAddressing (wideIn k) = true ∧
      modeOf (statusIn k) = modeOf (wideIn k)) ∧
    modeOf (wideIn 2) = .user ∧ modeOf (wideIn 1) = .supervisor ∧ modeOf (wideIn 0) = .kernel ∧
    (0xFFFFFFFFBFFFFFFF#64 < 0xFFFFFFFFC0000000#64) ∧ (0x9000000000000000#64 < 0xC000000000000000#64) := by decide +kernel

/-- The entry matches the address with the ASID of the state. -/
def hits (v : State) (j : Fin 48) (va : Dword) : Prop :=
  EntryMatches v.tlb[j] (va.extractLsb' 62 2) (va.extractLsb' 13 27) v.cp0.entryHi.asid

theorem witness_TlbTranslation :
    segmentOf (mappedState 0x12).cp0.status (mappedState 0x12).cp0.configK0 0x400000 = .mapped ∧
    (∀ j : Fin 48, ¬hits (mappedState 0x12) j 0x400000) ∧ (∀ j : Fin 48, hits (mappedState 0x11) j 0x401FFF ↔ j = 5) ∧
    pageWidth (mappedState 0x11).tlb[(5 : Fin 48)].mask = some 12 ∧ (0x401FFF#64).toNat / 2 ^ 12 % 2 = 1 ∧
    (mappedState 0x11).tlb[(5 : Fin 48)].v1 = true ∧ (mappedState 0x11).tlb[(5 : Fin 48)].d1 = true ∧
    (mappedState 0x11).tlb[(5 : Fin 48)].c1 < 4 ∧
    (∀ j : Fin 48, hits ((mappedState 0x11).setTlb 5 { entryC21 with v0 := false, d1 := false }) j 0x400000 ↔ j = 5) ∧
    hits ((mappedState 0x11).setTlb 47 entryC21) 5 0x400000 ∧ hits ((mappedState 0x11).setTlb 47 entryC21) 47 0x400000 := by
  unfold hits EntryMatches; and_intros <;> decide +kernel

/-! ## CP0 -/

theorem witness_MovesFromCp0 :
    Cp0Ok State.reset ∧ cp0Exists 0 = true ∧ cp0Exists 30 = true ∧ WideOk true State.reset ∧ cp0Is64 30 = true := by
  unfold Cp0Ok WideOk; decide +kernel

theorem witness_MovesToCp0 :
    Cp0Ok (regs 47 0xF) ∧ cp0Exists 6 = true ∧ Cp0Writable 6 (readGpr (regs 47 0xF) 4) ∧ cp0Exists 30 = true ∧
      WideOk true (regs 47 0xF) ∧ cp0Is64 30 = true ∧ Cp0Writable 30 (readGpr (regs 47 0xF) 4) ∧
      Cp0Writable 16 (readGpr (regs 3 0x12) 4) ∧ Cp0Writable 12 (readGpr (regs 3 0x12) 5) := by
  unfold Cp0Ok WideOk Cp0Writable; and_intros <;> decide +kernel

/-- FR = 0 and every coprocessor usable, without a secondary cache, r4 an uncached address, TagLo in an unused state. -/
def bareState : State :=
  let s := memState.setCp0 { memState.cp0 with tagLo := 0x40 }
  { s with boot := { s.boot with scEnable := false } }

theorem witness_RefusedForms :
    (Cp0Ok bareState ∧ cp0Exists 31 = false ∧ WideOk true bareState ∧ cp0Exists 12 = true ∧ cp0Is64 12 = false ∧
    47 < (readGpr (regs 48 0) 4).toNat % 64 ∧ 4 ≤ (readGpr (regs 4 0) 4).toNat % 8 ∧ (readGpr (regs 0x18 0) 4).toNat / 2 % 16 = 12 ∧
    CacheOk bareState (effectiveAddress bareState 4 0x7FFF) 0x8FFF 2 ∧ (tagLoSeen bareState).extractLsb' 6 2 = 1 ∧
    bareState.boot.scEnable = false ∧
    CacheOk { memState with boot := { memState.boot with scFlashClear := false } } (effectiveAddress memState 4 1) 0x1001 2 ∧
    (0x1001#36).toNat % 2 ^ 12 ≠ 0 ∧ Cp1Ok bareState ∧ Mips4Ok bareState ∧
    ¬FprsOk [1] bareState) ∧
    (∃ f, fpForm bareState (.maddS 2 4 6 31) = some f ∧ ¬FprsOk (f.fd :: f.srcs) bareState) ∧
    (∃ c, compareForm (.cEqD 7 1 2) = some c ∧ ¬FprsOk [c.fs, c.ft] bareState) ∧
    (∃ f, fpMoveForm bareState (.movnD 3 2 4) = some f ∧ ¬FprsOk [f.fd, f.fs] bareState) ∧
    (∃ f, fpLoadForm bareState (.ldxc1 31 5 4) = some f ∧ f.f = .D ∧ ¬FprsOk [f.reg] bareState) ∧
    (∃ f, fpStoreForm bareState (.sdc1 1 0 4) = some f ∧ f.f = .D ∧ ¬FprsOk [f.reg] bareState) := by
  refine ⟨?_, ⟨_, rfl, ?_⟩, ⟨_, rfl, ?_⟩, ⟨_, rfl, ?_⟩, ⟨_, rfl, ?_⟩, _, rfl, ?_⟩ <;> (try unfold Cp0Ok WideOk CacheOk Cp0Ok Cp1Ok Mips4Ok) <;>
    (unfold FprsOk; decide +kernel)

/-- `tlbState` with other CP0 registers. -/
def tlbWith (f : Cp0 → Cp0) : State := tlbState.setCp0 (f tlbState.cp0)

/-- Index at its ends outside the TLB; a PageMask of no page size, an attribute without meaning, a page frame below the page size. -/
theorem witness_RefusedTlbForms :
    (∀ s ∈ [tlbWith ({ · with index := 48 }), tlbWith ({ · with index := 63 })], Cp0Ok s ∧ Settled s ∧ 48 ≤ s.cp0.index.toNat) ∧
    (∀ s ∈ [tlbWith ({ · with pageMask := 1 }), tlbWith ({ · with entryLo1 := unpackEntryLo 0x20 }),
        tlbWith ({ · with pageMask := 0xFFF, entryLo0 := unpackEntryLo 0x40 })],
      Cp0Ok s ∧ Settled s ∧ s.cp0.index.toNat = (5 : Fin 48).val ∧ s.cp0.random.toNat = (47 : Fin 48).val) ∧
    pageWidth 1 = none ∧ pageWidth 0 = some 12 ∧ 4 ≤ (unpackEntryLo 0x20).c ∧ pageWidth 0xFFF = some 24 ∧ (unpackEntryLo 0x40).c < 4 ∧
    (unpackEntryLo 0x40).pfn.toNat % 2 ^ (24 - 12) ≠ 0 ∧ tlbState.cp0.entryLo1.c < 4 := by
  unfold Cp0Ok Settled; decide +kernel

theorem witness_TlbProbeAndRead :
    let s := (tlbState.setCp0 { tlbState.cp0 with index := 47 }).setTlb 5 entryC21
    Cp0Ok s ∧ Settled s ∧
      (∀ j : Fin 48, EntryMatches s.tlb[j] s.cp0.entryHi.r s.cp0.entryHi.vpn2 s.cp0.entryHi.asid ↔ j = 5) ∧
      (∀ j : Fin 48, ¬EntryMatches tlbState.tlb[j] tlbState.cp0.entryHi.r tlbState.cp0.entryHi.vpn2 tlbState.cp0.entryHi.asid) ∧
      EntryMatches (s.setTlb 47 entryC21).tlb[(47 : Fin 48)] s.cp0.entryHi.r s.cp0.entryHi.vpn2 s.cp0.entryHi.asid ∧
      s.cp0.index = BitVec.ofNat 6 (47 : Fin 48).val := by
  unfold Cp0Ok Settled EntryMatches; decide +kernel

theorem witness_TlbWrites :
    (Cp0Ok tlbState ∧ Settled tlbState ∧ tlbState.cp0.index.toNat = (5 : Fin 48).val ∧ tlbState.cp0.random.toNat = (47 : Fin 48).val ∧
      pageWidth tlbState.cp0.pageMask = some 12 ∧ tlbState.cp0.entryLo0.c < 4 ∧ tlbState.cp0.entryLo1.c < 4 ∧
      tlbState.cp0.entryLo0.pfn.toNat % 2 ^ (12 - 12) = 0 ∧ tlbState.cp0.entryLo1.pfn.toNat % 2 ^ (12 - 12) = 0 ∧
      (46 : Fin 48).val < fullState.cp0.wired.toNat) ∧ (∃ t, exec .tlbwr fullState = .next t) ∧ Inv fullState := by
  refine ⟨by unfold Cp0Ok Settled; decide +kernel, next_of_goesOn (by decide +kernel), fullState_inv⟩

theorem witness_ExceptionReturn :
    Cp0Ok State.reset ∧ Settled State.reset ∧ State.reset.delay = none ∧ State.reset.cp0.status.erl = true ∧
      Cp0Ok (mappedState 0) ∧ Settled (mappedState 0) ∧ (mappedState 0).delay = none ∧ (mappedState 0).cp0.status.erl = false := by
  unfold Cp0Ok Settled; decide +kernel

/-- Standby with no wake event. -/
def asleep : State := State.reset.setStandby true

theorem witness_WaitAndStandby :
    Cp0Ok State.reset ∧ ∃ t, applyExts (nextInput asleep).ext (arrived asleep) = .ok () t ∧ t.inp.reset = none ∧
      t.nmiPending = 0 ∧ t.standby = true ∧ (t.intPin = 0 ∧ t.nmiPin = false ∧
        (t.timerInt = false ∨ t.boot.tmrIntEn = true) ∧ t.inp.extRqst = false ∧ t.inp.ext = []) :=
  ⟨by unfold Cp0Ok; decide +kernel, _, rfl, rfl, by decide +kernel, by decide +kernel, by decide +kernel⟩

/-! ## CACHE -/

theorem witness_InstructionCacheOperations :
    Memory.wf ilineState.mem ∧ CacheOk ilineState (effectiveAddress ilineState 4 0) 0x20040 3 ∧ ihit (isetAt ilineState (setIndex 0xFFFFFFFF80020040)) (primaryTag 0x20040) = some false ∧
      ihit (isetAt ilineState (setIndex 0xFFFFFFFF80020060)) (primaryTag 0x20060) = none ∧
      (tagLoSeen ilineState).extractLsb' 6 2 = 0 ∧ BlockAnswered ilineState 0x20040 3 (lineOfByte 0) ∧
      wordPar (linePar (isetAt ilineState 2).way0.data) 8 = (isetAt ilineState 2).way0.par := by
  unfold CacheOk Cp0Ok BlockAnswered GoodAnswer; decide +kernel

theorem witness_DataCacheOperations :
    Memory.wf lineState.mem ∧ Memory.wf missState.mem ∧ CacheOk lineState (effectiveAddress lineState 4 0x20) 0x2020 3 ∧ dhit (dsetAt lineState 257) (primaryTag 0x2020) = some true ∧
      dhit (dsetAt lineState 257) (primaryTag 0x6020) = none ∧ (dvalid (dsetAt lineState 257).way1 && (dsetAt lineState 257).way1.w) = true ∧
      badBytes (dsetAt lineState 257).way1.data (dsetAt lineState 257).way1.par = 0 ∧ (tagLoSeen lineState).extractLsb' 6 2 = 0 ∧
      (tagLoSeen (lineState.setCp0 { lineState.cp0 with tagLo := 0xC0 })).extractLsb' 6 2 = 3 ∧ (dsetAt missState 257).fifo = true ∧
      CacheOk cleanState (effectiveAddress cleanState 4 0x20) 0x2020 3 ∧ dhit (dsetAt cleanState 257) (primaryTag 0x2020) = some true ∧
      (dsetAt cleanState 257).way1.w = false := by
  unfold CacheOk Cp0Ok; decide +kernel

theorem witness_SecondaryCacheOperations :
    CacheOk lineState (effectiveAddress lineState 4 0x20) 0x2020 3 ∧ CacheOk lineState (effectiveAddress lineState 4 0) 0x2000 3 ∧
      lineState.boot.scEnable = true ∧ lineState.boot.scFlashClear = true ∧ (0x2000#36).toNat % 2 ^ 12 = 0 := by
  unfold CacheOk Cp0Ok; decide +kernel

/-! ## Gates -/

theorem witness_CoprocessorUnusable :
    usesCop0 .eret = true ∧ usesCop0 (.cacheSCachePageInvalidate 0 0) = true ∧ ¬Cp0Ok userState ∧ usesCop1 (.movt 1 2 0) = true ∧
      usesCop1 .prefx = true ∧ ¬Cp1Ok userState := by
  unfold Cp0Ok Cp1Ok; decide +kernel

/-- User mode without UX and CU3, coprocessors 0 and 1 usable. -/
def gatedState : State := userState.setStatus { userState.cp0.status with cu := 3 }

theorem witness_InstructionSetGates :
    isWide (.dmfc0 2 14) = true ∧ isWide (.dmtc1 2 4) = true ∧ Cp0Ok gatedState ∧ Cp1Ok gatedState ∧
      is64 (seen .usable gatedState).cp0.status = false ∧ isMips4 (.cEqS 7 2 4) = true ∧ isMips4 (.pref 0 0 0) = true ∧ ¬Mips4Ok gatedState := by
  unfold Cp0Ok Cp1Ok Mips4Ok; decide +kernel

/-- A word of an undefined opcode at the reset vector. -/
def undefinedState : State := State.reset.withFetchWord 32 0x70000000

/-- A step that comes to it; the coprocessors usable and not; a word of each class. -/
theorem witness_UndecodedWords :
    (∃ u v bs, Ready undefinedState u ∧ fetchBytes u = .ok bs v ∧ decode v.boot.bigEndianMem bs = .error .reserved ∧
      interruptRequest u = false) ∧
    (¬Cp0Ok userState ∧ ¬Cp1Ok userState ∧ Cp0Ok allUsable ∧ Cp1Ok allUsable) ∧ decodeWord 0x041F0000 = .error .reserved ∧
      decodeWord 0x4200003F = .error .cop0Undefined ∧ decodeWord 0x46C00000 = .error .cop1Undefined ∧
      decodeWord 0x4C000002 = .error .cop1Undefined ∧ decodeWord 0x48000000 = .error .cop2 ∧ decodeWord 0xBC1F0000 = .error .cacheUndefined :=
  ⟨⟨_, _, _, ⟨_, rfl, rfl, rfl, rfl, rfl, rfl⟩, rfl, by decide +kernel, by decide +kernel⟩,
    by unfold Cp0Ok Cp1Ok; decide +kernel, by decide +kernel⟩

theorem witness_ModesAndWidths : noMode (statusIn 2) = false ∧ modeOf (statusIn 2) = .user := by decide

theorem witness_UnprivilegedCannotChangeSystem :
    ¬Cp0Ok userState ∧ userState.entered = false ∧ (∃ t, exec (.addu 2 4 5) userState = .next t ∧ t.entered = false) ∧
      ∃ t, exec .syscall userState = .next t ∧ t.entered = true :=
  ⟨by unfold Cp0Ok; decide +kernel, by decide +kernel, ⟨_, rfl, by decide +kernel⟩, ⟨_, rfl, by decide +kernel⟩⟩

/-! ## Floating point -/

theorem witness_FpOperations :
    (∃ f, fpForm (fprs 0 0x3F800000 0x40400000 0) (.divS 2 4 6) = some f ∧ Cp1Ok (fprs 0 0x3F800000 0x40400000 0) ∧
      (f.mips4 = true → Mips4Ok (fprs 0 0x3F800000 0x40400000 0)) ∧ FprsOk (f.fd :: f.srcs) (fprs 0 0x3F800000 0x40400000 0) ∧
      ¬TrapsWith (fprs 0 0x3F800000 0x40400000 0) f.out.x) ∧
    ∃ f, fpForm (fprs 0 1 0x40400000 0) (.maddS 2 4 6 8) = some f ∧ Cp1Ok (fprs 0 1 0x40400000 0) ∧
      (f.mips4 = true → Mips4Ok (fprs 0 1 0x40400000 0)) ∧ FprsOk (f.fd :: f.srcs) (fprs 0 1 0x40400000 0) ∧
      TrapsWith (fprs 0 1 0x40400000 0) f.out.x :=
  ⟨⟨_, rfl, by unfold Cp1Ok; decide +kernel, by unfold Mips4Ok; decide +kernel, by unfold FprsOk; decide +kernel,
      by unfold TrapsWith TrapsUnder; decide +kernel⟩,
    ⟨_, rfl, by unfold Cp1Ok; decide +kernel, by unfold Mips4Ok; decide +kernel, by unfold FprsOk; decide +kernel,
      by unfold TrapsWith TrapsUnder; decide +kernel⟩⟩

/-- Finite operands at the ends of their range, infinities of both signs, a NaN. -/
theorem witness_FpCompares :
    compareForm (.cEqS 7 4 6) = some ⟨.S, 2, 7, 4, 6⟩ ∧ Cp1Ok allUsable ∧ Mips4Ok allUsable ∧ FprsOk [4, 6] allUsable ∧
      ¬TrapsWith allUsable 0 ∧ TrapsWith (fprs 0x800 0 0 0) xV ∧ fpFinite .D 0x7FEFFFFFFFFFFFFF ∧ fpFinite .D 0x8000000000000001 ∧
      KindSign .D .infinity false 0x7FF0000000000000 ∧ KindSign .S .infinity true 0xFF800000 ∧ fpIsNaN .S 0x7F800001 = true := by
  unfold Cp1Ok Mips4Ok FprsOk TrapsWith TrapsUnder fpFinite KindSign
  exact ⟨rfl, by decide +kernel⟩

/-- FCR31 with a rounding mode, every exception masked. -/
def rounding (rm : BitVec 2) : Fcr31 := ⟨0, false, 0, 0, 0, rm⟩

/-- A number of the precision rounds to itself. -/
theorem roundsFree_self {f : Fmt} {rm : BitVec 2} {r : ℝ} (h : Digits f.prec r) : RoundsFree f rm r r := by
  refine ⟨h, fun _ c _ => ⟨by simp, fun hc e => absurd (sub_eq_zero.1 (abs_eq_zero.1 ?_)) hc⟩,
    fun _ => ⟨mul_self_nonneg r, le_rfl, fun c _ hc => hc⟩, fun _ => ⟨le_rfl, fun c _ hc => hc⟩, fun _ => ⟨le_rfl, fun c _ hc => hc⟩⟩
  rw [← e, sub_self, abs_zero]

/-- One and half of its last digit rounds down to one, toward negative infinity. -/
theorem roundsFree_down : RoundsFree .S 3 1 (1 + (2 : ℝ) ^ (-24 : ℤ)) := by
  refine ⟨⟨1, 0, by norm_num [Fmt.prec, Fmt.frac], by norm_num⟩, fun h => absurd h (by decide), fun h => absurd h (by decide),
    fun h => absurd h (by decide), fun _ => ⟨by norm_num, ?_⟩⟩
  rintro c ⟨n, e, hn, rfl⟩ hc
  have hn : n < 2 ^ 24 := lt_of_abs_lt (by simpa [Fmt.prec, Fmt.frac] using hn)
  by_contra h
  have h : 1 < n * (2 : ℝ) ^ e := not_le.1 h
  rcases le_or_gt (-23) e with he | he
  · obtain ⟨k, rfl⟩ : ∃ k : ℕ, e = k - 23 := ⟨(e + 23).toNat, by omega⟩
    rw [zpow_sub₀ (by norm_num), zpow_natCast] at h hc
    have h1 : (2 ^ 23 : ℤ) < n * 2 ^ k := by
      have : (2 ^ 23 : ℝ) < n * 2 ^ k := by norm_num at h ⊢; linarith
      exact_mod_cast this
    have h2 : (2 ^ 23 + 1 : ℝ) ≤ n * 2 ^ k := by exact_mod_cast h1
    norm_num at hc h2
    linarith
  · have h1 : (2 : ℝ) ^ e ≤ 2 ^ (-24 : ℤ) := zpow_le_zpow_right₀ (by norm_num) (by omega)
    have h2 : (n : ℝ) ≤ 2 ^ 24 := by exact_mod_cast hn.le
    have h3 : (0 : ℝ) < 2 ^ e := by positivity
    have : n * (2 : ℝ) ^ e ≤ 2 ^ 24 * 2 ^ (-24 : ℤ) := mul_le_mul h2 h1 h3.le (by positivity)
    norm_num at this
    linarith

/-- The values of a few patterns: 1, -1, 2, one half, `2^-24`, the greatest and the least normalized number. -/
theorem values :
    fpValue .S 0x3F800000 = 1 ∧ fpValue .S 0xBF800000 = -1 ∧ fpValue .S 0x40000000 = 2 ∧ fpValue .S 0x3F000000 = 1 / 2 ∧
      fpValue .S 0x33800000 = 2 ^ (-24 : ℤ) ∧ fpValue .S 0x7F7FFFFF = maxFinite .S ∧ fpValue .S 0x00800000 = minNormal .S := by decide +kernel

/-- An operation with the exact value of its result, which rounds to `y`. -/
abbrev Rounds (rm : BitVec 2) (y r : ℝ) : Prop := (∃ o, ExactResult .S (rounding rm) o r) ∧ RoundsFree .S rm y r

/-- In every mode a zero, an exact result in the normal range, one above it, a tiny one; an inexact one. -/
theorem witness_RoundedArithmetic (rm : BitVec 2) :
    Rounds rm 0 0 ∧ Rounds rm 3 3 ∧ Rounds rm (maxFinite .S * 2) (maxFinite .S * 2) ∧ Rounds rm (minNormal .S * (1 / 2)) (minNormal .S * (1 / 2)) ∧
      Rounds 3 1 (1 + (2 : ℝ) ^ (-24 : ℤ)) ∧ (maxFinite .S : ℝ) < |(maxFinite .S * 2 : ℝ)| ∧ |(minNormal .S * (1 / 2) : ℝ)| < minNormal .S := by
  obtain ⟨h1, hn, h2, hh, he, hM, hm⟩ := values
  have M0 : (0 : ℝ) < maxFinite .S := by exact_mod_cast (by decide +kernel : (0 : ℚ) < maxFinite .S)
  have m0 : (0 : ℝ) < minNormal .S := by exact_mod_cast (by decide +kernel : (0 : ℚ) < minNormal .S)
  obtain ⟨o1, on, o2, oh, oe, oM, om⟩ : Ordinary .S 0x3F800000 ∧ Ordinary .S 0xBF800000 ∧ Ordinary .S 0x40000000 ∧
      Ordinary .S 0x3F000000 ∧ Ordinary .S 0x33800000 ∧ Ordinary .S 0x7F7FFFFF ∧ Ordinary .S 0x00800000 := by
    unfold Ordinary; decide +kernel
  refine ⟨⟨?_, roundsFree_self ⟨0, 0, by norm_num [Fmt.prec], by norm_num⟩⟩,
    ⟨?_, roundsFree_self ⟨3, 0, by norm_num [Fmt.prec, Fmt.frac], by norm_num⟩⟩,
    ⟨?_, roundsFree_self ⟨2 ^ 24 - 1, 105, by norm_num [Fmt.prec, Fmt.frac], ?_⟩⟩,
    ⟨?_, roundsFree_self ⟨1, -127, by norm_num [Fmt.prec, Fmt.frac], ?_⟩⟩,
    ⟨?_, roundsFree_down⟩, ?_, ?_⟩
  · have := ExactResult.add (t := rounding rm) _ _ o1 on; rw [h1, hn, show ((1 : ℚ) : ℝ) + ((-1 : ℚ) : ℝ) = 0 by norm_num] at this; exact ⟨_, this⟩
  · have := ExactResult.add (t := rounding rm) _ _ o1 o2; rw [h1, h2, show ((1 : ℚ) : ℝ) + ((2 : ℚ) : ℝ) = 3 by norm_num] at this; exact ⟨_, this⟩
  · have := ExactResult.mul (t := rounding rm) _ _ oM o2; rw [hM, h2, Rat.cast_ofNat] at this; exact ⟨_, this⟩
  · have h : maxFinite .S = (2 ^ 24 - 1) * 2 ^ (104 : ℤ) := by decide +kernel
    rw [h]; norm_num
  · have := ExactResult.mul (t := rounding rm) _ _ om oh; rw [hm, hh, show ((1 / 2 : ℚ) : ℝ) = 1 / 2 by norm_num] at this; exact ⟨_, this⟩
  · have h : minNormal .S = 2 ^ (-126 : ℤ) := by decide +kernel
    rw [h]; norm_num
  · have := ExactResult.add (t := rounding 3) _ _ o1 oe
    rw [h1, he, show ((1 : ℚ) : ℝ) + ((2 ^ (-24 : ℤ) : ℚ) : ℝ) = 1 + (2 : ℝ) ^ (-24 : ℤ) by norm_num] at this; exact ⟨_, this⟩
  · rw [abs_of_pos (by linarith)]; linarith
  · rw [abs_of_pos (by linarith)]; linarith

/-- A multiply-add whose product and sum are exact, one of which neither is; one with an invalid product, one whose product traps. -/
theorem witness_MultiplyAdd :
    (Ordinary .S 0x40000000 ∧ Ordinary .S 0 ∧ fpKind .S 0x7F800000 = .infinity ∧ (fpMul .S (rounding 0) 0 0x7F800000).x = xV ∧
      TrapsUnder { rounding 0 with enables := 1 } (fpMul .S { rounding 0 with enables := 1 } 0x3F800001 0x3F800001).x ∧
      ¬TrapsUnder (rounding 0) (fpMul .S (rounding 0) 0x3F800001 0x3F800001).x) ∧
    fpFinite .S 0x3F800001 ∧ fpFinite .S 0x40000000 ∧ (fpMulAdd .S (rounding 0) false false 0x40000000 0x40000000 0x40000000).x = 0 ∧
      (fpMulAdd .S (rounding 0) true true 0x40000000 0x3F800001 0x3F800001).x = xI ∧ (rounding 0).enables.getLsbD 0 = false := by
  unfold fpFinite Ordinary TrapsUnder; decide +kernel

/-- The reciprocals of 2 and of the square root of 4, the latter whatever RSQRT_ULP is; the exponent of their unit; the exact reciprocal. -/
theorem witness_Reciprocals :
    fpKind .S 0x40000000 = .normal ∧ fpKind .S 0x40800000 = .normal ∧ fpSign .S 0x40800000 = false ∧
      (2 : ℝ) ^ ((-24 : ℤ) + Fmt.S.frac) ≤ |1 / 2| ∧ |1 / 2| < (2 : ℝ) ^ ((-24 : ℤ) + Fmt.S.prec) ∧
      fpKind .S 0x3F000000 = .normal ∧ (fpValue .S 0x3F000000 : ℝ) = 1 / fpValue .S 0x40000000 := by
  obtain ⟨-, -, h2, hh, -⟩ := values
  refine ⟨by decide +kernel, by decide +kernel, by decide +kernel, ?_, ?_, by decide +kernel, by rw [h2, hh]; norm_num⟩
  · norm_num [Fmt.frac]
  · norm_num [Fmt.prec, Fmt.frac]

/-- Fixed point: in range and out of it, at its ends. -/
theorem witness_ToFixedPoint :
    (Ordinary .D 0x41DFFFFFFFC00000 ∧ (fpToW .D 1 0x41DFFFFFFFC00000).x = 0) ∧
      (Ordinary .D 0x41E0000000000000 ∧ (fpToW .D 1 0x41E0000000000000).x = xE) ∧
      Ordinary .D 0x433FFFFFFFFFFFFF ∧ (fpToL .D 0 0x433FFFFFFFFFFFFF).x = 0 ∧ (fpToL .D 0 0x4340000000000000).x = xE := by
  unfold Ordinary; decide +kernel

/-- Every kind of operand, of both signs where a clause asks for one; a sum that cancels; the ends of CVT.fmt.L. -/
theorem witness_SpecialOperands :
    fpKind .S 1 = .denormal ∧ KindSign .S .normal false 0x3F800000 ∧ KindSign .S .normal true 0xBF800000 ∧ fpKind .S 0x7FC00000 = .signalingNaN ∧
      fpKind .S 0x7F800001 = .quietNaN ∧ KindSign .S .infinity false 0x7F800000 ∧ KindSign .S .infinity true 0xFF800000 ∧
      KindSign .S .zero false 0 ∧ KindSign .S .zero true 0x80000000 ∧ fpValue .S 0x3F800000 = -fpValue .S 0xBF800000 ∧
      (fpAdd .S (rounding 0) 0x3F800000 0x3F800000).x.getLsbD 5 = false ∧ low32 0xFFFFFFFF00000000 = 0 ∧
      (-2 ^ 52 - 1 : Int) = (0xFFEFFFFFFFFFFFFF#64).toInt ∧ (2 ^ 52 : Int) = (0x0010000000000000#64).toInt := by
  unfold KindSign; decide +kernel

theorem witness_FpMoves :
    (∃ f, fpMoveForm allUsable (.movzD 30 0 0) = some f ∧ Cp1Ok allUsable ∧ Mips4Ok allUsable ∧ FprsOk [f.fd, f.fs] allUsable ∧
      f.moved = true) ∧
    ∃ f, fpMoveForm allUsable (.movnS 2 4 0) = some f ∧ FprsOk [f.fd, f.fs] allUsable ∧ f.moved = false :=
  ⟨⟨_, rfl, by unfold Cp1Ok; decide +kernel, by unfold Mips4Ok; decide +kernel, by unfold FprsOk; decide +kernel, by decide +kernel⟩,
    ⟨_, rfl, by unfold FprsOk; decide +kernel, by decide +kernel⟩⟩

theorem witness_MovesOfCoprocessor1 :
    Cp1Ok allUsable ∧ WideOk true allUsable ∧ FprsOk [30] allUsable ∧ allUsable.fpBusy = false ∧
      (low32 (readGpr (withFcr 0 0x10800 0 0) 2)).getLsbD 16 = true ∧ (low32 (readGpr (withFcr 0 0x10800 0 0) 2)).getLsbD 11 = true ∧
      (∀ k < 5, (low32 (readGpr allUsable 2)).getLsbD (12 + k) = true → (low32 (readGpr allUsable 2)).getLsbD (7 + k) = false) ∧
      (low32 (readGpr allUsable 2)).getLsbD 17 = false ∧ fcrExists 1 = false ∧ fcrExists 30 = false := by
  unfold Cp1Ok WideOk FprsOk; decide +kernel

/-- The base in the user region, the index far from it. -/
def farState : State := (memState.writeGpr 4 0x10).writeGpr 5 0xFFFFFFFF80001000

/-- The premises of the statement on loads and stores of floating-point registers. -/
abbrev FpAccesses (s : State) (k : AccessKind) (f : FpMemForm) (pa : PAddr) (c : BitVec 3) : Prop :=
  FpMemOk f s ∧ Accesses s k false f.va (fmtBytes f.f) pa c

/-- Every coprocessor usable, FR = 0. -/
def usableIn (s : State) : State := s.setStatus { s.cp0.status with cu := 15 }

/-- Uncached, in a line that is held, in one that is not. -/
theorem witness_FpLoads :
    (∃ f, fpLoadForm memState (.ldxc1 2 5 4) = some f ∧ SameRegion f memState ∧ FpAccesses memState .load f 0x1008 2 ∧
      GoodAnswer memState.inp.dataResponse) ∧
    (∃ f, fpLoadForm (usableIn lineState) (.lwc1 3 0x3C 4) = some f ∧ SameRegion f (usableIn lineState) ∧
      FpAccesses (usableIn lineState) .load f 0x203C 3 ∧ Held (usableIn lineState) f.va 0x203C true) ∧
    ∃ f, fpLoadForm (usableIn missState) (.ldc1 2 0x4020 4) = some f ∧ SameRegion f (usableIn missState) ∧
      FpAccesses (usableIn missState) .load f 0x6020 3 ∧ Missed (usableIn missState) f.va 0x6020 3 (lineOfByte 0) := by
  refine ⟨⟨_, rfl, by rintro b ⟨⟩; decide +kernel, ?_⟩, ⟨_, rfl, by rintro b ⟨⟩, ?_⟩, _, rfl, by rintro b ⟨⟩, ?_⟩ <;>
    unfold FpAccesses Accesses FpMemOk Cp1Ok Mips4Ok FprsOk WideOk PlainOrder Reaches
  · unfold GoodAnswer; decide +kernel
  · unfold Held LineHeld; decide +kernel
  · unfold Missed NoLine Victim BlockAnswered GoodAnswer; decide +kernel

/-- The same for stores; a miss with attribute 0, and one with attribute 3. -/
theorem witness_FpStores :
    (∃ f, fpStoreForm memState (.swc1 3 0 4) = some f ∧ SameRegion f memState ∧ FpAccesses memState .store f 0x1000 2) ∧
    (∃ f, fpStoreForm (usableIn lineState) (.sdc1 2 0x38 4) = some f ∧ SameRegion f (usableIn lineState) ∧
      FpAccesses (usableIn lineState) .store f 0x2038 3 ∧ Held (usableIn lineState) f.va 0x2038 true) ∧
    (∃ f, fpStoreForm (usableIn (throughState 0)) (.swc1 1 0x403C 4) = some f ∧ SameRegion f (usableIn (throughState 0)) ∧
      FpAccesses (usableIn (throughState 0)) .store f 0x603C 0 ∧ NoLine (usableIn (throughState 0)) f.va 0x603C) ∧
    ∃ f, fpStoreForm (usableIn missState) (.sdc1 2 0x4020 4) = some f ∧ SameRegion f (usableIn missState) ∧
      FpAccesses (usableIn missState) .store f 0x6020 3 ∧ Missed (usableIn missState) f.va 0x6020 3 (lineOfByte 0) := by
  refine ⟨⟨_, rfl, by rintro b ⟨⟩, ?_⟩, ⟨_, rfl, by rintro b ⟨⟩, ?_⟩, ⟨_, rfl, by rintro b ⟨⟩, ?_⟩, _, rfl, by rintro b ⟨⟩, ?_⟩ <;>
    unfold FpAccesses Accesses FpMemOk Cp1Ok Mips4Ok FprsOk WideOk PlainOrder Reaches
  · decide +kernel
  · unfold Held LineHeld; decide +kernel
  · unfold NoLine; decide +kernel
  · unfold Missed NoLine Victim BlockAnswered GoodAnswer; decide +kernel

theorem witness_FpAddressesOutsideTheRegion :
    (∃ f, fpLoadForm farState (.lwxc1 2 5 4) = some f ∧ ¬SameRegion f farState) ∧
    (∃ f, fpStoreForm farState (.sdxc1 2 5 4) = some f ∧ ¬SameRegion f farState) ∧ Cp1Ok farState ∧ Mips4Ok farState :=
  ⟨⟨_, rfl, fun h => absurd (h 4 rfl) (by decide +kernel)⟩, ⟨_, rfl, fun h => absurd (h 4 rfl) (by decide +kernel)⟩,
    by unfold Cp1Ok Mips4Ok; decide +kernel⟩

/-! ## Exceptions, interrupts, resets -/

theorem witness_GeneralExceptionEntry :
    (∀ info, Exc.overflow ≠ .cacheError info) ∧ (∀ store va, Exc.overflow ≠ .tlbRefill store va) ∧
      (∀ info, Exc.tlbRefill true 0xFFFFFFFFDFFFFFFF ≠ .cacheError info) ∧ Settled State.reset :=
  ⟨nofun, nofun, nofun, rfl⟩

theorem witness_ExceptionRegisters :
    (∃ t, t = takeException (.tlbModified 0xFFFFFFFFFFFFFFFF) refillState) ∧ Settled refillState ∧
      ∃ t, t = takeException (.cacheError ⟨true, false, true, false, false, false⟩) refillState :=
  ⟨⟨_, rfl⟩, rfl, ⟨_, rfl⟩⟩

theorem witness_InterruptRequests : 4 < 5 ∧ Settled (interruptState 0x8401) ∧ interruptRequest (interruptState 0x8401) = true := by
  unfold Settled; decide +kernel

/-- An enabled interrupt in front of a word at an uncached address. -/
def requestState (w : Nat) : State := ((interruptState 0x8401).setSeq 0xFFFFFFFFA0002000 none).withFetchWord 32 w

theorem witness_InterruptTaken :
    (∃ u v t bs, Ready (requestState 0x34021234) u ∧ fetchBytes u = .ok bs v ∧ decode v.boot.bigEndianMem bs = .ok (.ori 2 0 0x1234) ∧
      interruptRequest u = true ∧ u.inp.deferInt = false ∧ exec (.ori 2 0 0x1234) v = .next t ∧ t.entered = false) ∧
    ∃ u v t bs, Ready (requestState 0x0000000C) u ∧ fetchBytes u = .ok bs v ∧ decode v.boot.bigEndianMem bs = .ok .syscall ∧
      interruptRequest u = true ∧ u.inp.deferInt = false ∧ exec .syscall v = .next t ∧ t.entered = true :=
  ⟨⟨_, _, _, _, ⟨_, rfl, rfl, rfl, rfl, by decide +kernel, rfl⟩, rfl, by decide +kernel, by decide +kernel, by decide +kernel, rfl, by decide +kernel⟩,
    ⟨_, _, _, _, ⟨_, rfl, rfl, rfl, rfl, by decide +kernel, rfl⟩, rfl, by decide +kernel, by decide +kernel, by decide +kernel, rfl, by decide +kernel⟩⟩

/-- The state after reset with a reset input, or the NMI pin asserted, in the next step. -/
def resetInput (k : Option ResetKind) (nmi : Bool) : State :=
  { State.reset with inputs := [{ EnvInput.quiet 0 nmi with reset := k }] }

/-- An NMI over a buffered write, which the environment has emptied. -/
def nmiEmptied : State :=
  { State.reset with wb := [.single 0x1000 0 [9]], inputs := [{ EnvInput.quiet 0 true with nmiEmptiesBuffer := true }] }

theorem witness_NmiAndSoftReset :
    (∃ t, applyExts (nextInput (resetInput none true)).ext (arrived (resetInput none true)) = .ok () t ∧ t.inp.reset = none ∧
      t.nmiPending ≠ 0 ∧ t.inp.nmiEmptiesBuffer = false) ∧
    (∃ t, applyExts (nextInput nmiEmptied).ext (arrived nmiEmptied) = .ok () t ∧ t.inp.reset = none ∧ t.nmiPending ≠ 0 ∧
      t.inp.nmiEmptiesBuffer = true ∧ Memory.wf t.mem ∧ t.wb ≠ [] ∧
      ∀ e ∈ t.wb, ∀ k < (entryTarget e).2, ((entryTarget e).1.toNat + k) % memSize ≠ 0x1001) ∧
    ∃ t, applyExts (nextInput (resetInput (some .warm) false)).ext (arrived (resetInput (some .warm) false)) = .ok () t ∧
      t.inp.reset = some .warm :=
  ⟨⟨_, rfl, by decide +kernel⟩, ⟨_, rfl, by decide +kernel⟩, ⟨_, rfl, by decide +kernel⟩⟩

theorem witness_ResetExceptionAndState :
    bootLegal BootMode.atReset = true ∧
      ∃ t, applyExts (nextInput (resetInput (some (.cold BootMode.atReset)) false)).ext (arrived (resetInput (some (.cold BootMode.atReset)) false)) = .ok () t ∧
        t.inp.reset = some (.cold BootMode.atReset) :=
  ⟨by decide, _, rfl, by decide +kernel⟩

theorem witness_CountAndInterruptRegister :
    (0xFFFFFFFFFFFFFF8F#64).toNat / 16 % 8 = 0 ∧ (0x10#64).toNat / 16 % 8 ≠ 0 ∧ 8 ≠ 4 := by decide

end Sys2Proof.Tests
end

section
/-! SUPPORT. The shared forms of instructions keep the invariant of a run, one lemma for each form. -/

namespace Sys2Proof.Machine

-- One thread, as in Sys2Proof/Tests: the whole text stays within the check's memory limit.
set_option Elab.async false

/-! ## The invariant through one instruction -/

/-- A property of the state a result goes on in, if it goes on. -/
inductive Leaves (P : State → Prop) : Result → Prop
  | next {t : State} : P t → Leaves P (.next t)
  | fault {f : Fault} : Leaves P (.fault f)
  | refused {r : Refusal} : Leaves P (.refused r)

theorem Leaves.of_next {P : State → Prop} {t : State} : Leaves P (.next t) → P t
  | .next h => h

/-- A meaning leaves the invariant if its result has it. -/
theorem leaves_finish {r : Res Flow} (h : Res.All Inv r) : Leaves Inv (finish r) := by
  cases r with
  | ok f s => exact .next (Inv.advance h f)
  | exc e s => exact .next (Inv.takeException h e)
  | fault f => exact .fault
  | refuse e => exact .refused

@[simp] theorem all_goOn {P : State → Prop} {s : State} : Res.All P (goOn s) ↔ P s := Iff.rfl

/-- A choice keeps what both its branches keep. -/
theorem all_ite {α : Type} {P : State → Prop} {c : Prop} [Decidable c] {a b : Res α} (ha : Res.All P a) (hb : Res.All P b) :
    Res.All P (if c then a else b) := by
  split
  · exact ha
  · exact hb

theorem all_needRegion {α : Type} {P : State → Prop} {store : Bool} {base : RegNum} {va : Dword} {s : State} {k : Res α} (h : P s)
    (hk : Res.All P k) : Res.All P (needRegion store base va s k) := all_ite hk h

theorem all_needCc {α : Type} {P : State → Prop} {cc : BitVec 3} {s : State} {k : Res α} (h : P s) (hk : Res.All P k) :
    Res.All P (needCc cc s k) := all_ite hk (all_needMips4 h hk)

/-! ### Updates of one register -/

theorem inv_ite {c : Prop} [Decidable c] {t u : State} (ht : Inv t) (hu : Inv u) : Inv (if c then t else u) := by
  split
  · exact ht
  · exact hu

section
variable {s : State} (h : Inv s)
include h

theorem inv_writeGpr (r : RegNum) (v : Dword) : Inv (s.writeGpr r v) := h.congr (by simp) (by simp) (by simp) (by simp)
theorem inv_setHi (v : Dword) : Inv (s.setHi v) := h.congr rfl rfl rfl rfl
theorem inv_setLo (v : Dword) : Inv (s.setLo v) := h.congr rfl rfl rfl rfl
theorem inv_setFgr (r : RegNum) (v : Dword) : Inv (s.setFgr r v) := h.congr rfl rfl rfl rfl
theorem inv_setFcr31 (f : Fcr31) : Inv (s.setFcr31 f) := h.congr rfl rfl rfl rfl
theorem inv_setFpBusy (b : Bool) : Inv (s.setFpBusy b) := h.congr rfl rfl rfl rfl
theorem inv_setFccOld (o : Option (Nat × BitVec 8)) : Inv (s.setFccOld o) := h.congr rfl rfl rfl rfl
theorem inv_setStandby (b : Bool) : Inv (s.setStandby b) := h.congr rfl rfl rfl rfl
theorem inv_setLink (pa : PAddr) : Inv (s.setLink pa) := h.congr rfl rfl rfl rfl
theorem inv_setTlb (i : Fin 48) (e : TlbEntry) : Inv (s.setTlb i e) := h.congr rfl rfl rfl rfl

/-- CP0 with the same Random and Wired. -/
theorem inv_setCp0 {c : Cp0} (hr : c.random = s.cp0.random := by rfl) (hw : c.wired = s.cp0.wired := by rfl) :
    Inv (s.setCp0 c) := h.congr rfl rfl hr hw

/-- CP0 with another Random or Wired in the same order. -/
theorem inv_setCp0_random {c : Cp0} (hw : c.wired ≤ c.random) (hr : c.random ≤ 47) : Inv (s.setCp0 c) := ⟨h.memory, hw, hr, h.buffer⟩

theorem inv_writeCp0Reg {n : BitVec 5} {c : Cp0} (hr : c.random = s.cp0.random := by rfl)
    (hw : c.wired = s.cp0.wired := by rfl) :
    Inv (s.writeCp0Reg n c) := inv_addHazard (inv_setCp0 h hr hw) _

theorem inv_writeFgrS (n : RegNum) (w : Word) : Inv (writeFgrS n w s) := inv_drawn (inv_setFgr h _ _) _

theorem inv_writeFgrD (n : RegNum) (v : Dword) : Inv (writeFgrD n v s) :=
  inv_ite (inv_setFgr h _ _) (inv_setFgr (inv_setFgr h _ _) _ _)

theorem inv_writeFpr (f : Fmt) (n : RegNum) (v : Dword) : Inv (writeFpr f n v s) := by
  cases f with
  | S => exact inv_writeFgrS h _ _
  | D => exact inv_writeFgrD h _ _

/-! ### Integer forms -/

theorem inv_write32 (rd : RegNum) (proper : Bool) (w : Word) : Res.All Inv (write32 rd proper w s) :=
  inv_drawn (inv_writeGpr h _ _) _

theorem inv_alu64 (rd : RegNum) (v : Dword) : Res.All Inv (alu64 rd v s) := inv_writeGpr h _ _

theorem inv_trapping32 (proper overflow : Bool) (w : Word) (rd : RegNum) : Res.All Inv (trapping32 proper overflow w rd s) :=
  all_ite (all_ite h (inv_writeGpr h _ _)) (all_ite (inv_drawn h _) (inv_drawn (inv_writeGpr h _ _) _))

theorem inv_trapping64 (overflow : Bool) (v : Dword) (rd : RegNum) : Res.All Inv (trapping64 overflow v rd s) :=
  all_ite h (inv_writeGpr h _ _)

theorem inv_writeHiLo (hi lo : Dword) : Res.All Inv (writeHiLo hi lo s) := inv_setLo (inv_setHi h _) _

theorem inv_freeHiLo : Res.All Inv (freeHiLo s) := inv_drawn (inv_setLo (inv_setHi h _) _) _

theorem inv_moveIf (c : Bool) (rd rs : RegNum) : Res.All Inv (moveIf c rd rs s) := inv_ite (inv_writeGpr h _ _) h

theorem inv_trapIf (c : Bool) : Res.All Inv (trapIf c s) := all_ite h h

/-- A jump or branch, linking or not: control apart, it writes a general register at most. -/
theorem inv_branch (c : Bool) (o : BitVec 16) : Res.All Inv (branch c o s) := all_notInSlot h
theorem inv_branchLikely (c : Bool) (o : BitVec 16) : Res.All Inv (branchLikely c o s) := all_notInSlot h
theorem inv_branchLink (c : Bool) (rs : RegNum) (o : BitVec 16) : Res.All Inv (branchLink c rs o s) :=
  all_notInSlot (all_ite trivial (inv_writeGpr h _ _))
theorem inv_branchLinkLikely (c : Bool) (rs : RegNum) (o : BitVec 16) : Res.All Inv (branchLinkLikely c rs o s) :=
  all_notInSlot (all_ite trivial (inv_writeGpr h _ _))

/-! ### Loads and stores -/

theorem inv_loadGpr (n : Nat) (ext : Dword → Dword) (rt : RegNum) (va : Dword) : Res.All Inv (loadGpr n ext rt va s) :=
  all_needAligned h (Res.all_bind (inv_loadValue h _ _) fun _ _ ht => inv_writeGpr ht _ _)

theorem inv_storeBytes (n : Nat) (v va : Dword) : Res.All Inv (storeBytes n v va s) :=
  all_needAligned h (Res.all_bind (inv_storeValue h _ _ _) fun _ _ ht => ht)

theorem inv_loadPart (left : Bool) (size : Nat) (ext : Dword → Dword) (rt : RegNum) (va : Dword) :
    Res.All Inv (loadPart left size ext rt va s) :=
  Look.all_on h fun _ => Res.all_bind (inv_loadPhys h _ _ _ _) fun _ _ ht => inv_writeGpr ht _ _

theorem inv_storePart (left : Bool) (size : Nat) (rt : RegNum) (va : Dword) : Res.All Inv (storePart left size rt va s) :=
  Look.all_on h fun _ => Res.all_bind (inv_storePhys h _ _ _ _) fun _ _ ht => ht

theorem inv_loadLinked (n : Nat) (ext : Dword → Dword) (rt : RegNum) (va : Dword) : Res.All Inv (loadLinked n ext rt va s) :=
  all_needAligned h (Look.all_on h fun _ => all_ite trivial
    (Res.all_bind (inv_loadPhys h _ _ _ _) fun _ _ ht => inv_setCp0 (inv_setLink (inv_writeGpr ht _ _) _)))

theorem inv_storeConditional (n : Nat) (rt : RegNum) (va : Dword) : Res.All Inv (storeConditional n rt va s) :=
  all_needAligned h (Look.all_on h fun _ => all_ite trivial (all_ite trivial (all_ite (inv_writeGpr h _ _)
    (Res.all_bind (inv_storePhys h _ _ _ _) fun _ _ ht => inv_writeGpr ht _ _))))

theorem inv_loadFpr (f : Fmt) (n : RegNum) (va : Dword) : Res.All Inv (loadFpr f n va s) := by
  have load : ∀ g m, Res.All Inv (needAligned m false va s (Res.bind (loadValue va m s) fun v t => goOn (writeFpr g n v t))) :=
    fun _ _ => all_needAligned h (Res.all_bind (inv_loadValue h _ _) fun _ _ ht => inv_writeFpr ht _ _ _)
  cases f with
  | S => exact load .S 4
  | D => exact all_evenFprs (load .D 8)

theorem inv_storeFpr (f : Fmt) (n : RegNum) (va : Dword) : Res.All Inv (storeFpr f n va s) := by
  cases f with
  | S => exact inv_storeBytes h _ _ _
  | D => exact all_evenFprs (inv_storeBytes h _ _ _)

theorem inv_indexed (store : Bool) (base index : RegNum) {k : Dword → Res Flow} (hk : ∀ va, Res.All Inv (k va)) :
    Res.All Inv (indexed store base index s k) := all_needCp1 h (all_needMips4 h (all_needRegion h (hk _)))

/-! ### Floating point -/

theorem inv_fpComplete (busy : Bool) (x : BitVec 6) {k : State → State} (hk : ∀ t, Inv t → Inv (k t)) :
    Res.All Inv (fpComplete busy x k s) := all_ite (inv_setFcr31 h _) (hk _ (inv_setFpBusy (inv_setFcr31 h _) _))

theorem inv_fpOne (g f : Fmt) (busy : Bool) (fd fs : RegNum) (op : Dword → FpOut) : Res.All Inv (fpOne g f busy fd fs op s) :=
  all_evenFprs (inv_fpComplete h _ _ fun _ ht => inv_writeFpr ht _ _ _)

theorem inv_fpTwo (f : Fmt) (fd fs ft : RegNum) (op : Fcr31 → Dword → Dword → FpOut) : Res.All Inv (fpTwo f fd fs ft op s) :=
  all_evenFprs (inv_fpComplete h _ _ fun _ ht => inv_writeFpr ht _ _ _)

theorem inv_fpApprox (f : Fmt) (fd fs : RegNum) (op : Fcr31 → Dword → Nat → Bool → FpOut) : Res.All Inv (fpApprox f fd fs op s) :=
  all_evenFprs (inv_fpComplete (inv_drawn h _) _ _ fun _ ht => inv_writeFpr ht _ _ _)

theorem inv_fpThree (f : Fmt) (sub neg : Bool) (fd fr fs ft : RegNum) : Res.All Inv (fpThree f sub neg fd fr fs ft s) :=
  all_evenFprs (inv_fpComplete h _ _ fun _ ht => inv_writeFpr ht _ _ _)

theorem inv_fpCompare (f : Fmt) (cond : BitVec 4) (cc : BitVec 3) (fs ft : RegNum) : Res.All Inv (fpCompare f cond cc fs ft s) :=
  all_needCp1 h (all_needCc h (all_evenFprs (inv_fpComplete h _ _ fun _ ht => inv_setFccOld (inv_setFcr31 ht _) _)))

theorem inv_fpBranch (likely test : Bool) (cc : BitVec 3) (o : BitVec 16) : Res.All Inv (fpBranch likely test cc o s) :=
  all_needCp1 h (all_needCc h (all_notInSlot h))

theorem inv_moveFpr (f : Fmt) (c : Bool) (fd fs : RegNum) : Res.All Inv (moveFpr f c fd fs s) :=
  all_evenFprs (inv_ite (inv_writeFpr h _ _ _) h)

theorem inv_undefinedFp : Res.All Inv (undefinedFp s) := all_needCp1 h (inv_fpComplete h _ _ fun _ ht => ht)

/-! ### CP0 and the TLB -/

theorem inv_writeStatus (w : Word) : Res.All Inv (writeStatus w s) := by
  have hu : Inv (s.writeCp0Reg 12 { s.cp0 with status := unpackStatus w }) := inv_writeCp0Reg h
  exact all_ite trivial (inv_ite (hu.congr rfl rfl rfl rfl) hu)

theorem inv_writeConfig (w : Word) : Res.All Inv (writeConfig w s) := by
  have hu : Inv (s.writeCp0Reg 16 { s.cp0 with configSE := w.getLsbD 12, configK0 := w.extractLsb' 0 3 }) := inv_writeCp0Reg h
  exact all_ite trivial (inv_ite (hu.congr rfl rfl rfl rfl) hu)

/-- A move to CP0: Wired apart, Random and Wired are kept; Wired takes a value up to 47, and Random becomes 47 (R46). -/
theorem inv_writeCp0 (n : BitVec 5) (v : Dword) : Res.All Inv (writeCp0 n v s) := by
  have reg : ∀ {m : BitVec 5} {c : Cp0}, c.random = s.cp0.random → c.wired = s.cp0.wired →
      Res.All Inv (goOn (s.writeCp0Reg m c)) := fun hr hw => inv_writeCp0Reg h hr hw
  have wired : Res.All Inv (if (low32 v).extractLsb' 0 6 > (47 : BitVec 6) then .refuse .wiredRange
      else goOn (s.writeCp0Reg 6 { s.cp0 with wired := (low32 v).extractLsb' 0 6, random := 47 })) := by
    split
    · trivial
    · next hw => exact inv_addHazard (inv_setCp0_random h (BitVec.not_lt.1 hw) (BitVec.le_refl _)) _
  have compare : Inv { s.writeCp0Reg 11 { s.cp0 with compare := low32 v } with timerInt := false } :=
    (inv_writeCp0Reg h (n := 11) (c := { s.cp0 with compare := low32 v }) rfl rfl).congr rfl rfl rfl rfl
  unfold writeCp0
  exact all_ite (reg rfl rfl) <| all_ite (reg rfl rfl) <| all_ite (reg rfl rfl) <| all_ite (reg rfl rfl) <| all_ite (reg rfl rfl) <|
    all_ite wired <| all_ite (reg rfl rfl) <| all_ite (reg rfl rfl) <| all_ite (inv_addHazard compare _) <|
    all_ite (inv_writeStatus h _) <| all_ite (reg rfl rfl) <| all_ite (reg rfl rfl) <| all_ite (inv_writeConfig h _) <|
    all_ite (reg rfl rfl) <| all_ite (reg rfl rfl) <| all_ite (reg rfl rfl) <| all_ite (reg rfl rfl) <| all_ite (reg rfl rfl) <|
    all_ite (reg rfl rfl) h

theorem inv_tlbWrite (i : Nat) : Res.All Inv (tlbWrite i s) := by
  unfold tlbWrite
  dsimp only
  split
  · split
    · trivial
    · exact inv_addHazard (inv_setTlb h _ _) _
  · trivial

theorem inv_returnFromException : Inv (returnFromException s).2 := by
  unfold returnFromException
  dsimp only
  split <;> exact h.congr rfl rfl rfl rfl

end

end Sys2Proof.Machine
end

section
/-! SUPPORT. Every instruction keeps the invariant of a run, the CACHE operations one by one, the others form by form. -/

namespace Sys2Proof.Machine

-- One thread, as in Sys2Proof/Tests: the whole text stays within the check's memory limit.
set_option Elab.async false

/-! ### CACHE -/

theorem inv_cachedOnly {c : BitVec 3} {k : Res Unit} (hk : Res.All Inv k) : Res.All Inv (cachedOnly c k) := all_ite trivial hk

theorem inv_needScache {s : State} {k : Res Unit} (hk : Res.All Inv k) : Res.All Inv (needScache s k) := all_ite hk trivial

section
variable {s : State} (h : Inv s)
include h

theorem inv_freeCh : Inv (freeCh s) := h.congr rfl rfl rfl rfl

theorem inv_cacheOp (o : BitVec 16) (b : RegNum) {k : Dword → PAddr → BitVec 3 → Res Unit} (hk : ∀ va pa c, Res.All Inv (k va pa c)) :
    Res.All Inv (cacheOp o b s k) :=
  all_needCp0 h (Look.all_on h fun _ => Res.all_bind (hk _ _ _) fun _ _ ht => inv_freeCh ht)

theorem inv_loadTagRegs (v : Word) : Inv (loadTagRegs v s) := inv_addHazard (inv_addHazard (inv_setCp0 h) _) _

theorem inv_putILine (i : Nat) (way : Bool) (l : ILine) : Inv (putILine i way l s) := inv_addHazard (inv_putISet h _ _) _
theorem inv_invalidateI (i : Nat) (way : Bool) : Inv (invalidateI i way s) := inv_putILine h _ _ _
theorem inv_putDLine (i : Nat) (way : Bool) (l : DLine) : Inv (putDLine i way l s) := inv_putDSet h _ _
theorem inv_invalidateD (i : Nat) (way : Bool) : Inv (invalidateD i way s) := inv_lineGone (inv_putDLine h _ _ _) _ _

theorem inv_writeBackIf (i : Nat) (way : Bool) (vi : BitVec 2) (ret : Bool) {k : State → Res Unit}
    (hk : ∀ t, Inv t → Res.All Inv (k t)) : Res.All Inv (writeBackIf i way vi ret s k) := by
  unfold writeBackIf
  dsimp only
  split
  · split
    · exact inv_writeBack h _ _ _ _
    · exact hk _ (inv_writeBack h _ _ _ _)
  · exact hk _ h

theorem inv_storeSTags (w : Word) (i n : Nat) : Inv (storeSTags w i n s) := by
  induction n generalizing i s with
  | zero => exact h
  | succ n ih => exact ih (inv_putSLine h _ _) _

theorem leaves_cacheIIndexInvalidate (o : BitVec 16) (b : RegNum) : Leaves Inv (execCacheIIndexInvalidate o b s) :=
  leaves_finish (inv_cacheOp h _ _ fun _ _ _ => inv_invalidateI h _ _)

theorem leaves_cacheIIndexLoadTag (o : BitVec 16) (b : RegNum) : Leaves Inv (execCacheIIndexLoadTag o b s) :=
  leaves_finish (inv_cacheOp h _ _ fun _ _ _ => inv_drawn (inv_loadTagRegs h _) _)

theorem leaves_cacheIIndexStoreTag (o : BitVec 16) (b : RegNum) : Leaves Inv (execCacheIIndexStoreTag o b s) :=
  leaves_finish (inv_cacheOp h _ _ fun _ _ _ => all_ite trivial (inv_drawn (inv_addHazard (inv_putISet h _ _) _) _))

theorem leaves_cacheIHitInvalidate (o : BitVec 16) (b : RegNum) : Leaves Inv (execCacheIHitInvalidate o b s) := by
  refine leaves_finish (inv_cacheOp h _ _ fun _ _ _ => inv_cachedOnly ?_)
  split
  · exact inv_invalidateI h _ _
  · exact h

theorem leaves_cacheIFill (o : BitVec 16) (b : RegNum) : Leaves Inv (execCacheIFill o b s) :=
  leaves_finish (inv_cacheOp h _ _ fun _ _ _ => inv_cachedOnly
    (Res.all_bind (inv_refillI h _ _ _ _ _ _ _) fun _ _ ht => inv_addHazard ht _))

theorem leaves_cacheIHitWriteback (o : BitVec 16) (b : RegNum) : Leaves Inv (execCacheIHitWriteback o b s) := by
  refine leaves_finish (inv_cacheOp h _ _ fun _ _ _ => inv_cachedOnly ?_)
  split
  · exact all_ite (inv_pushBlock h _ _ _ _ _ _) (inv_pushBlock h _ _ _ _ _ _)
  · exact h

theorem leaves_cacheDIndexWritebackInvalidate (o : BitVec 16) (b : RegNum) :
    Leaves Inv (execCacheDIndexWritebackInvalidate o b s) :=
  leaves_finish (inv_cacheOp h _ _ fun _ _ _ => inv_writeBackIf h _ _ _ _ fun _ ht => inv_invalidateD ht _ _)

theorem leaves_cacheDIndexLoadTag (o : BitVec 16) (b : RegNum) : Leaves Inv (execCacheDIndexLoadTag o b s) :=
  leaves_finish (inv_cacheOp h _ _ fun _ _ _ => inv_drawn (inv_addHazard (inv_setCp0 (inv_loadTagRegs h _)) _) _)

theorem leaves_cacheDIndexStoreTag (o : BitVec 16) (b : RegNum) : Leaves Inv (execCacheDIndexStoreTag o b s) :=
  leaves_finish (inv_cacheOp h _ _ fun _ _ _ => all_ite trivial (inv_drawn (inv_lineGone (inv_putDSet h _ _) _ _) _))

theorem leaves_cacheDCreateDirtyExclusive (o : BitVec 16) (b : RegNum) : Leaves Inv (execCacheDCreateDirtyExclusive o b s) := by
  refine leaves_finish (inv_cacheOp h _ _ fun _ _ _ => inv_cachedOnly ?_)
  dsimp only
  split
  · exact inv_putDLine h _ _ _
  · exact Res.all_bind (inv_replaceD (inv_drawn h 1) _ _ _ _) fun _ _ ht => ht

theorem leaves_cacheDHitInvalidate (o : BitVec 16) (b : RegNum) : Leaves Inv (execCacheDHitInvalidate o b s) := by
  refine leaves_finish (inv_cacheOp h _ _ fun _ _ _ => inv_cachedOnly ?_)
  split
  · exact inv_invalidateD h _ _
  · exact h

theorem leaves_cacheDHitWritebackInvalidate (o : BitVec 16) (b : RegNum) : Leaves Inv (execCacheDHitWritebackInvalidate o b s) := by
  refine leaves_finish (inv_cacheOp h _ _ fun _ _ _ => inv_cachedOnly ?_)
  split
  · exact inv_writeBackIf h _ _ _ _ fun _ ht => inv_invalidateD ht _ _
  · exact h

theorem leaves_cacheDHitWriteback (o : BitVec 16) (b : RegNum) : Leaves Inv (execCacheDHitWriteback o b s) := by
  refine leaves_finish (inv_cacheOp h _ _ fun _ _ _ => inv_cachedOnly ?_)
  split
  · exact all_ite (inv_writeBackIf h _ _ _ _ fun _ ht => inv_putDLine ht _ _ _) h
  · exact h

theorem leaves_cacheSValidClear (o : BitVec 16) (b : RegNum) : Leaves Inv (execCacheSValidClear o b s) :=
  leaves_finish (inv_cacheOp h _ _ fun _ _ _ => inv_needScache (all_ite trivial (h.congr rfl rfl rfl rfl)))

theorem leaves_cacheSIndexLoadTag (o : BitVec 16) (b : RegNum) : Leaves Inv (execCacheSIndexLoadTag o b s) :=
  leaves_finish (inv_cacheOp h _ _ fun _ _ _ => inv_needScache (inv_drawn (inv_addHazard (inv_setCp0 h) _) _))

theorem leaves_cacheSIndexStoreTag (o : BitVec 16) (b : RegNum) : Leaves Inv (execCacheSIndexStoreTag o b s) :=
  leaves_finish (inv_cacheOp h _ _ fun _ _ _ => inv_needScache (inv_putSLine h _ _))

theorem leaves_cacheSCachePageInvalidate (o : BitVec 16) (b : RegNum) : Leaves Inv (execCacheSCachePageInvalidate o b s) :=
  leaves_finish (inv_cacheOp h _ _ fun _ _ _ => inv_needScache (all_ite trivial (inv_storeSTags h _ _ _)))

/-! ### Moves of the control registers, TLBP, TLBR, WAIT -/

theorem leaves_cfc1 (rt fs : RegNum) : Leaves Inv (execCfc1 rt fs s) :=
  leaves_finish (all_needCp1 h (all_ite (inv_writeGpr h _ _) (all_ite (inv_setFpBusy (inv_writeGpr h _ _) _) trivial)))

theorem leaves_ctc1 (rt fs : RegNum) : Leaves Inv (execCtc1 rt fs s) := by
  have written : ∀ f o n, Inv (((s.setFcr31 f).setFccOld o).drawn n) := fun _ _ _ => inv_drawn (inv_setFccOld (inv_setFcr31 h _) _) _
  exact leaves_finish (all_needCp1 h (all_ite (all_ite (written _ _ _) (written _ _ _)) (all_ite h trivial)))

theorem leaves_tlbp : Leaves Inv (execTlbp s) := by
  refine leaves_finish (all_needCp0 h ?_)
  dsimp only
  split
  · exact inv_drawn (inv_writeCp0Reg h) _
  · exact inv_writeCp0Reg h
  · trivial

theorem leaves_tlbr : Leaves Inv (execTlbr s) := by
  refine leaves_finish (all_needCp0 h ?_)
  dsimp only
  split
  · exact inv_addHazard (inv_addHazard (inv_addHazard (inv_addHazard (inv_setCp0 h) _) _) _) _
  · trivial

theorem leaves_wait : Leaves Inv (execWait s) := leaves_finish (all_needCp0 h (inv_ite (inv_setStandby h _) h))

/-! ### Every instruction -/

/-- Every instruction leaves the invariant, form by form. -/
theorem leaves_exec (i : Instr) : Leaves Inv (exec i s) := by
  cases i with
  | lb | lbu | lh | lhu | lw => exact leaves_finish (inv_loadGpr h _ _ _ _)
  | lwu | ld => exact leaves_finish (all_need64 h (inv_loadGpr h _ _ _ _))
  | sb | sh | sw => exact leaves_finish (inv_storeBytes h _ _ _)
  | sd => exact leaves_finish (all_need64 h (inv_storeBytes h _ _ _))
  | lwl | lwr => exact leaves_finish (inv_loadPart h _ _ _ _ _)
  | ldl | ldr => exact leaves_finish (all_need64 h (inv_loadPart h _ _ _ _ _))
  | swl | swr => exact leaves_finish (inv_storePart h _ _ _ _)
  | sdl | sdr => exact leaves_finish (all_need64 h (inv_storePart h _ _ _ _))
  | ll => exact leaves_finish (inv_loadLinked h _ _ _ _)
  | lld => exact leaves_finish (all_need64 h (inv_loadLinked h _ _ _ _))
  | sc => exact leaves_finish (inv_storeConditional h _ _ _)
  | scd => exact leaves_finish (all_need64 h (inv_storeConditional h _ _ _))
  | pref => exact leaves_finish (all_needMips4 h h)
  | addi | add | sub => exact leaves_finish (inv_trapping32 h _ _ _ _)
  | daddi | dadd | dsub => exact leaves_finish (all_need64 h (inv_trapping64 h _ _ _))
  | addiu | addu | subu | sll | srl | sra | sllv | srlv | srav => exact leaves_finish (inv_write32 h _ _ _)
  | slti | sltiu | andi | ori | xori | lui | and | or | xor | nor | slt | sltu => exact leaves_finish (inv_alu64 h _ _)
  | daddiu | daddu | dsubu | dsll | dsrl | dsra | dsll32 | dsrl32 | dsra32 | dsllv | dsrlv | dsrav =>
    exact leaves_finish (all_need64 h (inv_alu64 h _ _))
  | mult | multu | div | divu => exact leaves_finish (all_ite (inv_writeHiLo h _ _) (inv_freeHiLo h))
  | dmult | dmultu => exact leaves_finish (all_need64 h (inv_writeHiLo h _ _))
  | ddiv | ddivu => exact leaves_finish (all_need64 h (all_ite (inv_writeHiLo h _ _) (inv_freeHiLo h)))
  | mfhi | mflo => exact leaves_finish (all_goOn.2 (inv_writeGpr h _ _))
  | mthi => exact leaves_finish (all_goOn.2 (inv_setHi h _))
  | mtlo => exact leaves_finish (all_goOn.2 (inv_setLo h _))
  | movn | movz => exact leaves_finish (all_needMips4 h (inv_moveIf h _ _ _))
  | movf | movt => exact leaves_finish (all_needCp1 h (all_needMips4 h (inv_moveIf h _ _ _)))
  | j | jr => exact leaves_finish (all_notInSlot h)
  | jal => exact leaves_finish (all_notInSlot (inv_writeGpr h _ _))
  | jalr => exact leaves_finish (all_notInSlot (all_ite trivial (inv_writeGpr h _ _)))
  | beq | bne | blez | bgtz | bltz | bgez => exact leaves_finish (inv_branch h _ _)
  | beql | bnel | blezl | bgtzl | bltzl | bgezl => exact leaves_finish (inv_branchLikely h _ _)
  | bltzal | bgezal => exact leaves_finish (inv_branchLink h _ _ _)
  | bltzall | bgezall => exact leaves_finish (inv_branchLinkLikely h _ _ _)
  | tge | tgeu | tlt | tltu | teq | tne | tgei | tgeiu | tlti | tltiu | teqi | tnei => exact leaves_finish (inv_trapIf h _)
  | mfc0 => exact leaves_finish (all_needCp0 h (all_ite trivial (inv_writeGpr h _ _)))
  | mtc0 => exact leaves_finish (all_needCp0 h (all_ite trivial (inv_writeCp0 h _ _)))
  | dmfc0 => exact leaves_finish (all_needCp0 h (all_need64 h (all_ite trivial (all_ite trivial (inv_writeGpr h _ _)))))
  | dmtc0 => exact leaves_finish (all_needCp0 h (all_need64 h (all_ite trivial (all_ite trivial (inv_writeCp0 h _ _)))))
  | cacheIIndexInvalidate => exact leaves_cacheIIndexInvalidate h _ _
  | cacheIIndexLoadTag => exact leaves_cacheIIndexLoadTag h _ _
  | cacheIIndexStoreTag => exact leaves_cacheIIndexStoreTag h _ _
  | cacheIHitInvalidate => exact leaves_cacheIHitInvalidate h _ _
  | cacheIFill => exact leaves_cacheIFill h _ _
  | cacheIHitWriteback => exact leaves_cacheIHitWriteback h _ _
  | cacheDIndexWritebackInvalidate => exact leaves_cacheDIndexWritebackInvalidate h _ _
  | cacheDIndexLoadTag => exact leaves_cacheDIndexLoadTag h _ _
  | cacheDIndexStoreTag => exact leaves_cacheDIndexStoreTag h _ _
  | cacheDCreateDirtyExclusive => exact leaves_cacheDCreateDirtyExclusive h _ _
  | cacheDHitInvalidate => exact leaves_cacheDHitInvalidate h _ _
  | cacheDHitWritebackInvalidate => exact leaves_cacheDHitWritebackInvalidate h _ _
  | cacheDHitWriteback => exact leaves_cacheDHitWriteback h _ _
  | cacheSValidClear => exact leaves_cacheSValidClear h _ _
  | cacheSIndexLoadTag => exact leaves_cacheSIndexLoadTag h _ _
  | cacheSIndexStoreTag => exact leaves_cacheSIndexStoreTag h _ _
  | cacheSCachePageInvalidate => exact leaves_cacheSCachePageInvalidate h _ _
  | lwc1 | ldc1 => exact leaves_finish (all_needCp1 h (inv_loadFpr h _ _ _))
  | swc1 | sdc1 => exact leaves_finish (all_needCp1 h (inv_storeFpr h _ _ _))
  | lwxc1 | ldxc1 => exact leaves_finish (inv_indexed h _ _ _ fun _ => inv_loadFpr h _ _ _)
  | swxc1 | sdxc1 => exact leaves_finish (inv_indexed h _ _ _ fun _ => inv_storeFpr h _ _ _)
  | mfc1 => exact leaves_finish (all_needCp1 h (inv_writeGpr h _ _))
  | mtc1 => exact leaves_finish (all_needCp1 h (inv_writeFgrS h _ _))
  | dmfc1 => exact leaves_finish (all_needCp1 h (all_need64 h (all_evenFprs (inv_writeGpr h _ _))))
  | dmtc1 => exact leaves_finish (all_needCp1 h (all_need64 h (all_evenFprs (inv_writeFgrD h _ _))))
  | cfc1 => exact leaves_cfc1 h _ _
  | ctc1 => exact leaves_ctc1 h _ _
  | movS | movD => exact leaves_finish (all_needCp1 h (inv_moveFpr h _ _ _ _))
  | movfS | movtS | movzS | movnS | movfD | movtD | movzD | movnD =>
    exact leaves_finish (all_needCp1 h (all_needMips4 h (inv_moveFpr h _ _ _ _)))
  | addS | addD | subS | subD | mulS | mulD | divS | divD => exact leaves_finish (all_needCp1 h (inv_fpTwo h _ _ _ _ _))
  | sqrtS | sqrtD | absS | absD | negS | negD | roundWS | roundWD | truncWS | truncWD | ceilWS | ceilWD | floorWS | floorWD | cvtWS
  | cvtWD | roundLS | roundLD | truncLS | truncLD | ceilLS | ceilLD | floorLS | floorLD | cvtLS | cvtLD | cvtSD | cvtSW | cvtSL
  | cvtDS | cvtDW | cvtDL => exact leaves_finish (all_needCp1 h (inv_fpOne h _ _ _ _ _ _))
  | recipS | recipD | rsqrtS | rsqrtD => exact leaves_finish (all_needCp1 h (all_needMips4 h (inv_fpApprox h _ _ _ _)))
  | maddS | maddD | msubS | msubD | nmaddS | nmaddD | nmsubS | nmsubD =>
    exact leaves_finish (all_needCp1 h (all_needMips4 h (inv_fpThree h _ _ _ _ _ _ _)))
  | cFS | cFD | cUnS | cUnD | cEqS | cEqD | cUeqS | cUeqD | cOltS | cOltD | cUltS | cUltD | cOleS | cOleD | cUleS | cUleD | cSfS
  | cSfD | cNgleS | cNgleD | cSeqS | cSeqD | cNglS | cNglD | cLtS | cLtD | cNgeS | cNgeD | cLeS | cLeD | cNgtS | cNgtD =>
    exact leaves_finish (inv_fpCompare h _ _ _ _ _)
  | bc1f | bc1t | bc1fl | bc1tl => exact leaves_finish (inv_fpBranch h _ _ _ _)
  | syscall | brk => exact leaves_finish (Res.all_exc.2 h)
  | sync => exact leaves_finish (all_goOn.2 (inv_drainAll h))
  | tlbr => exact leaves_tlbr h
  | tlbwi | tlbwr => exact leaves_finish (all_needCp0 h (inv_tlbWrite h _))
  | tlbp => exact leaves_tlbp h
  | eret => exact leaves_finish (all_needCp0 h (all_notInSlot (inv_returnFromException h)))
  | wait => exact leaves_wait h
  | prefx => exact leaves_finish (all_needCp1 h (all_needMips4 h h))

end

end Sys2Proof.Machine
end

section
/-! SUPPORT. The environment, the resets and the step keep the invariant; the reset state has it (O5, O6). -/

namespace Sys2Proof.Machine

-- One thread, as in Sys2Proof/Tests: the whole text stays within the check's memory limit.
set_option Elab.async false

/-! ## The invariant through the environment, the resets and the step -/

@[simp] theorem coldReset_mem (b : BootMode) (s : State) : (coldReset b s).mem = (abandonWrites s).mem := by
  simp only [coldReset, scrambleCaches]
@[simp] theorem coldReset_wb (b : BootMode) (s : State) : (coldReset b s).wb = [] := by
  simp only [coldReset, scrambleCaches, State.reset]
@[simp] theorem coldReset_cp0 (b : BootMode) (s : State) : (coldReset b s).cp0 = freeCp0 (abandonWrites s) 34 := by
  simp only [coldReset, scrambleCaches]

section
variable {s : State} (h : Inv s)
include h

theorem inv_countSteps (n : Nat) : Inv (countSteps n s) := by
  induction n generalizing s with
  | zero => exact h
  | succ n ih => exact ih (h.congr rfl rfl rfl rfl)

theorem inv_sampleNmi : Inv (sampleNmi s) := h.congr rfl rfl rfl rfl

theorem inv_applyExt (r : ExtRequest) : Res.All Inv (applyExt r s) := by
  cases r with
  | write => exact all_ite trivial (all_ite (inv_sampleNmi (h.congr rfl rfl rfl rfl)) h)
  | read => exact inv_drawn (inv_addBus h _) _
  | null => exact h

theorem inv_applyExts (rs : List ExtRequest) : Res.All Inv (applyExts rs s) := by
  induction rs generalizing s with
  | nil => exact h
  | cons r rs ih => exact Res.all_bind (inv_applyExt h r) fun _ _ ht => ih ht

/-- What other masters write, and the entries sent meanwhile, keep memory canonical and the buffer within its size. -/
theorem inv_arrived : Inv (arrived s) := by
  have latched : Inv { s with
      inputs := s.inputs.tail, inp := nextInput s, intPin := (nextInput s).intPin, nmiPin := (nextInput s).nmiPin,
      mem := memWriteCells s.mem (nextInput s).busWrites, bus := [], entered := false } :=
    ⟨memWriteCells_wf h.memory, h.wired, h.random, h.buffer⟩
  have sent := inv_drainSome (inv_countSteps latched (nextInput s).countTicks) (nextInput s).drain
  exact inv_sampleNmi (sent.setMem (memWriteCells_wf sent.memory))

theorem inv_abandon (ts : List (PAddr × Nat)) : Inv (abandon ts s) := by
  obtain ⟨m, n, he, hm⟩ := abandon_eq ts s
  rw [he]
  exact inv_drawn (h.setMem (hm h.memory).1) n

theorem inv_abandonWrites : Inv (abandonWrites s) := (inv_abandon h _).setWb writeBufferFits_nil

theorem inv_scrambleCaches : Inv (scrambleCaches s) := h.congr rfl rfl rfl rfl

/-- A Reset exception sets Random to 47 and Wired to 0, and empties the buffer (R851). -/
theorem inv_coldReset (b : BootMode) : Inv (coldReset b s) := by
  have hw : (coldReset b s).cp0.wired = 0 := by rw [coldReset_cp0]; rfl
  have hr : (coldReset b s).cp0.random = 47 := by rw [coldReset_cp0]; rfl
  refine ⟨?_, ?_, ?_, ?_⟩
  · rw [coldReset_mem]; exact (inv_abandonWrites h).memory
  · rw [hw, hr]; decide
  · rw [hr]; decide
  · rw [coldReset_wb]; exact writeBufferFits_nil

theorem inv_softEntry : Inv (softEntry s) := h.congr rfl rfl rfl rfl

theorem inv_warmReset : Inv (warmReset s) :=
  inv_softEntry ((inv_scrambleCaches (inv_abandonWrites h)).congr rfl rfl rfl rfl)

theorem inv_nmiEntry : Inv (nmiEntry s) :=
  inv_softEntry ((inv_ite (inv_abandonWrites h) h).congr rfl rfl rfl rfl)

theorem leaves_resetEntry (k : ResetKind) : Leaves Inv (resetEntry k s) := by
  cases k with
  | cold b =>
    unfold resetEntry
    dsimp only
    split
    · exact .next (inv_coldReset h b)
    · exact .refused
  | warm => exact .next (inv_warmReset h)

/-- Random steps down to Wired, and from there to 47 (R61). -/
theorem inv_stepRandom : Inv (stepRandom s) := by
  have hw := h.wired
  have hr := h.random
  rw [BitVec.le_def] at hw hr
  unfold stepRandom
  split
  · exact inv_setCp0_random h (BitVec.le_def.2 (hw.trans hr)) (BitVec.le_refl _)
  · next hlt =>
    have hpred : (s.cp0.random - 1).toNat = s.cp0.random.toNat - 1 := BitVec.toNat_sub_of_le (by bv_omega)
    refine inv_setCp0_random h ?_ ?_ <;> rw [BitVec.le_def, hpred] <;> bv_omega

omit h in
theorem leaves_retire (i : Instr) {r : Result} (hr : Leaves Inv r) : Leaves Inv (retire i r) := by
  cases r with
  | next t => exact .next (inv_ite hr.of_next (inv_stepRandom hr.of_next))
  | fault f => exact .fault
  | refused e => exact .refused

theorem leaves_rejected (e : DecodeError) : Leaves Inv (rejected e s) := by
  have taken : ∀ e, Leaves Inv (finish (.exc e s)) := fun _ => leaves_finish (Res.all_exc.2 h)
  cases e with
  | notOneWord | reserved => exact taken _
  | cop0Undefined => exact leaves_finish (all_needCp0 h h)
  | cop1Undefined => exact leaves_finish (inv_undefinedFp h)
  | cop2 =>
    unfold rejected
    dsimp only
    split <;> exact taken _
  | mustBeZero u =>
    cases u with
    | none => exact .refused
    | cop0 => exact leaves_finish (all_needCp0 h trivial)
    | cop1 => exact leaves_finish (all_needCp1 h trivial)
  | cacheUndefined => exact leaves_finish (all_needCp0 h trivial)

theorem leaves_runBytes (bs : List Byte) : Leaves Inv (runBytes bs s) := by
  unfold runBytes
  split
  · exact leaves_retire _ (leaves_exec h _)
  · exact leaves_rejected h _

theorem leaves_runFetched : Leaves Inv (runFetched s) := by
  have hf := inv_fetchBytes h
  unfold runFetched
  split
  · next hb => rw [hb] at hf; exact leaves_runBytes hf _
  · next hb => rw [hb] at hf; exact .next (Inv.takeException hf _)
  · exact .fault
  · exact .refused

theorem leaves_withInterrupt {r : Result} (hr : Leaves Inv r) : Leaves Inv (withInterrupt s r) := by
  have taken := h.takeException .interrupt
  unfold withInterrupt
  split
  · cases r with
    | next t =>
      dsimp only
      split
      · exact hr
      · exact .next taken
    | fault f => exact .fault
    | refused e => exact .next taken
  · exact hr

omit h in
theorem leaves_aged {r : Result} (hr : Leaves Inv r) : Leaves Inv (aged r) := by
  cases r with
  | next t => exact .next (hr.of_next.congr rfl rfl rfl rfl)
  | fault f => exact .fault
  | refused e => exact .refused

theorem leaves_boundary : Leaves Inv (boundary s) := by
  unfold boundary
  split
  · exact .refused
  · exact leaves_aged (leaves_withInterrupt h (leaves_runFetched h))

theorem leaves_afterReset : Leaves Inv (afterReset s) := by
  unfold afterReset
  split
  · exact .next (inv_nmiEntry h)
  · split
    · exact .next h
    · exact leaves_boundary (inv_setStandby h _)

theorem inv_cutOff : Inv (cutOff s) := by
  unfold cutOff
  split
  · exact h
  · split
    · next t _ => exact inv_abandon (s := { s with bus := t.bus, free := t.free }) (h.congr rfl rfl rfl rfl) _
    · exact h
    · exact h

theorem leaves_cycle : Leaves Inv (cycle s) := by
  have he := inv_applyExts (inv_arrived h) (nextInput s).ext
  unfold cycle
  split
  · next ht =>
    rw [ht] at he
    split
    · exact leaves_resetEntry (inv_ite (inv_cutOff he) he) _
    · exact leaves_afterReset he
  · next ht => rw [ht] at he; exact .next (Inv.takeException he _)
  · exact .fault
  · exact .refused

end

/-- Settles O5: what the environment does, every reset, and every instruction form by form keep the invariant. -/
theorem stepKeepsInvariant : Obligations.StepKeepsInvariant := by
  intro s t h ht
  have hc : Leaves Inv (step s) := leaves_cycle h
  rw [ht] at hc
  exact hc.of_next

/-- Settles O6: memory and buffer are empty after reset, Random is 47 and Wired 0. -/
theorem resetHasInvariant : Obligations.ResetHasInvariant := ⟨reset_mem_wf, by decide, by decide, writeBufferFits_nil⟩

end Sys2Proof.Machine
end

section
/-! SUPPORT. The checks an instruction makes before it does anything, form by form, and the forms they refuse (O34). -/

namespace Sys2Proof.Machine

-- One thread, as in Sys2Proof/Tests: the whole text stays within the check's memory limit.
set_option Elab.async false

/-! ## Checks that refuse -/

/-- An odd register while FR = 0 is refused, whatever comes after. -/
theorem evenFprs_not {α : Type} {ns : List RegNum} {s : State} {k : Res α} (h : ¬FprsOk ns s) : evenFprs ns s k = .refuse .oddFpr := by
  unfold FprsOk at h
  push Not at h
  obtain ⟨hfr, n, hn, hodd⟩ := h
  have hany : ns.any (fun n => n.getLsbD 0) = true := List.any_eq_true.2 ⟨n, hn, by simpa using hodd⟩
  unfold evenFprs
  rw [if_pos (by rw [hany]; simpa using hfr)]

/-- A doubleword load or store of a floating-point register asks for an even one first. -/
theorem loadFpr_odd {n : RegNum} {va : Dword} {s : State} (h : ¬FprsOk [n] s) : loadFpr .D n va s = .refuse .oddFpr := evenFprs_not h
theorem storeFpr_odd {n : RegNum} {va : Dword} {s : State} (h : ¬FprsOk [n] s) : storeFpr .D n va s = .refuse .oddFpr := evenFprs_not h

theorem cachedOnly_uncached (k : Res Unit) : cachedOnly 2 k = .refuse .cacheOpUncached := rfl

theorem needScache_ok {s : State} {k : Res Unit} (h : s.boot.scEnable = true) : needScache s k = k := by simp [needScache, h]
theorem needScache_not {s : State} {k : Res Unit} (h : s.boot.scEnable = false) : needScache s k = .refuse .noSecondaryCache := by
  simp [needScache, h]

/-- The region of an indexed address is its base's. -/
theorem needRegion_ok {α : Type} {store : Bool} {base : RegNum} {va : Dword} {s : State} {k : Res α}
    (h : va.toNat / 2 ^ 62 = (readGpr s base).toNat / 2 ^ 62) : needRegion store base va s k = k := by
  have hr : ∀ v : Dword, (v.extractLsb' 62 2).toNat = v.toNat / 2 ^ 62 := fun v => by
    rw [BitVec.extractLsb'_toNat, Nat.shiftRight_eq_div_pow]
    exact Nat.mod_eq_of_lt (by have := v.isLt; omega)
  unfold needRegion
  rw [if_pos (beq_iff_eq.2 (BitVec.eq_of_toNat_eq (by rw [hr, hr, h])))]

theorem needCc_ok {α : Type} {cc : BitVec 3} {s : State} {k : Res α} (h : cc ≠ 0 → Mips4Ok s) : needCc cc s k = k := by
  unfold needCc
  split
  · rfl
  · next hc => exact needMips4_ok (h hc)

/-- The MIPS IV gate of those instructions that have it. -/
theorem gate_ok {α : Type} {m : Bool} {s : State} {k : Res α} (h : m = true → Mips4Ok s) : (if m then needMips4 s k else k) = k := by
  cases m with
  | true => exact needMips4_ok (h rfl)
  | false => rfl

/-! ## What an instruction asks first, by form -/

/-- A floating-point operation: coprocessor 1, the MIPS IV gate if it has one, registers that may be named, then the operation. -/
theorem exec_of_fpForm {i : Instr} {s : State} {f : FpForm} (h : fpForm s i = some f) :
    ∃ k, exec i s = finish (needCp1 s (if f.mips4 then needMips4 s (evenFprs (f.fd :: f.srcs) s k)
      else evenFprs (f.fd :: f.srcs) s k)) := by
  cases i with
  | addS | addD | subS | subD | mulS | mulD | divS | divD | sqrtS | sqrtD | absS | absD | negS | negD | recipS | recipD | rsqrtS
  | rsqrtD | maddS | maddD | msubS | msubD | nmaddS | nmaddD | nmsubS | nmsubD | roundWS | roundWD | truncWS | truncWD | ceilWS
  | ceilWD | floorWS | floorWD | cvtWS | cvtWD | roundLS | roundLD | truncLS | truncLD | ceilLS | ceilLD | floorLS | floorLD
  | cvtLS | cvtLD | cvtSD | cvtSW | cvtSL | cvtDS | cvtDW | cvtDL => cases h; exact ⟨_, rfl⟩
  | _ => cases h

theorem exec_of_compareForm {i : Instr} {s : State} {c : CompareForm} (h : compareForm i = some c) :
    exec i s = finish (fpCompare c.f c.cond c.cc c.fs c.ft s) := by
  cases i with
  | cFS | cFD | cUnS | cUnD | cEqS | cEqD | cUeqS | cUeqD | cOltS | cOltD | cUltS | cUltD | cOleS | cOleD | cUleS | cUleD | cSfS
  | cSfD | cNgleS | cNgleD | cSeqS | cSeqD | cNglS | cNglD | cLtS | cLtD | cNgeS | cNgeD | cLeS | cLeD | cNgtS | cNgtD =>
    cases h; rfl
  | _ => cases h

theorem exec_of_fpMoveForm {i : Instr} {s : State} {f : FpMoveForm} (h : fpMoveForm s i = some f) :
    ∃ k, exec i s = finish (needCp1 s (if f.mips4 then needMips4 s (evenFprs [f.fd, f.fs] s k) else evenFprs [f.fd, f.fs] s k)) := by
  cases i with
  | movS | movD | movfS | movtS | movzS | movnS | movfD | movtD | movzD | movnD => cases h; exact ⟨_, rfl⟩
  | _ => cases h

/-- The checks between coprocessor 1 and the access: for an indexed form the MIPS IV gate and the region of the address. -/
def FpMemForm.gates (f : FpMemForm) (store : Bool) (s : State) (k : Res Flow) : Res Flow :=
  match f.base with
  | none => k
  | some b => needMips4 s (needRegion store b f.va s k)

theorem FpMemForm.gates_ok {f : FpMemForm} {store : Bool} {s : State} {k : Res Flow} (hm : f.base.isSome = true → Mips4Ok s)
    (hr : SameRegion f s) : f.gates store s k = k := by
  unfold FpMemForm.gates
  split
  · rfl
  · next b hb => rw [needMips4_ok (hm (by rw [hb]; rfl)), needRegion_ok (hr b hb)]

theorem exec_of_fpLoadForm {i : Instr} {s : State} {f : FpMemForm} (h : fpLoadForm s i = some f) :
    exec i s = finish (needCp1 s (f.gates false s (loadFpr f.f f.reg f.va s))) := by
  cases i with
  | lwc1 | ldc1 => cases h; rw [effectiveAddress_eq]; rfl
  | lwxc1 | ldxc1 => cases h; rw [indexedAddress_eq]; rfl
  | _ => cases h

theorem exec_of_fpStoreForm {i : Instr} {s : State} {f : FpMemForm} (h : fpStoreForm s i = some f) :
    exec i s = finish (needCp1 s (f.gates true s (storeFpr f.f f.reg f.va s))) := by
  cases i with
  | swc1 | sdc1 => cases h; rw [effectiveAddress_eq]; rfl
  | swxc1 | sdxc1 => cases h; rw [indexedAddress_eq]; rfl
  | _ => cases h

/-- A CACHE operation where CP0 is usable and the address translates. -/
theorem cacheOp_ok {s : State} {o : BitVec 16} {b : RegNum} {pa : PAddr} {c : BitVec 3} (h : CacheOk s (effectiveAddress s b o) pa c)
    (k : Dword → PAddr → BitVec 3 → Res Unit) :
    cacheOp o b s k = Res.bind (k (baseOffset s b o) pa c) fun _ t => goOn (freeCh t) := by
  obtain ⟨hcp, ht⟩ := h
  rw [effectiveAddress_eq] at ht
  unfold cacheOp cacheAddress
  rw [needCp0_ok hcp, ht, Look.on_ok]

/-- A CACHE operation whose own part refuses. -/
theorem finish_cacheOp_refuse {s : State} {o : BitVec 16} {b : RegNum} {pa : PAddr} {c : BitVec 3} {r : Refusal}
    {k : Dword → PAddr → BitVec 3 → Res Unit} (h : CacheOk s (effectiveAddress s b o) pa c)
    (hk : k (baseOffset s b o) pa c = .refuse r) : finish (cacheOp o b s k) = .refused r := by
  rw [cacheOp_ok h, hk, Res.bind_refuse, finish_refuse]

/-! ## The refused forms -/

/-- Moves of a reserved CP0 register (R41). -/
theorem reservedCp0Moves_refused {s : State} (rt : RegNum) {rd : RegNum} (h : Cp0Ok s) (hx : cp0Exists rd = false) :
    exec (.mfc0 rt rd) s = .refused .reservedCp0Register ∧ exec (.mtc0 rt rd) s = .refused .reservedCp0Register := by
  have hm : exec (.mfc0 rt rd) s = execMfc0 rt rd s ∧ exec (.mtc0 rt rd) s = execMtc0 rt rd s := ⟨rfl, rfl⟩
  rw [hm.1, hm.2]
  unfold execMfc0 execMtc0
  rw [needCp0_ok h, needCp0_ok h, hx]
  exact ⟨rfl, rfl⟩

theorem exec_dmfc0 {s : State} (rt rd : RegNum) (h : Cp0Ok s) (hw : WideOk true s) :
    exec (.dmfc0 rt rd) s = finish (if !cp0Exists rd then .refuse .reservedCp0Register
      else if !cp0Is64 rd then .refuse .doublewordMoveOf32
      else goOn (s.writeGpr rt (cp0Value (seen .cp0Read s) rd))) := by
  show execDmfc0 rt rd s = _
  unfold execDmfc0
  rw [needCp0_ok h, need64_ok (hw rfl)]

theorem exec_dmtc0 {s : State} (rt rd : RegNum) (h : Cp0Ok s) (hw : WideOk true s) :
    exec (.dmtc0 rt rd) s = finish (if !cp0Exists rd then .refuse .reservedCp0Register
      else if !cp0Is64 rd then .refuse .doublewordMoveOf32
      else writeCp0 rd (readGpr s rt) s) := by
  show execDmtc0 rt rd s = _
  unfold execDmtc0
  rw [needCp0_ok h, need64_ok (hw rfl)]

theorem exec_mtc0 {s : State} (rt : RegNum) {rd : RegNum} (h : Cp0Ok s) (hx : cp0Exists rd = true) :
    exec (.mtc0 rt rd) s = finish (writeCp0 rd (readGpr s rt) s) := by
  show execMtc0 rt rd s = _
  unfold execMtc0
  rw [needCp0_ok h, hx]
  rfl

/-- A value of Wired above 47 (R61). -/
theorem writeCp0_wired_refused {s : State} {v : Dword} (h : 47 < v.toNat % 64) : writeCp0 6 v s = .refuse .wiredRange := by
  have hv : (low32 v).extractLsb' 0 6 > (47 : BitVec 6) := by
    rw [gt_iff_lt, BitVec.lt_def, BitVec.extractLsb'_toNat, low32, BitVec.toNat_setWidth]
    simp only [Nat.shiftRight_zero]
    show 47 < _
    omega
  unfold writeCp0
  exact if_pos hv

/-- A value of Config with a reserved K0 (D39). -/
theorem writeCp0_config_refused {s : State} {v : Dword} (h : 4 ≤ v.toNat % 8) : writeCp0 16 v s = .refuse .reservedAttribute := by
  have hv : reservedAttr ((low32 v).extractLsb' 0 3) = true := by
    unfold reservedAttr
    rw [decide_eq_true_iff, BitVec.le_def, BitVec.extractLsb'_toNat, low32, BitVec.toNat_setWidth]
    simp only [Nat.shiftRight_zero]
    show 4 ≤ _
    omega
  show writeConfig (low32 v) s = _
  unfold writeConfig
  exact if_pos hv

/-- A value of Status with KSU = 3 while EXL = ERL = 0 (R820): bits 4 to 1 are 1100. -/
theorem writeCp0_status_refused {s : State} {v : Dword} (h : v.toNat / 2 % 16 = 12) : writeCp0 12 v s = .refuse .reservedMode := by
  have bitAt : ∀ k < 32, (low32 v).getLsbD k = decide (v.toNat / 2 ^ k % 2 = 1) := fun k hk => by
    rw [low32, BitVec.getLsbD_setWidth, BitVec.getLsbD, Nat.testBit_eq_decide_div_mod_eq]
    simp [hk]
  have hksu : (low32 v).extractLsb' 3 2 = 3 := by
    apply BitVec.eq_of_toNat_eq
    rw [BitVec.extractLsb'_toNat, low32, BitVec.toNat_setWidth, Nat.shiftRight_eq_div_pow]
    show _ = 3
    omega
  have hexl : (low32 v).getLsbD 1 = false := by rw [bitAt 1 (by decide), decide_eq_false_iff_not]; omega
  have herl : (low32 v).getLsbD 2 = false := by rw [bitAt 2 (by decide), decide_eq_false_iff_not]; omega
  have hmode : ((low32 v).extractLsb' 3 2 == 3 && !(low32 v).getLsbD 1 && !(low32 v).getLsbD 2) = true := by
    rw [hksu, hexl, herl]; rfl
  show writeStatus (low32 v) s = _
  unfold writeStatus
  exact if_pos hmode

/-- Refused moves to and from CP0, by register and value. -/
theorem cp0Moves_refused (s : State) (rt rd : RegNum) (h : Cp0Ok s) :
    (cp0Exists rd = false →
      exec (.mfc0 rt rd) s = .refused .reservedCp0Register ∧ exec (.mtc0 rt rd) s = .refused .reservedCp0Register) ∧
    (WideOk true s → cp0Exists rd = false →
      exec (.dmfc0 rt rd) s = .refused .reservedCp0Register ∧ exec (.dmtc0 rt rd) s = .refused .reservedCp0Register) ∧
    (WideOk true s → cp0Exists rd = true → cp0Is64 rd = false →
      exec (.dmfc0 rt rd) s = .refused .doublewordMoveOf32 ∧ exec (.dmtc0 rt rd) s = .refused .doublewordMoveOf32) ∧
    (47 < (readGpr s rt).toNat % 64 → exec (.mtc0 rt 6) s = .refused .wiredRange) ∧
    (4 ≤ (readGpr s rt).toNat % 8 → exec (.mtc0 rt 16) s = .refused .reservedAttribute) ∧
    ((readGpr s rt).toNat / 2 % 16 = 12 → exec (.mtc0 rt 12) s = .refused .reservedMode) := by
  refine ⟨reservedCp0Moves_refused rt h, fun hw hx => ?_, fun hw hx h64 => ?_, fun hv => ?_, fun hv => ?_, fun hv => ?_⟩
  · rw [exec_dmfc0 rt rd h hw, exec_dmtc0 rt rd h hw, hx]; exact ⟨rfl, rfl⟩
  · rw [exec_dmfc0 rt rd h hw, exec_dmtc0 rt rd h hw, hx, h64]; exact ⟨rfl, rfl⟩
  · rw [exec_mtc0 rt h (by decide), writeCp0_wired_refused hv, finish_refuse]
  · rw [exec_mtc0 rt h (by decide), writeCp0_config_refused hv, finish_refuse]
  · rw [exec_mtc0 rt h (by decide), writeCp0_status_refused hv, finish_refuse]

/-- Operations by content at an uncached address (R490). -/
theorem cacheByContent_refused {s : State} {o : BitVec 16} {b : RegNum} {pa : PAddr} (h : CacheOk s (effectiveAddress s b o) pa 2) :
    ∀ i ∈ [Instr.cacheIHitInvalidate o b, .cacheIFill o b, .cacheIHitWriteback o b, .cacheDCreateDirtyExclusive o b,
      .cacheDHitInvalidate o b, .cacheDHitWritebackInvalidate o b, .cacheDHitWriteback o b], exec i s = .refused .cacheOpUncached := by
  have hr : ∀ k : Dword → PAddr → BitVec 3 → Res Unit,
      finish (cacheOp o b s fun va pa c => cachedOnly c (k va pa c)) = .refused .cacheOpUncached :=
    fun _ => finish_cacheOp_refuse h (cachedOnly_uncached _)
  simp only [List.forall_mem_cons, List.not_mem_nil, false_imp_iff, implies_true, and_true]
  exact ⟨hr _, hr _, hr _, hr _, hr _, hr _, hr _⟩

/-- Secondary-cache operations without a secondary cache (R505). -/
theorem secondaryOps_refused {s : State} {o : BitVec 16} {b : RegNum} {pa : PAddr} {c : BitVec 3}
    (h : CacheOk s (effectiveAddress s b o) pa c) (hs : s.boot.scEnable = false) :
    ∀ i ∈ [Instr.cacheSValidClear o b, .cacheSIndexLoadTag o b, .cacheSIndexStoreTag o b, .cacheSCachePageInvalidate o b],
      exec i s = .refused .noSecondaryCache := by
  have hr : ∀ k : Dword → PAddr → BitVec 3 → Res Unit,
      finish (cacheOp o b s fun va pa c => needScache s (k va pa c)) = .refused .noSecondaryCache :=
    fun _ => finish_cacheOp_refuse h (needScache_not hs)
  simp only [List.forall_mem_cons, List.not_mem_nil, false_imp_iff, implies_true, and_true]
  exact ⟨hr _, hr _, hr _, hr _⟩

/-- Refused CACHE operations at an address that translates. -/
theorem cacheOps_refused (s : State) (o : BitVec 16) (b : RegNum) (pa : PAddr) (c : BitVec 3)
    (h : CacheOk s (effectiveAddress s b o) pa c) :
    (c = 2 → ∀ i ∈ [Instr.cacheIHitInvalidate o b, .cacheIFill o b, .cacheIHitWriteback o b, .cacheDCreateDirtyExclusive o b,
      .cacheDHitInvalidate o b, .cacheDHitWritebackInvalidate o b, .cacheDHitWriteback o b], exec i s = .refused .cacheOpUncached) ∧
    ((tagLoSeen s).extractLsb' 6 2 ≠ 0 → exec (.cacheIIndexStoreTag o b) s = .refused .cacheTagState) ∧
    ((tagLoSeen s).extractLsb' 6 2 = 1 ∨ (tagLoSeen s).extractLsb' 6 2 = 2 →
      exec (.cacheDIndexStoreTag o b) s = .refused .cacheTagState) ∧
    (s.boot.scEnable = false → ∀ i ∈ [Instr.cacheSValidClear o b, .cacheSIndexLoadTag o b, .cacheSIndexStoreTag o b,
      .cacheSCachePageInvalidate o b], exec i s = .refused .noSecondaryCache) ∧
    (s.boot.scEnable = true → s.boot.scFlashClear = false → exec (.cacheSValidClear o b) s = .refused .noFlashClear) ∧
    (s.boot.scEnable = true → pa.toNat % 2 ^ 12 ≠ 0 →
      exec (.cacheSCachePageInvalidate o b) s = .refused .pageInvalidateAlignment) := by
  refine ⟨fun hc => ?_, fun ht => ?_, fun ht => ?_, secondaryOps_refused h, fun hs hf => ?_, fun hs hp => ?_⟩
  · subst hc; exact cacheByContent_refused h
  · exact finish_cacheOp_refuse h (if_pos (bne_iff_ne.2 ht))
  · refine finish_cacheOp_refuse h (if_pos ?_)
    rcases ht with ht | ht <;> rw [ht] <;> decide
  · exact finish_cacheOp_refuse h ((needScache_ok hs).trans (if_pos (by rw [hf]; rfl)))
  · have hlow : pa.extractLsb' 0 12 ≠ 0#12 := fun e => hp (by
      have := congrArg BitVec.toNat e
      rwa [BitVec.extractLsb'_toNat] at this)
    exact finish_cacheOp_refuse h ((needScache_ok hs).trans (if_pos (bne_iff_ne.2 hlow)))

theorem fpForm_odd_refused (i : Instr) (s : State) (f : FpForm) (h : fpForm s i = some f) (h1 : Cp1Ok s)
    (h4 : f.mips4 = true → Mips4Ok s) (ho : ¬FprsOk (f.fd :: f.srcs) s) : exec i s = .refused .oddFpr := by
  obtain ⟨k, hk⟩ := exec_of_fpForm h
  rw [hk, needCp1_ok h1, gate_ok h4, evenFprs_not ho, finish_refuse]

theorem fpMoveForm_odd_refused (i : Instr) (s : State) (f : FpMoveForm) (h : fpMoveForm s i = some f) (h1 : Cp1Ok s)
    (h4 : f.mips4 = true → Mips4Ok s) (ho : ¬FprsOk [f.fd, f.fs] s) : exec i s = .refused .oddFpr := by
  obtain ⟨k, hk⟩ := exec_of_fpMoveForm h
  rw [hk, needCp1_ok h1, gate_ok h4, evenFprs_not ho, finish_refuse]

theorem compareForm_odd_refused (i : Instr) (s : State) (c : CompareForm) (h : compareForm i = some c) (h1 : Cp1Ok s)
    (h4 : c.cc ≠ 0 → Mips4Ok s) (ho : ¬FprsOk [c.fs, c.ft] s) : exec i s = .refused .oddFpr := by
  rw [exec_of_compareForm h, fpCompare, needCp1_ok h1, needCc_ok h4, evenFprs_not ho, finish_refuse]

theorem doublewordMoves_odd_refused (s : State) (rt fs : RegNum) (h1 : Cp1Ok s) (hw : WideOk true s) (ho : ¬FprsOk [fs] s) :
    exec (.dmfc1 rt fs) s = .refused .oddFpr ∧ exec (.dmtc1 rt fs) s = .refused .oddFpr := by
  have hr : ∀ k, finish (needCp1 s (need64 s (evenFprs [fs] s k))) = .refused .oddFpr := fun k => by
    rw [needCp1_ok h1, need64_ok (hw rfl), evenFprs_not ho, finish_refuse]
  exact ⟨hr _, hr _⟩

theorem fpMemForm_odd_refused (i : Instr) (s : State) (f : FpMemForm) (h : fpLoadForm s i = some f ∨ fpStoreForm s i = some f)
    (hf : f.f = .D) (h1 : Cp1Ok s) (h4 : f.base.isSome = true → Mips4Ok s) (hr : SameRegion f s) (ho : ¬FprsOk [f.reg] s) :
    exec i s = .refused .oddFpr := by
  rcases h with h | h
  · rw [exec_of_fpLoadForm h, needCp1_ok h1, FpMemForm.gates_ok h4 hr, hf, loadFpr_odd ho, finish_refuse]
  · rw [exec_of_fpStoreForm h, needCp1_ok h1, FpMemForm.gates_ok h4 hr, hf, storeFpr_odd ho, finish_refuse]

/-- TLBR and TLBWI of an entry above 47 (R482, R483). -/
theorem tlbIndex_refused (s : State) (h : Cp0Ok s) (hs : Settled s) (hi : 48 ≤ s.cp0.index.toNat) :
    exec .tlbr s = .refused .tlbIndexRange ∧ exec .tlbwi s = .refused .tlbIndexRange := by
  have hv : seen .cp0Read s = s := seen_settled hs
  constructor
  · show execTlbr s = _
    unfold execTlbr
    rw [needCp0_ok h, hv]
    dsimp only
    rw [dif_neg (by omega), finish_refuse]
  · show execTlbwi s = _
    unfold execTlbwi tlbWrite
    rw [needCp0_ok h, hv]
    dsimp only
    rw [dif_neg (by omega), finish_refuse]

/-- A TLB write of an entry below 48, as `tlbWriteRefusal` says. -/
theorem tlbWrite_refused {i : Instr} {s : State} {k : Fin 48} {r : Refusal} (h : Cp0Ok s) (hs : Settled s)
    (hi : i = .tlbwi ∧ s.cp0.index.toNat = k.val ∨ i = .tlbwr ∧ s.cp0.random.toNat = k.val)
    (hr : tlbWriteRefusal (entryOf s.cp0) = some r) : exec i s = .refused r := by
  have hv : seen .cp0Read s = s := seen_settled hs
  have hw : tlbWrite k.val s = .refuse r := by
    unfold tlbWrite
    simp only [hv, hr, dif_pos k.isLt]
  rcases hi with ⟨rfl, hk⟩ | ⟨rfl, hk⟩
  · show execTlbwi s = _
    rw [execTlbwi, needCp0_ok h, hv, hk, hw, finish_refuse]
  · show execTlbwr s = _
    rw [execTlbwr, needCp0_ok h, hk, hw, finish_refuse]

/-- What a TLB write refuses, in the order of R483. -/
theorem tlbWrites_refused (i : Instr) (s : State) (k : Fin 48) (h : Cp0Ok s) (hs : Settled s)
    (hi : i = .tlbwi ∧ s.cp0.index.toNat = k.val ∨ i = .tlbwr ∧ s.cp0.random.toNat = k.val) :
    (pageWidth s.cp0.pageMask = none → exec i s = .refused .pageMaskUndefined) ∧
    ∀ w, pageWidth s.cp0.pageMask = some w →
      (4 ≤ s.cp0.entryLo0.c ∨ 4 ≤ s.cp0.entryLo1.c → exec i s = .refused .reservedAttribute) ∧
      (s.cp0.entryLo0.c < 4 → s.cp0.entryLo1.c < 4 →
        s.cp0.entryLo0.pfn.toNat % 2 ^ (w - 12) ≠ 0 ∨ s.cp0.entryLo1.pfn.toNat % 2 ^ (w - 12) ≠ 0 →
        exec i s = .refused .pfnBelowPageSize) := by
  refine ⟨fun hm => ?_, fun w hm => ⟨fun hc => ?_, fun hc0 hc1 hp => ?_⟩⟩ <;> refine tlbWrite_refused h hs hi ?_ <;>
    simp only [tlbWriteRefusal, entryOf, hm]
  · exact if_pos (by simpa [reservedAttr] using hc)
  · have hattr : (reservedAttr s.cp0.entryLo0.c || reservedAttr s.cp0.entryLo1.c) = false := by
      simpa [reservedAttr, BitVec.not_le] using And.intro hc0 hc1
    exact (if_neg (by rw [hattr]; decide)).trans (if_pos (by simpa [pfnLow] using hp))

/-- Settles O34: each refused form by the check that comes to it. -/
theorem refusedForms : Obligations.RefusedForms :=
  ⟨cp0Moves_refused, cacheOps_refused, fpForm_odd_refused, compareForm_odd_refused, fpMoveForm_odd_refused,
    doublewordMoves_odd_refused, fpMemForm_odd_refused, tlbIndex_refused, tlbWrites_refused⟩

end Sys2Proof.Machine
end

section
/-! SUPPORT. Translation keeps the offset in the page; what a store leaves once control has gone on; the cached stores (O28). -/

namespace Sys2Proof.Machine

-- One thread, as in Sys2Proof/Tests: the whole text stays within the check's memory limit.
set_option Elab.async false

/-! ## Translation keeps the offset in the page (spec/20_memory.md R157, R163) -/

/-- A physical address with the offset of a virtual one in its page of 4 Kbytes. -/
def SameOffset (pa : PAddr) (va : Dword) : Prop := pa.toNat % 2 ^ 12 = va.toNat % 2 ^ 12

/-- The low bits of an address, at least the offset in the page. -/
theorem sameOffset_extract (va : Dword) {n : Nat} (hn : 12 ≤ n) : SameOffset ((va.extractLsb' 0 n).setWidth 36) va := by
  unfold SameOffset
  rw [BitVec.toNat_setWidth, BitVec.extractLsb'_toNat, Nat.shiftRight_zero, Nat.mod_mod_of_dvd _ (Nat.pow_dvd_pow 2 (by omega)),
    Nat.mod_mod_of_dvd _ (Nat.pow_dvd_pow 2 hn)]

/-- Each unmapped segment takes low bits of the address. -/
theorem segmentOf_unmapped {t : StatusReg} {k0 c : BitVec 3} {va : Dword} {pa : PAddr} (h : segmentOf t k0 va = .unmapped pa c) :
    SameOffset pa va := by
  have compat : kernelCompat k0 va = .unmapped pa c → SameOffset pa va := fun h => by
    unfold kernelCompat at h
    split at h
    · cases h; exact sameOffset_extract va (by decide)
    · split at h
      · cases h; exact sameOffset_extract va (by decide)
      · split at h <;> cases h
  unfold segmentOf at h
  split at h
  · split_ifs at h
  · split_ifs at h
  · split at h
    · cases h; exact sameOffset_extract va (by decide)
    · split at h
      · split at h
        · cases h
        · split at h
          · split at h
            · cases h
              have := sameOffset_extract va (n := 36) (by decide)
              rwa [BitVec.setWidth_eq] at this
            · cases h
          · exact compat h
      · split at h
        · cases h
        · exact compat h

/-- The page sizes of Table 7.9 are 4 Kbytes and more. -/
theorem pageWidth_ge {m : BitVec 12} {w : Nat} (h : pageWidth m = some w) : 12 ≤ w := by
  unfold pageWidth at h
  split_ifs at h <;> cases h <;> decide

/-- The bits below the page size are the virtual address's (R163). -/
theorem sameOffset_pageAddress {w : Nat} (hw : 12 ≤ w) (pfn : BitVec 24) (va : Dword) : SameOffset (pageAddress w pfn va) va := by
  apply Nat.eq_of_testBit_eq
  intro i
  rw [Nat.testBit_mod_two_pow, Nat.testBit_mod_two_pow]
  by_cases hi : i < 12
  · have hpage : (pageAddress w pfn va).getLsbD i = va.getLsbD i := by
      unfold pageAddress
      rw [BitVec.getLsbD_or, BitVec.getLsbD_shiftLeft, BitVec.getLsbD_ofNat, Nat.testBit_mod_two_pow]
      simp [show i < w by omega, show i < 36 by omega, BitVec.getLsbD]
    simpa [hi, BitVec.getLsbD] using hpage
  · simp [hi]

theorem translateEntry_ok {e : TlbEntry} {kind : AccessKind} {va : Dword} {pa : PAddr} {c : BitVec 3}
    (h : translateEntry e kind va = .ok (pa, c)) : SameOffset pa va := by
  unfold translateEntry at h
  split at h
  · cases h
  · next hw =>
    dsimp only at h
    split_ifs at h <;> cases h <;> exact sameOffset_pageAddress (pageWidth_ge hw) _ _

/-- An address that translates keeps its offset in the page. -/
theorem translate_ok {v : State} {kind : AccessKind} {va : Dword} {pa : PAddr} {c : BitVec 3} (h : translate v kind va = .ok (pa, c)) :
    SameOffset pa va := by
  unfold translate at h
  split at h
  · cases h
  · next hs =>
    split at h
    · cases h
    · cases h; exact segmentOf_unmapped hs
  · split at h
    · cases h
    · exact translateEntry_ok h
    · cases h

/-- An aligned access of up to eight bytes stays in its doubleword of the line. -/
theorem lineOffset_fits {s : State} {kind : AccessKind} {va : Dword} {n : Nat} {pa : PAddr} {c : BitVec 3} (hp : PlainOrder s)
    (hr : Reaches s kind va n pa c) (hn : n ∣ 8) : lineOffset pa % 8 + n ≤ 8 := by
  obtain ⟨ha, hd⟩ := hr
  have ho : pa.toNat % 2 ^ 12 = va.toNat % 2 ^ 12 := translate_ok ((dataAddress_plain hp kind n va) ▸ hd)
  have hl : lineOffset pa = pa.toNat % 32 := by
    rw [lineOffset, BitVec.extractLsb'_toNat, Nat.shiftRight_zero]
  obtain ⟨m, hm⟩ := hn
  have h8 : lineOffset pa % 8 = va.toNat % 8 := by omega
  have hdvd : n ∣ va.toNat % 8 := (Nat.dvd_mod_iff ⟨m, hm⟩).2 (Nat.dvd_of_mod_eq_zero ha)
  obtain ⟨q, hq⟩ := hdvd
  have hlt : n * q < n * m := by omega
  have hqm : q + 1 ≤ m := Nat.lt_of_mul_lt_mul_left hlt
  calc lineOffset pa % 8 + n = n * (q + 1) := by rw [h8, hq, Nat.mul_succ]
    _ ≤ n * m := Nat.mul_le_mul_left n hqm
    _ = 8 := hm.symm

@[simp] theorem beBytes_length (n : Nat) (v : Dword) : (beBytes n v).length = n := by
  induction n with
  | zero => rfl
  | succ n ih => simp [beBytes, ih]

@[simp] theorem bytesOfValue_length (bigEndian : Bool) (n : Nat) (v : Dword) : (bytesOfValue bigEndian n v).length = n := by
  unfold bytesOfValue
  split <;> simp

/-! ## Behind a store -/

section
variable {s t : State} (h : MemorySide s t)
include h

/-! What differs on the memory side alone has every register, the link address and the platform as before. -/

theorem MemorySide.gpr : t.gpr = s.gpr := by rw [h]
theorem MemorySide.hi : t.hi = s.hi := by rw [h]
theorem MemorySide.lo : t.lo = s.lo := by rw [h]
theorem MemorySide.pc : t.pc = s.pc := by rw [h]
theorem MemorySide.delay : t.delay = s.delay := by rw [h]
theorem MemorySide.cp0 : t.cp0 = s.cp0 := by rw [h]
theorem MemorySide.tlb : t.tlb = s.tlb := by rw [h]
theorem MemorySide.fgr : t.fgr = s.fgr := by rw [h]
theorem MemorySide.fcr31 : t.fcr31 = s.fcr31 := by rw [h]
theorem MemorySide.linkAddr : t.linkAddr = s.linkAddr := by rw [h]
theorem MemorySide.linkKnown : t.linkKnown = s.linkKnown := by rw [h]
theorem MemorySide.intReg : t.intReg = s.intReg := by rw [h]
theorem MemorySide.intPin : t.intPin = s.intPin := by rw [h]
theorem MemorySide.nmiPin : t.nmiPin = s.nmiPin := by rw [h]
theorem MemorySide.nmiSeen : t.nmiSeen = s.nmiSeen := by rw [h]
theorem MemorySide.nmiPending : t.nmiPending = s.nmiPending := by rw [h]
theorem MemorySide.timerInt : t.timerInt = s.timerInt := by rw [h]
theorem MemorySide.standby : t.standby = s.standby := by rw [h]
theorem MemorySide.physMap : t.physMap = s.physMap := by rw [h]
theorem MemorySide.boot : t.boot = s.boot := by rw [h]
theorem MemorySide.entered : t.entered = s.entered := by rw [h]

end

/-- Memory, the buffer, the caches, the link, and what sending depends on, are the same; control and registers may differ. -/
structure SameStore (t u : State) : Prop where
  mem : u.mem = t.mem
  wb : u.wb = t.wb
  bus : u.bus = t.bus
  icache : u.icache = t.icache
  icacheRest : u.icacheRest = t.icacheRest
  dcache : u.dcache = t.dcache
  dcacheRest : u.dcacheRest = t.dcacheRest
  scache : u.scache = t.scache
  scacheRest : u.scacheRest = t.scacheRest
  physMap : u.physMap = t.physMap
  boot : u.boot = t.boot
  cp0 : u.cp0 = t.cp0
  link : SameLink t u

section
variable {s t u : State} (h : SameStore t u)
include h

/-! What is said of memory, caches and link does not depend on the rest. -/

theorem SameStore.dsets (j : Nat) : dsetAt u j = dsetAt t j := dsetAt_congr h.dcache h.dcacheRest j
theorem SameStore.isets (j : Nat) : isetAt u j = isetAt t j := isetAt_congr h.icache h.icacheRest j
theorem SameStore.slines (j : Nat) : slineAt u j = slineAt t j := slineAt_congr h.scache h.scacheRest j

theorem SameStore.slines_sent (j : Nat) : slineAt (drainAll u) j = slineAt (drainAll t) j :=
  slineAt_drainAll_congr h.scache h.scacheRest h.boot h.cp0 h.wb j

theorem SameStore.storedInMemory {pa : PAddr} {bs : List Byte} (hs : StoredInMemory pa bs s t) : StoredInMemory pa bs s u :=
  storedInMemory_congr hs rfl rfl rfl h.mem h.physMap h.wb

theorem SameStore.buffered {va : Dword} {pa : PAddr} {bs : List Byte} (hb : Buffered va pa bs s t) : Buffered va pa bs s u := by
  obtain ⟨n, hwb, hbus, hmem⟩ := hb
  exact ⟨n, h.wb.trans hwb, h.bus.trans hbus, fun a => by rw [h.mem]; exact hmem a⟩

theorem SameStore.sameOutside (ho : SameOutside s t) : SameOutside s u :=
  ⟨h.wb.trans ho.1, fun a => by rw [h.mem]; exact ho.2 a⟩

theorem SameStore.onlyDLine {i : Nat} {way : Bool} {l : DLine} (hl : OnlyDLine i way l s t) : OnlyDLine i way l s u where
  line := by rw [h.dsets]; exact hl.line
  other := by rw [h.dsets]; exact hl.other
  sets j hj := (h.dsets j).trans (hl.sets j hj)
  fifo := by rw [h.dsets]; exact hl.fifo

theorem SameStore.sameLink (hl : SameLink s t) : SameLink s u := by
  obtain ⟨hbit, haddr, hknown⟩ := hl
  obtain ⟨hbit', haddr', hknown'⟩ := h.link
  exact ⟨hbit'.trans hbit, haddr'.trans haddr, hknown'.trans hknown⟩

theorem SameStore.linkBroken {l : DLine} {i : Nat} (hl : LinkBroken l i s t) : LinkBroken l i s u := by
  obtain ⟨haddr, hknown, hbit⟩ := hl
  obtain ⟨hbit', haddr', hknown'⟩ := h.link
  exact ⟨haddr'.trans haddr, hknown'.trans hknown, hbit'.trans hbit⟩

theorem SameStore.storedHeld {cp : Cp0} {va : Dword} {pa : PAddr} {c : BitVec 3} {way : Bool} {bs : List Byte}
    (hs : StoredHeld cp va pa c way bs s t) : StoredHeld cp va pa c way bs s u := by
  obtain ⟨l, hline, hdata, hpar, hstate, htag, hbad, hicache, hout⟩ := hs
  refine ⟨l, h.onlyDLine hline, hdata, hpar, hstate, htag, hbad, fun j => (h.isets j).trans (hicache j), ?_⟩
  split at hout
  · next h3 =>
    obtain ⟨hw, hsame, hsec⟩ := hout
    rw [if_pos h3]
    exact ⟨hw, h.sameOutside hsame, fun j => (h.slines j).trans (hsec j)⟩
  · next h3 =>
    obtain ⟨hw, hbuf, hmem, hsec⟩ := hout
    rw [if_neg h3]
    exact ⟨hw, h.buffered hbuf, h.storedInMemory hmem, fun j => (h.slines_sent j).trans (hsec j)⟩

end

/-- The state after a store that has left memory and caches as in `t`: its old bytes noted for the next fetches, control gone on. -/
def storeDone (pa : PAddr) (n : Nat) (s t : State) : State := advance .seq (noteCode pa n s t)

theorem sameStore_storeDone (pa : PAddr) (n : Nat) (s t : State) : SameStore t (storeDone pa n s t) := by
  constructor
  case link => exact ⟨by simp [storeDone, noteCode], by simp [storeDone, noteCode], by simp [storeDone, noteCode]⟩
  all_goals simp [storeDone, noteCode]

/-- A store leaves the registers, CP0, the TLB and the platform alone, and control goes on. -/
theorem storeRest_storeDone {s t : State} (h : MemorySide s t) (pa : PAddr) (n : Nat) : StoreRest s (storeDone pa n s t) := by
  unfold storeDone
  constructor
  case cpu => exact ⟨readGpr_congr (by simp [noteCode, h.gpr]), by simp [noteCode, h.hi], by simp [noteCode, h.lo]⟩
  case fpu => exact ⟨readFgr_congr (by simp [noteCode, h.fgr]), by simp [noteCode, h.fcr31]⟩
  case cp0 => simp [noteCode, h.cp0]
  case tlb => simp [noteCode, h.tlb]
  case platform =>
    constructor <;> simp [noteCode, h.intReg, h.intPin, h.nmiPin, h.nmiSeen, h.nmiPending, h.timerInt, h.standby, h.boot, h.physMap,
      h.entered]
  case control =>
    obtain ⟨hpc, hdelay⟩ := advance_seq (noteCode pa n s t)
    simp only [noteCode, State.addHazard_pc, State.addHazard_delay, h.pc, h.delay] at hpc
    exact ⟨hpc, hdelay⟩

/-! ## Stores -/

/-- SB to SD: the 64-bit gate if it has one, the alignment, the bytes. -/
theorem exec_of_storeForm {i : Instr} {s : State} {f : StoreForm} (h : storeForm s i = some f) :
    exec i s = finish (if f.wide then need64 s (storeBytes f.n f.value f.va s) else storeBytes f.n f.value f.va s) := by
  cases i with
  | sb | sh | sw | sd => cases h; rw [effectiveAddress_eq]; rfl
  | _ => cases h

theorem storeForm_dvd {i : Instr} {s : State} {f : StoreForm} (h : storeForm s i = some f) : f.n ∣ 8 := by
  cases i with
  | sb | sh | sw | sd => cases h; dsimp only; decide
  | _ => cases h

/-- A store that reaches a cached address and is made there. -/
theorem exec_cachedStore {i : Instr} {s t : State} {f : StoreForm} {pa : PAddr} {c : BitVec 3} (hf : storeForm s i = some f)
    (hw : WideOk f.wide s) (hr : Reaches s .store f.va f.n pa c) (hc : c ≠ 2)
    (ht : storeCached (seen .data s).cp0 f.va pa c (bytesOfValue s.boot.bigEndianMem f.n f.value) s = .ok () t) :
    exec i s = .next (storeDone pa f.n s t) := by
  obtain ⟨ha, hd⟩ := hr
  have hgate : (if f.wide then need64 s (storeBytes f.n f.value f.va s) else storeBytes f.n f.value f.va s) =
      storeBytes f.n f.value f.va s := by
    split
    · next h => exact need64_ok (hw h)
    · rfl
  rw [exec_of_storeForm hf, hgate, storeBytes, needAligned_ok ha, storeValue, hd, Look.on_ok]
  simp only [storePhys, if_neg (show ¬(c == 2) = true by simpa using hc), ht, Res.bind_ok, finish_goOn, bytesOfValue_length]
  rfl

/-- A write request of its own, behind the earlier ones; nothing else but control changes. -/
theorem uncachedStore_pushSingle {s : State} (hm : Memory.wf s.mem) {va : Dword} {pa : PAddr} {bs : List Byte} {r : Result} {n : Nat}
    (hl : bs.length ≤ memSize) (hr : r = .next (storeDone pa n s (pushSingle pa (va.extractLsb' 12 2) bs s))) :
    UncachedStore va pa bs (StoreRest s) s r := by
  have hout := outsideOnly_pushSingle pa (va.extractLsb' 12 2) bs s
  have hstored := stored_pushSingle hm pa (va.extractLsb' 12 2) bs hl
  have hbuf := buffered_pushSingle va pa bs s
  have hdrain := drainAll_pushSingle pa (va.extractLsb' 12 2) bs s
  generalize pushSingle pa (va.extractLsb' 12 2) bs s = t at *
  have hc := sameStore_storeDone pa n s t
  refine ⟨_, hr, storeRest_storeDone hout.memorySide pa n, hc.storedInMemory hstored, hc.buffered hbuf, fun j => ?_, fun j => ?_,
    fun j => ?_, ?_⟩
  · exact (hc.dsets j).trans (dsetAt_congr (by rw [hout]) (by rw [hout]) j)
  · exact (hc.isets j).trans (isetAt_congr (by rw [hout]) (by rw [hout]) j)
  · rw [hc.slines_sent, hdrain, slineAt_sendEntry_single]
  · exact hc.sameLink ⟨by rw [hout], by rw [hout], by rw [hout]⟩

/-- Settles O28: a hit stores into the line; a miss with attribute 0 goes to memory alone, with another it brings the line in first. -/
theorem cachedStores : Obligations.CachedStores := by
  intro i s f pa c bs hm hf hw hp hr hc hbs
  have hn := storeForm_dvd hf
  have hlen : bs.length = f.n := by rw [hbs, bytesOfValue_length]
  have hfit : lineOffset pa % 8 + bs.length ≤ 8 := by rw [hlen]; exact lineOffset_fits hp hr hn
  have hexec : ∀ t, storeCached (seen .data s).cp0 f.va pa c bs s = .ok () t → exec i s = .next (storeDone pa f.n s t) :=
    fun t ht => exec_cachedStore hf hw hr hc (hbs ▸ ht)
  have hdone := sameStore_storeDone pa f.n s
  refine ⟨fun way l hl => ?_, fun h0 hno => ?_, fun old d h0 hno hv hd => ?_⟩
  · obtain ⟨htag, hset, hhit, -, -⟩ := hl
    obtain ⟨t, ht, hside, hheld, hlink⟩ := storeCached_hit hm htag hset hhit hfit
    exact ⟨_, hexec t ht, storeRest_storeDone hside _ _, (hdone t).storedHeld hheld,
      (hdone t).sameLink ⟨hlink, hside.linkAddr, hside.linkKnown⟩⟩
  · subst h0
    exact uncachedStore_pushSingle hm (by simp only [memSize]; omega) (hexec _ (storeCached_past hno))
  · obtain ⟨t, u, ht, hside, huside, hfill, hheld, hlink⟩ := storeCached_miss hm hno hv hd h0 hfit
    exact ⟨_, u, hexec t ht, storeRest_storeDone hside _ _, huside.cp0, hfill, (hdone t).storedHeld hheld,
      (hdone t).linkBroken hlink⟩

end Sys2Proof.Machine
end

section
/-! SUPPORT. Bytes and their values, in both byte orders (O19). -/

namespace Sys2Proof.Machine

-- One thread, as in Sys2Proof/Tests: the whole text stays within the check's memory limit.
set_option Elab.async false

/-! ## Bytes and values (spec/20_memory.md R133) -/

/-- Byte `k` of the big-endian form. -/
theorem getElem?_beBytes {n k : Nat} (v : Dword) (hk : k < n) : (beBytes n v)[k]? = some (v.extractLsb' (8 * (n - 1 - k)) 8) := by
  induction n generalizing k with
  | zero => omega
  | succ n ih =>
    cases k with
    | zero => rfl
    | succ k => rw [beBytes, List.getElem?_cons_succ, ih (by omega), show n + 1 - 1 - (k + 1) = n - 1 - k by omega]

/-- Byte `k` of the little-endian form. -/
theorem getElem?_reverse_beBytes {n k : Nat} (v : Dword) (hk : k < n) :
    (beBytes n v).reverse[k]? = some (v.extractLsb' (8 * k) 8) := by
  rw [List.getElem?_reverse (by rwa [beBytes_length]), beBytes_length, getElem?_beBytes v (by omega),
    show n - 1 - (n - 1 - k) = k by omega]

/-- The low bits of a doubleword. -/
theorem getLsbD_and_lowMask (v : Dword) (m i : Nat) :
    (v &&& BitVec.ofNat 64 (2 ^ m - 1)).getLsbD i = (v.getLsbD i && decide (i < m)) := by
  rw [BitVec.getLsbD_and, BitVec.getLsbD_ofNat, Nat.testBit_two_pow_sub_one]
  by_cases hi : i < 64
  · simp [hi]
  · simp [hi, BitVec.getLsbD_of_ge v i (by omega)]

/-- Reading the big-endian form back gives the low bytes. -/
theorem beValue_beBytes (n : Nat) (v : Dword) : beValue (beBytes n v) = v &&& BitVec.ofNat 64 (2 ^ (8 * n) - 1) := by
  induction n with
  | zero => simp [beBytes, beValue]
  | succ n ih =>
    apply BitVec.eq_of_getLsbD_eq
    intro i hi
    rw [beBytes, beValue, ih, beBytes_length, BitVec.getLsbD_or, getLsbD_and_lowMask, getLsbD_and_lowMask, BitVec.getLsbD_shiftLeft,
      BitVec.getLsbD_setWidth, BitVec.getLsbD_setWidth, BitVec.getLsbD_ushiftRight]
    by_cases hlow : i < 8 * n
    · simp [hlow, show i < 8 * (n + 1) by omega]
    · simp [hi, hlow, show i - 8 * n < 64 by omega, show 8 * n + (i - 8 * n) = i by omega, Bool.and_comm,
        show (i - 8 * n < 8) = (i < 8 * (n + 1)) by rw [eq_iff_iff]; omega]

/-- The stored form read back in its own byte order. -/
theorem valueOfBytes_bytesOfValue (big : Bool) (n : Nat) (v : Dword) :
    valueOfBytes big (bytesOfValue big n v) = v &&& BitVec.ofNat 64 (2 ^ (8 * n) - 1) := by
  cases big with
  | true => exact beValue_beBytes n v
  | false => exact (congrArg beValue (List.reverse_reverse _)).trans (beValue_beBytes n v)

/-- Settles O19: each byte of the stored form by its bits, and the form read back. -/
theorem byteOrder : Obligations.ByteOrder :=
  ⟨fun _ v _ _ hk => ⟨getElem?_beBytes v hk, getElem?_reverse_beBytes v hk⟩,
    fun big n v _ => ⟨bytesOfValue_length big n v, valueOfBytes_bytesOfValue big n v⟩⟩

/-- The unsigned value of bytes, from its first byte on. -/
theorem natOfBytes_cons (b : Byte) (bs : List Byte) : natOfBytes true (b :: bs) = b.toNat * 2 ^ (8 * bs.length) + natOfBytes true bs := by
  have acc : ∀ (bs : List Byte) (a : Nat), bs.foldl (fun n b => n * 256 + b.toNat) a =
      a * 2 ^ (8 * bs.length) + bs.foldl (fun n b => n * 256 + b.toNat) 0 := by
    intro bs
    induction bs with
    | nil => simp
    | cons c bs ih =>
      intro a
      rw [List.foldl_cons, List.foldl_cons, ih, ih (0 * 256 + _), List.length_cons]
      ring
  exact (acc bs _).trans (by simp [natOfBytes])

theorem natOfBytes_lt (bs : List Byte) : natOfBytes true bs < 2 ^ (8 * bs.length) := by
  induction bs with
  | nil => decide
  | cons b bs ih =>
    have hb : b.toNat + 1 ≤ 2 ^ 8 := b.isLt
    calc natOfBytes true (b :: bs) = b.toNat * 2 ^ (8 * bs.length) + natOfBytes true bs := natOfBytes_cons b bs
      _ < b.toNat * 2 ^ (8 * bs.length) + 2 ^ (8 * bs.length) := Nat.add_lt_add_left ih _
      _ = (b.toNat + 1) * 2 ^ (8 * bs.length) := (Nat.succ_mul _ _).symm
      _ ≤ 2 ^ 8 * 2 ^ (8 * bs.length) := Nat.mul_le_mul_right _ hb
      _ = 2 ^ (8 * (b :: bs).length) := by rw [List.length_cons]; ring

/-- Up to eight bytes, the value a load reads is the unsigned value of the bytes. -/
theorem beValue_toNat {bs : List Byte} (h : bs.length ≤ 8) : (beValue bs).toNat = natOfBytes true bs := by
  induction bs with
  | nil => rfl
  | cons b bs ih =>
    rw [List.length_cons] at h
    have hfit : b.toNat * 2 ^ (8 * bs.length) < 2 ^ 64 :=
      calc b.toNat * 2 ^ (8 * bs.length) < 2 ^ 8 * 2 ^ (8 * bs.length) := Nat.mul_lt_mul_of_pos_right b.isLt (Nat.two_pow_pos _)
        _ = 2 ^ (8 + 8 * bs.length) := (Nat.pow_add ..).symm
        _ ≤ 2 ^ 64 := Nat.pow_le_pow_right (by decide) (by omega)
    rw [beValue, natOfBytes_cons, BitVec.toNat_or, ih (by omega), BitVec.toNat_shiftLeft, BitVec.toNat_setWidth_of_le (by decide),
      Nat.shiftLeft_eq, Nat.mod_eq_of_lt hfit, ← Nat.shiftLeft_eq, Nat.shiftLeft_add_eq_or_of_lt (natOfBytes_lt bs)]

theorem natOfBytes_false (bs : List Byte) : natOfBytes false bs = natOfBytes true bs.reverse := rfl

theorem valueOfBytes_toNat (big : Bool) {bs : List Byte} (h : bs.length ≤ 8) :
    (valueOfBytes big bs).toNat = natOfBytes big bs ∧ natOfBytes big bs < 2 ^ (8 * bs.length) := by
  cases big with
  | true => exact ⟨beValue_toNat h, natOfBytes_lt bs⟩
  | false =>
    have hr := natOfBytes_lt bs.reverse
    rw [List.length_reverse] at hr
    exact ⟨beValue_toNat (by rwa [List.length_reverse]), hr⟩

theorem word64_natCast (m : Nat) : word64 m = BitVec.ofNat 64 m := BitVec.ofInt_natCast 64 m

/-- The register value of a load: the bytes' value, sign-extended if the load is signed (spec/40_loads_stores.md R263). -/
theorem loadedValue_natOfBytes (signed big : Bool) {n : Nat} {bs : List Byte} (hl : bs.length = n) (hn : 0 < n) (h8 : n ≤ 8) :
    loadedValue signed n (natOfBytes big bs) =
      if signed then signExtendBytes n (valueOfBytes big bs) else valueOfBytes big bs := by
  obtain ⟨hv, hlt⟩ := valueOfBytes_toNat big (hl ▸ h8)
  rw [hl] at hlt
  have hhalf : 2 ^ (8 * n) = 2 * 2 ^ (8 * n - 1) := by rw [← Nat.pow_succ', Nat.succ_eq_add_one, show 8 * n - 1 + 1 = 8 * n by omega]
  have hplain : word64 (natOfBytes big bs) = valueOfBytes big bs := by rw [word64_natCast, ← hv, BitVec.ofNat_toNat, BitVec.setWidth_eq]
  cases signed with
  | false => simp [loadedValue, hplain]
  | true =>
    have hext : signExtendBytes n (valueOfBytes big bs) =
        word64 (if 2 * natOfBytes big bs < 2 ^ (8 * n) then natOfBytes big bs else natOfBytes big bs - 2 ^ (8 * n)) := by
      rw [signExtendBytes, BitVec.signExtend, BitVec.toInt_eq_toNat_cond, BitVec.toNat_setWidth, hv, Nat.mod_eq_of_lt hlt]
      push_cast
      rfl
    rw [if_pos rfl, hext, loadedValue]
    by_cases hneg : 2 ^ (8 * n - 1) ≤ natOfBytes big bs
    · rw [if_pos ⟨rfl, hneg⟩, if_neg (by omega)]
    · rw [if_neg fun h => hneg h.2, if_pos (by omega)]

end Sys2Proof.Machine
end

section
/-! SUPPORT. The forms of loads behind their gates, misaligned accesses (O20), the cached loads (O23, O24). -/

namespace Sys2Proof.Machine

-- One thread, as in Sys2Proof/Tests: the whole text stays within the check's memory limit.
set_option Elab.async false

/-! ## Gates and forms -/

/-- The gate of a 64-bit operation that executes. -/
theorem wideGate_ok {α : Type} {wide : Bool} {s : State} {k : Res α} (h : WideOk wide s) : (if wide then need64 s k else k) = k := by
  cases wide with
  | true => exact need64_ok (h rfl)
  | false => rfl

/-- Eight bytes fill the register. -/
theorem signExtendBytes_eight : signExtendBytes 8 = id := by
  funext v
  rw [signExtendBytes, BitVec.setWidth_eq, BitVec.signExtend_eq, id]

/-- The extension of a load's bytes to a register. -/
def LoadForm.extend (f : LoadForm) : Dword → Dword := if f.signed then signExtendBytes f.n else id

/-- A load behind its gate. -/
def LoadForm.access (f : LoadForm) (s : State) : Res Flow :=
  if f.linked then loadLinked f.n f.extend f.rt f.va s else loadGpr f.n f.extend f.rt f.va s

/-- LB to LD, LL, LLD: the 64-bit gate if it has one, then the access. -/
theorem exec_of_loadForm {i : Instr} {s : State} {f : LoadForm} (h : loadForm s i = some f) :
    exec i s = finish (if f.wide then need64 s (f.access s) else f.access s) := by
  cases i with
  | lb | lbu | lh | lhu | lw | lwu | ll => cases h; rw [effectiveAddress_eq]; rfl
  | ld | lld => cases h; rw [effectiveAddress_eq]; simp only [LoadForm.access, LoadForm.extend, if_true, signExtendBytes_eight]; rfl
  | _ => cases h

theorem loadForm_size {i : Instr} {s : State} {f : LoadForm} (h : loadForm s i = some f) : 0 < f.n ∧ f.n ≤ 8 := by
  cases i with
  | lb | lbu | lh | lhu | lw | lwu | ll | ld | lld => cases h; dsimp only; decide
  | _ => cases h

/-- SC and SCD: the 64-bit gate if it has one, then the access. -/
theorem exec_of_scForm {i : Instr} {s : State} {f : ScForm} (h : scForm s i = some f) :
    exec i s = finish (if f.wide then need64 s (storeConditional f.n f.rt f.va s) else storeConditional f.n f.rt f.va s) := by
  cases i with
  | sc | scd => cases h; rw [effectiveAddress_eq]; rfl
  | _ => cases h

/-! ## Misaligned accesses (spec/20_memory.md R136) -/

/-- Address Error leaves its address and its code. -/
theorem takeException_addressError (s : State) (store : Bool) (va : Dword) :
    (takeException (.addressError store va) s).cp0.badVAddr = va ∧
      (takeException (.addressError store va) s).cp0.cause.excCode = if store then 5 else 4 := ⟨rfl, rfl⟩

theorem LoadForm.access_misaligned {f : LoadForm} {s : State} (h : f.va.toNat % f.n ≠ 0) :
    f.access s = .exc (.addressError false f.va) s := by
  unfold LoadForm.access
  split <;> exact needAligned_not h

/-- Registers that may be named pass the check. -/
theorem evenFprs_ok {α : Type} {ns : List RegNum} {s : State} {k : Res α} (h : FprsOk ns s) : evenFprs ns s k = k := by
  have hpass : (!frSeen s && ns.any fun n => n.getLsbD 0) = false := by
    rcases h with hfr | heven
    · rw [hfr]; rfl
    · rw [Bool.and_eq_false_iff, List.any_eq_false]
      exact .inr fun n hn => Bool.eq_false_iff.1 (heven n hn)
  unfold evenFprs
  rw [hpass]
  rfl

theorem loadFpr_misaligned {f : Fmt} {n : RegNum} {va : Dword} {s : State} (ho : f = .D → FprsOk [n] s)
    (h : va.toNat % fmtBytes f ≠ 0) : loadFpr f n va s = .exc (.addressError false va) s := by
  cases f with
  | S => exact needAligned_not h
  | D => exact (evenFprs_ok (ho rfl)).trans (needAligned_not h)

theorem storeFpr_misaligned {f : Fmt} {n : RegNum} {va : Dword} {s : State} (ho : f = .D → FprsOk [n] s)
    (h : va.toNat % fmtBytes f ≠ 0) : storeFpr f n va s = .exc (.addressError true va) s := by
  cases f with
  | S => exact needAligned_not h
  | D => exact (evenFprs_ok (ho rfl)).trans (needAligned_not h)

/-- Settles O20: behind the gates of its form, each access meets the alignment check first. -/
theorem misalignedAddressError : Obligations.MisalignedAddressError := by
  refine ⟨takeException_addressError, fun i s f hf hw ha => ?_, fun i s f hf hw ha => ?_, fun i s f hf hw ha => ?_,
    fun i s f hf hok hr ha => ?_, fun i s f hf hok hr ha => ?_, fun s ha => needAligned_not ha⟩
  · rw [exec_of_loadForm hf, wideGate_ok hw, LoadForm.access_misaligned ha, finish_exc]
  · rw [exec_of_storeForm hf, wideGate_ok hw, storeBytes, needAligned_not ha, finish_exc]
  · rw [exec_of_scForm hf, wideGate_ok hw, storeConditional, needAligned_not ha, finish_exc]
  · obtain ⟨h1, h4, ho⟩ := hok
    rw [exec_of_fpLoadForm hf, needCp1_ok h1, FpMemForm.gates_ok h4 hr, loadFpr_misaligned ho ha, finish_exc]
  · obtain ⟨h1, h4, ho⟩ := hok
    rw [exec_of_fpStoreForm hf, needCp1_ok h1, FpMemForm.gates_ok h4 hr, storeFpr_misaligned ho ha, finish_exc]

/-! ## Behind a load -/

/-- A linked load behind its register write: the link set, LLAddr written (spec/40_loads_stores.md R285). -/
def State.linkTo (s : State) (pa : PAddr) : State := (s.setLink pa).setCp0 { s.cp0 with llAddr := pa.extractLsb' 4 32 }

/-- Control does not depend on the link. -/
theorem advance_seq_linkTo (pa : PAddr) (s : State) : advance .seq (s.linkTo pa) = (advance .seq s).linkTo pa := by
  cases hd : s.delay <;> simp only [advance, State.linkTo, State.setCp0_delay, State.setLink_delay, hd] <;> rfl

/-- The state after a load that has left memory and caches as in `t`: the register written, control gone on, a linked one's link set. -/
def LoadForm.done (f : LoadForm) (pa : PAddr) (v : Dword) (t : State) : State :=
  if f.linked then (advance .seq (t.writeGpr f.rt v)).linkTo pa else advance .seq (t.writeGpr f.rt v)

/-- A load, linked or not, whose cached access answers. -/
theorem LoadForm.access_cached {f : LoadForm} {s t : State} {pa : PAddr} {c : BitVec 3} {bs : List Byte} (hp : PlainOrder s)
    (hr : Reaches s .load f.va f.n pa c) (hc : c ≠ 2) (hl : loadCached (seen .data s).cp0 f.va pa c f.n s = .ok bs t) :
    finish (f.access s) = .next (f.done pa (f.extend (valueOfBytes s.boot.bigEndianMem bs)) t) := by
  obtain ⟨ha, hd⟩ := hr
  have hc' : ¬(c == 2) = true := by simpa using hc
  have hphys : loadPhys f.va f.n pa c s = .ok bs t := (if_neg hc').trans hl
  unfold LoadForm.access LoadForm.done
  split
  · rw [dataAddress_plain hp] at hd
    rw [loadLinked, needAligned_ok ha, hd, Look.on_ok]
    dsimp only
    rw [if_neg hc', placeOf_plain hp, hphys, Res.bind_ok, finish_goOn, ← advance_seq_linkTo]
    rfl
  · rw [loadGpr, needAligned_ok ha, loadValue, hd, Look.on_ok]
    dsimp only
    rw [hphys, Res.bind_ok, Res.bind_ok, finish_goOn]

theorem exec_cachedLoad {i : Instr} {s t : State} {f : LoadForm} {pa : PAddr} {c : BitVec 3} {bs : List Byte}
    (hf : loadForm s i = some f) (hw : WideOk f.wide s) (hp : PlainOrder s) (hr : Reaches s .load f.va f.n pa c) (hc : c ≠ 2)
    (hl : loadCached (seen .data s).cp0 f.va pa c f.n s = .ok bs t) (hlen : bs.length = f.n) :
    exec i s = .next (f.done pa (loadedValue f.signed f.n (natOfBytes s.boot.bigEndianMem bs)) t) := by
  obtain ⟨hpos, h8⟩ := loadForm_size hf
  have hext : loadedValue f.signed f.n (natOfBytes s.boot.bigEndianMem bs) = f.extend (valueOfBytes s.boot.bigEndianMem bs) := by
    rw [loadedValue_natOfBytes _ _ hlen hpos h8, LoadForm.extend]
    split <;> rfl
  rw [exec_of_loadForm hf, wideGate_ok hw, LoadForm.access_cached hp hr hc hl, hext]

/-- Memory, the buffer, the caches, the physical map and the boot mode are the same; registers, CP0, the link and control may differ. -/
structure SameSides (t u : State) : Prop where
  mem : u.mem = t.mem
  wb : u.wb = t.wb
  icache : u.icache = t.icache
  icacheRest : u.icacheRest = t.icacheRest
  dcache : u.dcache = t.dcache
  dcacheRest : u.dcacheRest = t.dcacheRest
  scache : u.scache = t.scache
  scacheRest : u.scacheRest = t.scacheRest
  physMap : u.physMap = t.physMap
  boot : u.boot = t.boot

theorem SameSides.sameMemory {t u : State} (h : SameSides t u) : SameMemory t u where
  bytes _ := by rw [h.mem]
  buffer := h.wb
  icache := ⟨h.icache, h.icacheRest⟩
  dcache := ⟨h.dcache, h.dcacheRest⟩
  scache := ⟨h.scache, h.scacheRest⟩

theorem SameSides.putDLine {i : Nat} {way : Bool} {l : DLine} {s t u : State} (h : SameSides t u) (hl : PutDLine i way l s t) :
    PutDLine i way l s u := by
  have hset : ∀ j, dsetAt u j = dsetAt t j := dsetAt_congr h.dcache h.dcacheRest
  exact ⟨by rw [hset]; exact hl.line, by rw [hset]; exact hl.other, fun j hj => (hset j).trans (hl.sets j hj)⟩

/-- What a refill has left does not depend on registers and the link. -/
theorem SameSides.lineFilled {va : Dword} {pa : PAddr} {c : BitVec 3} {old : DLine} {d : LineData} {s t u : State} (h : SameSides t u)
    (hf : LineFilled va pa c old d s t) : LineFilled va pa c old d s u where
  line := by
    obtain ⟨l, hdata, hpar, hstate, htag, hw, hbad, hput⟩ := hf.line
    exact ⟨l, hdata, hpar, hstate, htag, hw, hbad, h.putDLine hput⟩
  fifo := by rw [dsetAt_congr h.dcache h.dcacheRest]; exact hf.fifo
  memory := writtenBack_congr hf.memory rfl rfl rfl h.mem h.physMap h.wb
  secondary j := (slineAt_congr h.scache h.scacheRest j).trans (hf.secondary j)
  icache j := (isetAt_congr h.icache h.icacheRest j).trans (hf.icache j)
  map := ⟨h.physMap.trans hf.map.1, h.boot.trans hf.map.2⟩

/-- Control that goes on from a state with the same place. -/
theorem wentOn_advance {s t : State} (hpc : t.pc = s.pc) (hdelay : t.delay = s.delay) : WentOn s (advance .seq t) := by
  obtain ⟨hnext, hnone⟩ := advance_seq t
  rw [hpc, hdelay] at hnext
  exact ⟨hnext, hnone⟩

/-- A register written behind an access to memory: everything else but the memory side and the link is as before. -/
theorem loadsGpr_advance {s t : State} (h : MemorySide s t) (r : RegNum) (v : Dword) (pa : PAddr) :
    LoadsGpr r v false pa s (advance .seq (t.writeGpr r v)) where
  gpr q := by rw [readGpr_congr (advance_gpr .seq _), readGpr_writeGpr, readGpr_congr h.gpr]
  hiLo := by simp [h.hi, h.lo]
  fpu := ⟨readFgr_congr (by simp [h.fgr]), by simp [h.fcr31]⟩
  cp0 := by simp [h.cp0]
  tlb := by simp [h.tlb]
  platform := by
    constructor <;> simp [h.intReg, h.intPin, h.nmiPin, h.nmiSeen, h.nmiPending, h.timerInt, h.standby, h.boot, h.physMap, h.entered]
  control := wentOn_advance (by simp [h.pc]) (by simp [h.delay])

theorem LoadsGpr.linkTo {r : RegNum} {v : Dword} {pa : PAddr} {s t : State} (h : LoadsGpr r v false pa s t) :
    LoadsGpr r v true pa s (t.linkTo pa) where
  gpr := h.gpr
  hiLo := h.hiLo
  fpu := ⟨h.fpu.fgr, h.fpu.fcr31⟩
  cp0 := congrArg (fun c : Cp0 => { c with llAddr := pa.extractLsb' 4 32 }) h.cp0
  tlb := h.tlb
  platform := { h.platform with }
  control := h.control

section
variable (f : LoadForm) (pa : PAddr) (v : Dword) (t : State)

theorem LoadForm.loadsGpr_done {s : State} (h : MemorySide s t) : LoadsGpr f.rt v f.linked pa s (f.done pa v t) := by
  have hplain := loadsGpr_advance h f.rt v pa
  unfold LoadForm.done
  split
  · next hl => rw [hl]; exact hplain.linkTo
  · next hl => rw [Bool.eq_false_iff.2 hl]; exact hplain

theorem LoadForm.sameSides_done : SameSides t (f.done pa v t) := by
  unfold LoadForm.done State.linkTo
  split <;> constructor <;> simp

/-- A linked load sets the link, another leaves it. -/
theorem LoadForm.linkAfter_done : LinkAfter f.linked pa (SameLink t (f.done pa v t)) (f.done pa v t) := by
  unfold LinkAfter LoadForm.done State.linkTo SameLink
  split <;> simp

end

/-- What follows from the link as the access leaves it. -/
theorem LinkAfter.imp {linked : Bool} {pa : PAddr} {p q : Prop} {t : State} (hpq : p → q) (h : LinkAfter linked pa p t) :
    LinkAfter linked pa q t := by
  cases linked with
  | true => exact h
  | false => exact hpq h

theorem LinkBroken.sameLink {l : DLine} {i : Nat} {s t u : State} (h : LinkBroken l i s t) (hu : SameLink t u) : LinkBroken l i s u := by
  obtain ⟨haddr, hknown, hbit⟩ := h
  obtain ⟨hbit', haddr', hknown'⟩ := hu
  exact ⟨haddr'.trans haddr, hknown'.trans hknown, hbit'.trans hbit⟩

/-! ## Cached loads -/

/-- Settles O23: the bytes are the line's, and the access leaves the state as it was. -/
theorem cachedLoadHits : Obligations.CachedLoadHits := by
  intro i s f pa c hf hw hp hr hc way l hl
  have hexec := exec_cachedLoad hf hw hp hr hc (loadCached_hit hl) (lineBytes_length _ _ _)
  exact ⟨_, hexec, f.loadsGpr_done pa _ s (Eq.refl _), (f.sameSides_done pa _ s).sameMemory, f.linkAfter_done pa _ s⟩

/-- Settles O24: the access fills the line as a refill does, and takes the bytes from it. -/
theorem cachedLoadMisses : Obligations.CachedLoadMisses := by
  intro i s f pa c hm hf hw hp hr hc old d hno hv hd
  obtain ⟨t, ht, hside, hfill, hlink⟩ := loadCached_miss (n := f.n) hm hno hv hd
  have hexec := exec_cachedLoad hf hw hp hr hc ht (lineBytes_length _ _ _)
  exact ⟨_, hexec, f.loadsGpr_done pa _ t hside, (f.sameSides_done pa _ t).lineFilled hfill,
    (f.linkAfter_done pa _ t).imp hlink.sameLink⟩

end Sys2Proof.Machine
end

section
/-! SUPPORT. The segments of the address space (O30) and translation through the TLB (O31). -/

namespace Sys2Proof.Machine

-- One thread, as in Sys2Proof/Tests: the whole text stays within the check's memory limit.
set_option Elab.async false

/-! ## Segments (spec/20_memory.md R152 to R157) -/

theorem within_iff (va lo hi : Dword) : within va lo hi = true ↔ lo ≤ va ∧ va ≤ hi := by
  unfold within
  rw [Bool.and_eq_true, decide_eq_true_iff, decide_eq_true_iff]

theorem toNat_low29 (va : Dword) : low29 va = BitVec.ofNat 36 (va.toNat % 2 ^ 29) := by
  apply BitVec.eq_of_toNat_eq
  rw [low29, BitVec.toNat_setWidth, BitVec.extractLsb'_toNat, BitVec.toNat_ofNat, Nat.shiftRight_zero]

/-- The compatibility segments of Kernel mode. -/
theorem kernelCompat_cases (k0 : BitVec 3) (va : Dword) :
    (va < 0xFFFFFFFF80000000 → kernelCompat k0 va = .addressError) ∧
    (0xFFFFFFFF80000000 ≤ va → va < 0xFFFFFFFFA0000000 →
      kernelCompat k0 va = .unmapped (BitVec.ofNat 36 (va.toNat % 2 ^ 29)) k0) ∧
    (0xFFFFFFFFA0000000 ≤ va → va < 0xFFFFFFFFC0000000 →
      kernelCompat k0 va = .unmapped (BitVec.ofNat 36 (va.toNat % 2 ^ 29)) 2) ∧
    (0xFFFFFFFFC0000000 ≤ va → kernelCompat k0 va = .mapped) := by
  have hbounds : kernelCompat k0 va =
      if 0xFFFFFFFF80000000 ≤ va ∧ va ≤ 0xFFFFFFFF9FFFFFFF then .unmapped (BitVec.ofNat 36 (va.toNat % 2 ^ 29)) k0
      else if 0xFFFFFFFFA0000000 ≤ va ∧ va ≤ 0xFFFFFFFFBFFFFFFF then .unmapped (BitVec.ofNat 36 (va.toNat % 2 ^ 29)) 2
      else if 0xFFFFFFFFC0000000 ≤ va ∧ va ≤ 0xFFFFFFFFFFFFFFFF then .mapped else .addressError := by
    simp only [kernelCompat, within_iff, toNat_low29]
  rw [hbounds]
  refine ⟨fun h => ?_, fun h h' => ?_, fun h h' => ?_, fun h => ?_⟩
  · rw [if_neg (by bv_omega), if_neg (by bv_omega), if_neg (by bv_omega)]
  · rw [if_pos (by bv_omega)]
  · rw [if_neg (by bv_omega), if_pos (by bv_omega)]
  · rw [if_neg (by bv_omega), if_neg (by bv_omega), if_pos (by bv_omega)]

/-! The regions by their bounds. -/

theorem inUser32_iff (va : Dword) : inUser32 va = true ↔ va < 0x80000000 := by rw [inUser32, within_iff]; bv_omega
theorem inUser64_iff (va : Dword) : inUser64 va = true ↔ va < 0x10000000000 := by rw [inUser64, within_iff]; bv_omega
theorem inSupervisor64_iff (va : Dword) : inSupervisor64 va = true ↔ 0x4000000000000000 ≤ va ∧ va ≤ 0x400000FFFFFFFFFF := within_iff _ _ _
theorem inSseg_iff (va : Dword) : inSseg va = true ↔ 0xFFFFFFFFC0000000 ≤ va ∧ va ≤ 0xFFFFFFFFDFFFFFFF := within_iff _ _ _

/-- xkphys is the region 2. -/
theorem inXkphys_iff (va : Dword) : (va.extractLsb' 62 2 == 2#2) = true ↔ 0x8000000000000000 ≤ va ∧ va < 0xC000000000000000 := by
  have hr : (va.extractLsb' 62 2).toNat = va.toNat / 2 ^ 62 % 4 := by rw [BitVec.extractLsb'_toNat, Nat.shiftRight_eq_div_pow]
  rw [beq_iff_eq, ← BitVec.toNat_inj, hr]
  bv_omega

theorem xkphysHole_iff (va : Dword) : (va.extractLsb' 36 23 == 0#23) = true ↔ va.toNat / 2 ^ 36 % 2 ^ 23 = 0 := by
  rw [beq_iff_eq, ← BitVec.toNat_inj, BitVec.extractLsb'_toNat, Nat.shiftRight_eq_div_pow]
  rfl

theorem xkphys_unmapped (va : Dword) : Segment.unmapped (va.extractLsb' 0 36) (va.extractLsb' 59 3) =
    .unmapped (BitVec.ofNat 36 (va.toNat % 2 ^ 36)) (BitVec.ofNat 3 (va.toNat / 2 ^ 59 % 8)) := by
  congr 1 <;> apply BitVec.eq_of_toNat_eq <;>
    simp only [BitVec.extractLsb'_toNat, BitVec.toNat_ofNat, Nat.shiftRight_eq_div_pow, Nat.pow_zero, Nat.div_one, Nat.reducePow, Nat.mod_mod]

/-! ### One equation for each mode and width -/

section
variable {t : StatusReg} (k0 : BitVec 3) (va : Dword)

theorem segmentOf_user32 (hm : modeOf t = .user) (hx : extendedAddressing t = false) :
    segmentOf t k0 va = if va < 0x80000000 then .mapped else .addressError := by
  simp only [extendedAddressing, hm] at hx
  simp only [segmentOf, hm, hx, Bool.false_eq_true, if_false, inUser32_iff]

theorem segmentOf_user64 (hm : modeOf t = .user) (hx : extendedAddressing t = true) :
    segmentOf t k0 va = if va < 0x10000000000 then .mapped else .addressError := by
  simp only [extendedAddressing, hm] at hx
  simp only [segmentOf, hm, hx, if_true, inUser64_iff]

theorem segmentOf_supervisor32 (hm : modeOf t = .supervisor) (hx : extendedAddressing t = false) :
    segmentOf t k0 va = if va < 0x80000000 ∨ (0xFFFFFFFFC0000000 ≤ va ∧ va ≤ 0xFFFFFFFFDFFFFFFF) then .mapped else .addressError := by
  simp only [extendedAddressing, hm] at hx
  simp only [segmentOf, hm, hx, Bool.false_eq_true, if_false, Bool.or_eq_true, inUser32_iff, inSseg_iff]

theorem segmentOf_supervisor64 (hm : modeOf t = .supervisor) (hx : extendedAddressing t = true) :
    segmentOf t k0 va = if (va < 0x10000000000 ∨ (0x4000000000000000 ≤ va ∧ va ≤ 0x400000FFFFFFFFFF)) ∨
      (0xFFFFFFFFC0000000 ≤ va ∧ va ≤ 0xFFFFFFFFDFFFFFFF) then .mapped else .addressError := by
  simp only [extendedAddressing, hm] at hx
  simp only [segmentOf, hm, hx, if_true, Bool.or_eq_true, inUser64_iff, inSupervisor64_iff, inSseg_iff]

/-- While ERL is set the mode is Kernel and the low 2 Gbytes are unmapped and uncached. -/
theorem segmentOf_erl (he : t.erl = true) (hv : va < 0x80000000) : segmentOf t k0 va = .unmapped (BitVec.ofNat 36 va.toNat) 2 := by
  have hm : modeOf t = .kernel := by simp [modeOf, he]
  have hpa : (va.extractLsb' 0 31).setWidth 36 = BitVec.ofNat 36 va.toNat := by
    apply BitVec.eq_of_toNat_eq
    have : va.toNat < 2 ^ 31 := hv
    simp only [BitVec.toNat_setWidth, BitVec.extractLsb'_toNat, BitVec.toNat_ofNat, Nat.shiftRight_zero]
    omega
  simp only [segmentOf, hm, he, Bool.true_and, inUser32_iff, hv, if_true, hpa]

theorem segmentOf_kernel32 (hm : modeOf t = .kernel) (hx : extendedAddressing t = false) (hl : t.erl = true → 0x80000000 ≤ va) :
    segmentOf t k0 va = if va < 0x80000000 then .mapped else kernelCompat k0 va := by
  have hlow : ¬(t.erl = true ∧ va < 0x80000000) := fun h => BitVec.not_lt.2 (hl h.1) h.2
  simp only [extendedAddressing, hm] at hx
  simp only [segmentOf, hm, hx, Bool.and_eq_true, Bool.false_eq_true, if_false, inUser32_iff, hlow]

theorem segmentOf_kernel64 (hm : modeOf t = .kernel) (hx : extendedAddressing t = true) (hl : t.erl = true → 0x80000000 ≤ va) :
    segmentOf t k0 va = if (va < 0x10000000000 ∨ (0x4000000000000000 ≤ va ∧ va ≤ 0x400000FFFFFFFFFF)) ∨
        (0xC000000000000000 ≤ va ∧ va ≤ 0xC00000FF7FFFFFFF) then .mapped
      else if 0x8000000000000000 ≤ va ∧ va < 0xC000000000000000 then
        (if va.toNat / 2 ^ 36 % 2 ^ 23 = 0 then
          .unmapped (BitVec.ofNat 36 (va.toNat % 2 ^ 36)) (BitVec.ofNat 3 (va.toNat / 2 ^ 59 % 8)) else .addressError)
      else kernelCompat k0 va := by
  have hlow : ¬(t.erl = true ∧ va < 0x80000000) := fun h => BitVec.not_lt.2 (hl h.1) h.2
  simp only [extendedAddressing, hm] at hx
  simp only [segmentOf, hm, hx, Bool.and_eq_true, Bool.or_eq_true, if_true, if_false, inUser32_iff, hlow, inUser64_iff,
    inSupervisor64_iff, within_iff, inXkphys_iff, xkphysHole_iff, xkphys_unmapped]

end

/-! ### By the bounds of the segments -/

/-- Outside ERL every mode maps the low 2 Gbytes. -/
theorem segmentOf_low {t : StatusReg} (k0 : BitVec 3) {va : Dword} (he : t.erl = false) (hv : va < 0x80000000) :
    segmentOf t k0 va = .mapped := by
  have hl : t.erl = true → 0x80000000 ≤ va := fun h => absurd (he.symm.trans h) Bool.false_ne_true
  have hv64 : va < 0x10000000000 := by bv_omega
  cases hm : modeOf t with
  | kernel =>
    cases hx : extendedAddressing t with
    | false => rw [segmentOf_kernel32 k0 va hm hx hl, if_pos hv]
    | true => rw [segmentOf_kernel64 k0 va hm hx hl, if_pos (.inl (.inl hv64))]
  | supervisor =>
    cases hx : extendedAddressing t with
    | false => rw [segmentOf_supervisor32 k0 va hm hx, if_pos (.inl hv)]
    | true => rw [segmentOf_supervisor64 k0 va hm hx, if_pos (.inl (.inl hv64))]
  | user =>
    cases hx : extendedAddressing t with
    | false => rw [segmentOf_user32 k0 va hm hx, if_pos hv]
    | true => rw [segmentOf_user64 k0 va hm hx, if_pos hv64]

/-- With 64-bit addressing every mode maps the user region above the low 2 Gbytes. -/
theorem segmentOf_xuseg {t : StatusReg} (k0 : BitVec 3) {va : Dword} (hx : extendedAddressing t = true) (hv : 0x80000000 ≤ va)
    (hv64 : va < 0x10000000000) : segmentOf t k0 va = .mapped := by
  cases hm : modeOf t with
  | kernel => rw [segmentOf_kernel64 k0 va hm hx fun _ => hv, if_pos (.inl (.inl hv64))]
  | supervisor => rw [segmentOf_supervisor64 k0 va hm hx, if_pos (.inl (.inl hv64))]
  | user => rw [segmentOf_user64 k0 va hm hx, if_pos hv64]

/-- From 0xFFFFFFFF80000000 on Kernel mode has the same segments in both widths. -/
theorem segmentOf_kernel_top {t : StatusReg} (k0 : BitVec 3) {va : Dword} (hm : modeOf t = .kernel) (hv : 0xFFFFFFFF80000000 ≤ va) :
    segmentOf t k0 va = kernelCompat k0 va := by
  have hl : t.erl = true → 0x80000000 ≤ va := fun _ => by bv_omega
  cases hx : extendedAddressing t with
  | false => rw [segmentOf_kernel32 k0 va hm hx hl, if_neg (by bv_omega)]
  | true => rw [segmentOf_kernel64 k0 va hm hx hl, if_neg (by bv_omega), if_neg (by bv_omega)]

/-- Settles O30: each segment by its mode, width and bounds. -/
theorem addressSegments : Obligations.AddressSegments := by
  intro t k0 va
  obtain ⟨hhole, hseg0, hseg1, htop⟩ := kernelCompat_cases k0 va
  have low (hv : 0x10000000000 ≤ va) : t.erl = true → 0x80000000 ≤ va := fun _ => by bv_omega
  refine ⟨segmentOf_erl k0 va, segmentOf_low k0, fun hx hv => ⟨fun hm => ?_, fun hm => ?_, fun hm hc => ?_⟩, segmentOf_xuseg k0,
    fun hx hv => ⟨fun hm => ?_, fun hm => ?_, fun hm hc => ?_, fun hm hc hd => ?_, fun hm hc hd => ?_⟩, fun hm hc hd => ?_,
    fun hm hc hd => ?_, fun hm hc => ?_⟩
  · rw [segmentOf_user32 k0 va hm hx, if_neg (BitVec.not_lt.2 hv)]
  · rw [segmentOf_supervisor32 k0 va hm hx]
    simp only [BitVec.not_lt.2 hv, false_or]
  · rw [segmentOf_kernel32 k0 va hm hx fun _ => hv, if_neg (BitVec.not_lt.2 hv), hhole hc]
  · rw [segmentOf_user64 k0 va hm hx, if_neg (BitVec.not_lt.2 hv)]
  · rw [segmentOf_supervisor64 k0 va hm hx]
    simp only [BitVec.not_lt.2 hv, false_or]
  · have hkphys : ¬(0x8000000000000000 ≤ va ∧ va < 0xC000000000000000) := by bv_omega
    have hkseg : ¬(0xC000000000000000 ≤ va ∧ va ≤ 0xC00000FF7FFFFFFF) := by bv_omega
    rw [segmentOf_kernel64 k0 va hm hx (low hv), if_neg hkphys, hhole (by bv_omega)]
    simp only [BitVec.not_lt.2 hv, hkseg, false_or, or_false]
  · rw [segmentOf_kernel64 k0 va hm hx (low hv), if_neg (by bv_omega), if_pos ⟨hc, hd⟩]
  · have hsup : ¬(0x4000000000000000 ≤ va ∧ va ≤ 0x400000FFFFFFFFFF) := by bv_omega
    have hkphys : ¬(0x8000000000000000 ≤ va ∧ va < 0xC000000000000000) := fun h => BitVec.not_lt.2 hc h.2
    rw [segmentOf_kernel64 k0 va hm hx (low hv), if_neg hkphys, hhole hd]
    simp only [BitVec.not_lt.2 hv, hsup, hc, false_or, true_and]
  · rw [segmentOf_kernel_top k0 hm hc, hseg0 hc hd]
  · rw [segmentOf_kernel_top k0 hm (by bv_omega), hseg1 hc hd]
  · rw [segmentOf_kernel_top k0 hm (by bv_omega), htop hc]

/-! ## The TLB (spec/20_memory.md R162 to R165) -/

/-- The compared bits of VPN2 agree bit by bit. -/
theorem maskedVpn2_eq_iff (m : BitVec 12) (a b : BitVec 27) :
    a &&& ~~~(mask27 m) = b &&& ~~~(mask27 m) ↔ ∀ k < 27, (k < 12 → m.getLsbD k = false) → a.getLsbD k = b.getLsbD k := by
  have bit : ∀ (v : BitVec 27) (k : Nat), k < 27 → (v &&& ~~~(mask27 m)).getLsbD k = (v.getLsbD k && !m.getLsbD k) := fun v k hk => by
    rw [BitVec.getLsbD_and, BitVec.getLsbD_not, mask27, BitVec.getLsbD_setWidth]
    simp [hk]
  constructor
  · intro h k hk hfree
    have hm : m.getLsbD k = false := if h12 : k < 12 then hfree h12 else m.getLsbD_of_ge k (by omega)
    have hk' := congrArg (BitVec.getLsbD · k) h
    simpa only [bit _ k hk, hm, Bool.not_false, Bool.and_true] using hk'
  · intro h
    apply BitVec.eq_of_getLsbD_eq
    intro k hk
    rw [bit a k hk, bit b k hk]
    cases hm : m.getLsbD k with
    | false => rw [h k hk fun _ => hm]
    | true => simp only [Bool.not_true, Bool.and_false]

theorem tlbMatches_iff (e : TlbEntry) (r : BitVec 2) (vpn2 : BitVec 27) (asid : BitVec 8) :
    tlbMatches e r vpn2 asid = true ↔ EntryMatches e r vpn2 asid := by
  simp only [tlbMatches, EntryMatches, Bool.and_eq_true, Bool.or_eq_true, beq_iff_eq, maskedVpn2_eq_iff, and_assoc]

section
variable {t : Vector TlbEntry 48} {r : BitVec 2} {vpn2 : BitVec 27} {asid : BitVec 8}

theorem mem_tlbHits {i : Fin 48} : i ∈ tlbHits t r vpn2 asid ↔ EntryMatches t[i] r vpn2 asid := by
  rw [tlbHits, List.mem_filter, tlbMatches_iff, and_iff_right (List.mem_finRange i)]

theorem nodup_tlbHits : (tlbHits t r vpn2 asid).Nodup := (List.nodup_finRange 48).filter _

theorem tlbHits_none (h : ∀ j : Fin 48, ¬EntryMatches t[j] r vpn2 asid) : tlbHits t r vpn2 asid = [] :=
  List.eq_nil_iff_forall_not_mem.2 fun j hj => h j (mem_tlbHits.1 hj)

theorem tlbHits_one {i : Fin 48} (h : ∀ j : Fin 48, EntryMatches t[j] r vpn2 asid ↔ j = i) : tlbHits t r vpn2 asid = [i] := by
  have hperm : (tlbHits t r vpn2 asid).Perm [i] :=
    (List.perm_ext_iff_of_nodup nodup_tlbHits (List.nodup_singleton i)).2 fun j => by rw [mem_tlbHits, h, List.mem_singleton]
  exact List.perm_singleton.1 hperm

theorem tlbHits_two {i j : Fin 48} (hij : i ≠ j) (hi : EntryMatches t[i] r vpn2 asid) (hj : EntryMatches t[j] r vpn2 asid) :
    ∃ a b l, tlbHits t r vpn2 asid = a :: b :: l := by
  have hi' := mem_tlbHits.2 hi
  have hj' := mem_tlbHits.2 hj
  match h : tlbHits t r vpn2 asid with
  | [] => rw [h] at hi'; cases hi'
  | [k] =>
    rw [h, List.mem_singleton] at hi' hj'
    exact absurd (hi'.trans hj'.symm) hij
  | a :: b :: l => exact ⟨a, b, l, rfl⟩

end

/-- The page's number, and below it the offset of the virtual address (R163). -/
theorem pageAddress_eq {w : Nat} (hw : w ≤ 36) (pfn : BitVec 24) (va : Dword) :
    pageAddress w pfn va = BitVec.ofNat 36 (pfn.toNat * 2 ^ 12 / 2 ^ w * 2 ^ w + va.toNat % 2 ^ w) := by
  have hframe : (pfn ++ 0#12 : PAddr).toNat = pfn.toNat * 2 ^ 12 := by
    rw [BitVec.toNat_append, BitVec.toNat_ofNat, Nat.zero_mod, Nat.or_zero, Nat.shiftLeft_eq]
  have hpage : pfn.toNat * 2 ^ 12 / 2 ^ w * 2 ^ w < 2 ^ 36 := (Nat.div_mul_le_self _ _).trans_lt (by omega)
  have hoff : va.toNat % 2 ^ w < 2 ^ w := Nat.mod_lt _ (Nat.two_pow_pos w)
  have hsum : (pageAddress w pfn va).toNat = pfn.toNat * 2 ^ 12 / 2 ^ w * 2 ^ w + va.toNat % 2 ^ w := by
    rw [pageAddress, BitVec.toNat_or, BitVec.toNat_shiftLeft, BitVec.toNat_ushiftRight, hframe, BitVec.toNat_ofNat,
      Nat.shiftRight_eq_div_pow, Nat.shiftLeft_eq, Nat.mod_eq_of_lt hpage,
      Nat.mod_eq_of_lt (hoff.trans_le (Nat.pow_le_pow_right (by decide) hw)), ← Nat.shiftLeft_eq, Nat.shiftLeft_add_eq_or_of_lt hoff]
  apply BitVec.eq_of_toNat_eq
  rw [BitVec.toNat_ofNat, ← hsum, Nat.mod_eq_of_lt (pageAddress w pfn va).isLt]

theorem pageWidth_le {m : BitVec 12} {w : Nat} (h : pageWidth m = some w) : w ≤ 36 := by
  unfold pageWidth at h
  split_ifs at h <;> cases h <;> decide

/-- Access control and address by the half of the entry that the page-select bit names (R163, R164). -/
theorem translateEntry_of_half {e : TlbEntry} {va : Dword} {w : Nat} {pfn : BitVec 24} {c : BitVec 3} {d valid : Bool}
    (hw : pageWidth e.mask = some w)
    (hhalf : (pfn, c, d, valid) = if va.toNat / 2 ^ w % 2 = 1 then (e.pfn1, e.c1, e.d1, e.v1) else (e.pfn0, e.c0, e.d0, e.v0))
    (kind : AccessKind) :
    translateEntry e kind va = if !valid then .error (.exc (.tlbInvalid (kind == .store) va))
      else if kind == .store && !d then .error (.exc (.tlbModified va))
      else if reservedAttr c then .error (.refuse .reservedAttribute)
      else .ok (pageAddress w pfn va, c) := by
  have hodd : va.getLsbD w = decide (va.toNat / 2 ^ w % 2 = 1) := by rw [BitVec.getLsbD, Nat.testBit_eq_decide_div_mod_eq]
  unfold translateEntry
  rw [hw]
  dsimp only
  rw [hodd]
  split at hhalf <;> next hsel => cases hhalf; simp only [hsel, decide_true, decide_false, if_true, Bool.false_eq_true, if_false]

section
variable {v : State} {va : Dword} (kind : AccessKind) (hs : segmentOf v.cp0.status v.cp0.configK0 va = .mapped)
include hs

/-! A mapped address by the entries that match it. -/

theorem translate_of_no_hit (h : tlbHits v.tlb (va.extractLsb' 62 2) (va.extractLsb' 13 27) v.cp0.entryHi.asid = []) :
    translate v kind va = .error (.exc (.tlbRefill (kind == .store) va)) := by
  simp only [translate, hs, h]

theorem translate_of_one_hit {i : Fin 48}
    (h : tlbHits v.tlb (va.extractLsb' 62 2) (va.extractLsb' 13 27) v.cp0.entryHi.asid = [i]) :
    translate v kind va = translateEntry v.tlb[i] kind va := by
  simp only [translate, hs, h]

theorem translate_of_two_hits {a b : Fin 48} {l : List (Fin 48)}
    (h : tlbHits v.tlb (va.extractLsb' 62 2) (va.extractLsb' 13 27) v.cp0.entryHi.asid = a :: b :: l) :
    translate v kind va = .error (.refuse .tlbMultipleMatch) := by
  simp only [translate, hs, h]

end

/-- Settles O31: by the number of entries that match. -/
theorem tlbTranslation : Obligations.TlbTranslation := by
  intro v kind va hs
  refine ⟨fun hnone => ?_, fun i w pfn c d valid hone hw hhalf => ?_, fun i j hij hi hj => ?_⟩
  · exact translate_of_no_hit kind hs (tlbHits_none hnone)
  · rw [translate_of_one_hit kind hs (tlbHits_one hone), translateEntry_of_half hw hhalf]
    refine ⟨fun hv => ?_, fun hv hk hd => ?_, fun hv hd hc => ?_⟩
    · rw [hv]; rfl
    · rw [hv, hk, hd]; rfl
    · have hclean : (kind == .store && !d) = false := by
        cases kind with
        | fetch | load => rfl
        | store => rw [hd rfl]; rfl
      have hattr : reservedAttr c = false := decide_eq_false (BitVec.not_le.2 hc)
      rw [hv, hclean, hattr, ← pageAddress_eq (pageWidth_le hw)]
      rfl
  · obtain ⟨a, b, l, hl⟩ := tlbHits_two hij hi hj
    exact translate_of_two_hits kind hs hl

end Sys2Proof.Machine
end
section
/-! SUPPORT. The decoder and the encoder, class by class (O1, O2, O3). -/

namespace Sys2Proof

-- One thread, as in Sys2Proof/Tests: the whole text stays within the check's memory limit.
set_option Elab.async false

/-! ## The class of a word, by its major opcode (spec/30_encoding.md R225, R227) -/

theorem decodeWord_special {w : Word} (h : opOf w = 0#6) : decodeWord w = decodeSpecial w := if_pos h
theorem decodeWord_regimm {w : Word} (h : opOf w = 1#6) : decodeWord w = decodeRegimm w := by simp [decodeWord, h]
theorem decodeWord_cop0 {w : Word} (h : opOf w = 16#6) : decodeWord w = decodeCop0 w := by simp [decodeWord, h]
theorem decodeWord_cop1 {w : Word} (h : opOf w = 17#6) : decodeWord w = decodeCop1 w := by simp [decodeWord, h]
theorem decodeWord_cop1x {w : Word} (h : opOf w = 19#6) : decodeWord w = decodeCop1x w := by simp [decodeWord, h]
theorem decodeWord_cache {w : Word} (h : opOf w = 47#6) : decodeWord w = decodeCache w := by simp [decodeWord, h]

/-! COP1 again by its format, bits 25:21 (R231). -/

theorem decodeWord_bc1 {w : Word} (h : opOf w = 17#6) (hf : rsOf w = 8#5) : decodeWord w = decodeBc1 w := by
  rw [decodeWord_cop1 h]; simp [decodeCop1, hf]
theorem decodeWord_fmtS {w : Word} (h : opOf w = 17#6) (hf : rsOf w = 16#5) : decodeWord w = decodeCop1S w := by
  rw [decodeWord_cop1 h]; simp [decodeCop1, hf]
theorem decodeWord_fmtD {w : Word} (h : opOf w = 17#6) (hf : rsOf w = 17#5) : decodeWord w = decodeCop1D w := by
  rw [decodeWord_cop1 h]; simp [decodeCop1, hf]

/-! ## Fields that hold a condition-code number (R224) -/

@[simp] theorem ccOf_append (cc : BitVec 3) (b : BitVec 2) : ccOf (cc ++ b) = cc := by revert cc b; decide
@[simp] theorem lowBits_append (cc : BitVec 3) (b : BitVec 2) : (cc ++ b).extractLsb' 0 2 = b := by revert cc b; decide
@[simp] theorem getElem_zero_append (cc : BitVec 3) (b : BitVec 2) : (cc ++ b)[0] = b[0] := by revert cc b; decide
@[simp] theorem getElem_one_append (cc : BitVec 3) (b : BitVec 2) : (cc ++ b)[1] = b[1] := by revert cc b; decide

/-- Settles O1: the encoder's word is of the instruction's class, and there its selector picks the instruction. -/
theorem decodeOfEncode : Obligations.DecodeOfEncode := by
  intro i
  cases i with
  | add | addu | sub | subu | and | or | xor | nor | slt | sltu | dadd | daddu | dsub | dsubu | sll | srl | sra | dsll | dsrl | dsra
  | dsll32 | dsrl32 | dsra32 | sllv | srlv | srav | dsllv | dsrlv | dsrav | mult | multu | dmult | dmultu | div | divu | ddiv | ddivu
  | mfhi | mthi | mflo | mtlo | movn | movz | movf | movt | jr | jalr | tge | tgeu | tlt | tltu | teq | tne | syscall | brk | sync =>
    exact (decodeWord_special (by simp [encode])).trans (by simp [encode, decodeSpecial, mustBeZero])
  | bltz | bgez | bltzl | bgezl | tgei | tgeiu | tlti | tltiu | teqi | tnei | bltzal | bgezal | bltzall | bgezall =>
    exact (decodeWord_regimm (by simp [encode])).trans (by simp [encode, decodeRegimm])
  | mfc0 | mtc0 | dmfc0 | dmtc0 | tlbr | tlbwi | tlbwr | tlbp | eret | wait =>
    exact (decodeWord_cop0 (by simp [encode])).trans (by simp [encode, decodeCop0, decodeCop0Operation, mustBeZero])
  | cacheIIndexInvalidate | cacheIIndexLoadTag | cacheIIndexStoreTag | cacheIHitInvalidate | cacheIFill | cacheIHitWriteback
  | cacheDIndexWritebackInvalidate | cacheDIndexLoadTag | cacheDIndexStoreTag | cacheDCreateDirtyExclusive | cacheDHitInvalidate
  | cacheDHitWritebackInvalidate | cacheDHitWriteback | cacheSValidClear | cacheSIndexLoadTag | cacheSIndexStoreTag
  | cacheSCachePageInvalidate =>
    exact (decodeWord_cache (by simp [encode])).trans (by simp [encode, decodeCache])
  | bc1f | bc1t | bc1fl | bc1tl =>
    exact (decodeWord_bc1 (by simp [encode]) (by simp [encode])).trans (by simp [encode, decodeBc1])
  | addS | subS | mulS | divS | sqrtS | absS | movS | negS | roundLS | truncLS | ceilLS | floorLS | roundWS | truncWS | ceilWS | floorWS
  | movfS | movtS | movzS | movnS | recipS | rsqrtS | cvtDS | cvtWS | cvtLS | cFS | cUnS | cEqS | cUeqS | cOltS | cUltS | cOleS | cUleS
  | cSfS | cNgleS | cSeqS | cNglS | cLtS | cNgeS | cLeS | cNgtS =>
    exact (decodeWord_fmtS (by simp [encode]) (by simp [encode])).trans (by simp [encode, decodeCop1S, mustBeZero])
  | addD | subD | mulD | divD | sqrtD | absD | movD | negD | roundLD | truncLD | ceilLD | floorLD | roundWD | truncWD | ceilWD | floorWD
  | movfD | movtD | movzD | movnD | recipD | rsqrtD | cvtSD | cvtWD | cvtLD | cFD | cUnD | cEqD | cUeqD | cOltD | cUltD | cOleD | cUleD
  | cSfD | cNgleD | cSeqD | cNglD | cLtD | cNgeD | cLeD | cNgtD =>
    exact (decodeWord_fmtD (by simp [encode]) (by simp [encode])).trans (by simp [encode, decodeCop1D, mustBeZero])
  | mfc1 | mtc1 | dmfc1 | dmtc1 | cfc1 | ctc1 | cvtSW | cvtDW | cvtSL | cvtDL =>
    exact (decodeWord_cop1 (by simp [encode])).trans (by simp [encode, decodeCop1, decodeCop1W, decodeCop1L, mustBeZero])
  | lwxc1 | ldxc1 | swxc1 | sdxc1 | maddS | maddD | msubS | msubD | nmaddS | nmaddD | nmsubS | nmsubD | prefx =>
    exact (decodeWord_cop1x (by simp [encode])).trans (by simp [encode, decodeCop1x, mustBeZero])
  | _ => simp [encode, decodeWord, mustBeZero]

/-- Settles O3: every word but BREAK's, whose code the model does not keep, is an encoding, so O1 decodes it. -/
theorem exampleWordsDecode : Obligations.ExampleWordsDecode :=
  ⟨decodeOfEncode (.lw 2 8 4), decodeOfEncode (.addi 2 4 0xFFFF), decodeOfEncode (.add 2 4 5), decodeOfEncode (.sra 2 5 4),
    decodeOfEncode (.mult 4 5), decodeOfEncode (.movt 2 4 3), decodeOfEncode (.mtc0 2 12), decodeOfEncode .eret,
    decodeOfEncode (.cacheDHitWritebackInvalidate 32 4), decodeOfEncode (.lwc1 2 8 4), decodeOfEncode (.ctc1 2 31),
    decodeOfEncode (.movD 2 4), by decide⟩

end Sys2Proof
end

section
/-! SUPPORT. The word of a decoded instruction, class by class (O2). -/

namespace Sys2Proof

-- One thread, as in Sys2Proof/Tests: the whole text stays within the check's memory limit.
set_option Elab.async false

/-! ## A word is made of its fields (R220, R221) -/

theorem mkI_eq_iff {op : BitVec 6} {rs rt : BitVec 5} {imm : BitVec 16} {w : Word} :
    mkI op rs rt imm = w ↔ opOf w = op ∧ rsOf w = rs ∧ rtOf w = rt ∧ immOf w = imm := by
  refine ⟨?_, ?_⟩
  · rintro rfl; simp
  · rintro ⟨rfl, rfl, rfl, rfl⟩; exact mkI_fields w

theorem mkR_eq_iff {op fn : BitVec 6} {rs rt rd sa : BitVec 5} {w : Word} :
    mkR op rs rt rd sa fn = w ↔ opOf w = op ∧ rsOf w = rs ∧ rtOf w = rt ∧ rdOf w = rd ∧ saOf w = sa ∧ fnOf w = fn := by
  refine ⟨?_, ?_⟩
  · rintro rfl; simp
  · rintro ⟨rfl, rfl, rfl, rfl, rfl, rfl⟩; exact mkR_fields w

theorem mkJ_eq_iff {op : BitVec 6} {target : BitVec 26} {w : Word} : mkJ op target = w ↔ opOf w = op ∧ targetOf w = target := by
  refine ⟨?_, ?_⟩
  · rintro rfl; simp
  · rintro ⟨rfl, rfl⟩; exact mkJ_fields w

theorem mkCode10_eq_iff {op fn : BitVec 6} {rs rt : BitVec 5} {code : BitVec 10} {w : Word} :
    mkCode10 op rs rt code fn = w ↔ opOf w = op ∧ rsOf w = rs ∧ rtOf w = rt ∧ code10Of w = code ∧ fnOf w = fn := by
  refine ⟨?_, ?_⟩
  · rintro rfl; simp
  · rintro ⟨rfl, rfl, rfl, rfl, rfl⟩; exact mkCode10_fields w

/-! A field that holds a condition-code number, by its two low bits (R224). -/

theorem eq_ccOf_append_iff {f : BitVec 5} {b : BitVec 2} : f = ccOf f ++ b ↔ f[0] = b[0] ∧ f[1] = b[1] := by revert f b; decide
theorem lowBits_eq_iff {f : BitVec 5} {b : BitVec 2} : f.extractLsb' 0 2 = b ↔ f[0] = b[0] ∧ f[1] = b[1] := by revert f b; decide

/-! ## The word of a decoded instruction -/

/-- The instruction that a word decodes to, if it does, is encoded by that word; SYSCALL, BREAK and PREFX do not keep all its fields. -/
def EncodedBy (w : Word) (r : Except DecodeError Instr) : Prop :=
  ∀ i, r = .ok i → i ≠ .syscall → i ≠ .brk → i ≠ .prefx → encode i = w

section
variable {w : Word}

@[simp] theorem encodedBy_error {e : DecodeError} : EncodedBy w (.error e) := nofun

@[simp] theorem encodedBy_ok {i : Instr} : EncodedBy w (.ok i) ↔ (i ≠ .syscall → i ≠ .brk → i ≠ .prefx → encode i = w) :=
  ⟨fun h => h i rfl, by rintro h _ ⟨⟩; exact h⟩

@[simp] theorem encodedBy_mustBeZero {u : CopClass} {zero : Bool} {i : Instr} :
    EncodedBy w (mustBeZero u zero i) ↔ (zero = true → EncodedBy w (.ok i)) := by
  cases zero <;> simp [mustBeZero]

@[simp] theorem encodedBy_ite {c : Prop} [Decidable c] {a b : Except DecodeError Instr} :
    EncodedBy w (if c then a else b) ↔ (c → EncodedBy w a) ∧ (¬ c → EncodedBy w b) := by
  split <;> simp_all

/-- A selector's value is known in the branch it picks; the branches after it need nothing of it. -/
theorem EncodedBy.select {n : Nat} {x k : BitVec n} {a b : Except DecodeError Instr} (ha : x = k → EncodedBy w a) (hb : EncodedBy w b) :
    EncodedBy w (if x = k then a else b) :=
  encodedBy_ite.2 ⟨ha, fun _ => hb⟩

/-! Class by class, a branch gives an error or an instruction whose fields, with the selectors on the way to it, make up the word. -/

theorem encodedBy_special (hop : opOf w = 0#6) : EncodedBy w (decodeSpecial w) := by
  unfold decodeSpecial
  repeat' with_reducible refine .select (fun hfn => ?_) ?_
  all_goals simp +contextual [encode, mkR_eq_iff, mkCode10_eq_iff, eq_ccOf_append_iff, *]

theorem encodedBy_regimm (hop : opOf w = 1#6) : EncodedBy w (decodeRegimm w) := by
  unfold decodeRegimm
  repeat' with_reducible refine .select (fun hrt => ?_) ?_
  all_goals simp +contextual [encode, mkI_eq_iff, *]

theorem encodedBy_cop0Operation (hop : opOf w = 16#6) : EncodedBy w (decodeCop0Operation w) := by
  unfold decodeCop0Operation
  repeat' with_reducible refine .select (fun hfn => ?_) ?_
  all_goals simp +contextual [encode, mkR_eq_iff, *]

theorem encodedBy_cop1S (hop : opOf w = 17#6) (hfmt : rsOf w = 16#5) : EncodedBy w (decodeCop1S w) := by
  unfold decodeCop1S
  repeat' with_reducible refine .select (fun hfn => ?_) ?_
  all_goals simp +contextual [encode, mkR_eq_iff, eq_ccOf_append_iff, lowBits_eq_iff, *]

theorem encodedBy_cop1D (hop : opOf w = 17#6) (hfmt : rsOf w = 17#5) : EncodedBy w (decodeCop1D w) := by
  unfold decodeCop1D
  repeat' with_reducible refine .select (fun hfn => ?_) ?_
  all_goals simp +contextual [encode, mkR_eq_iff, eq_ccOf_append_iff, lowBits_eq_iff, *]

theorem encodedBy_cop1W (hop : opOf w = 17#6) (hfmt : rsOf w = 20#5) : EncodedBy w (decodeCop1W w) := by
  unfold decodeCop1W
  repeat' with_reducible refine .select (fun hfn => ?_) ?_
  all_goals simp +contextual [encode, mkR_eq_iff, *]

theorem encodedBy_cop1L (hop : opOf w = 17#6) (hfmt : rsOf w = 21#5) : EncodedBy w (decodeCop1L w) := by
  unfold decodeCop1L
  repeat' with_reducible refine .select (fun hfn => ?_) ?_
  all_goals simp +contextual [encode, mkR_eq_iff, *]

theorem encodedBy_cop1x (hop : opOf w = 19#6) : EncodedBy w (decodeCop1x w) := by
  unfold decodeCop1x
  repeat' with_reducible refine .select (fun hfn => ?_) ?_
  all_goals simp +contextual [encode, mkR_eq_iff, *]

theorem encodedBy_cache (hop : opOf w = 47#6) : EncodedBy w (decodeCache w) := by
  unfold decodeCache
  repeat' with_reducible refine .select (fun hrt => ?_) ?_
  all_goals simp +contextual [encode, mkI_eq_iff, *]

theorem encodedBy_cop0 (hop : opOf w = 16#6) : EncodedBy w (decodeCop0 w) := by
  unfold decodeCop0
  refine encodedBy_ite.2 ⟨fun _ => encodedBy_cop0Operation hop, fun _ => ?_⟩
  repeat' with_reducible refine .select (fun hrs => ?_) ?_
  all_goals simp +contextual [encode, mkR_eq_iff, *]

theorem encodedBy_bc1 (hop : opOf w = 17#6) (hfmt : rsOf w = 8#5) : EncodedBy w (decodeBc1 w) := by
  simp +contextual [decodeBc1, encode, mkI_eq_iff, eq_ccOf_append_iff, lowBits_eq_iff, hop, hfmt]

theorem encodedBy_cop1 (hop : opOf w = 17#6) : EncodedBy w (decodeCop1 w) := by
  unfold decodeCop1
  repeat' with_reducible refine .select (fun hrs => ?_) ?_
  all_goals
    simp +contextual [encode, mkR_eq_iff, encodedBy_bc1, encodedBy_cop1S, encodedBy_cop1D, encodedBy_cop1W, encodedBy_cop1L, *]

theorem encodedBy_word : EncodedBy w (decodeWord w) := by
  unfold decodeWord
  repeat' with_reducible refine .select (fun hop => ?_) ?_
  all_goals
    simp +contextual [encode, mkI_eq_iff, mkJ_eq_iff, encodedBy_special, encodedBy_regimm, encodedBy_cop0, encodedBy_cop1, encodedBy_cop1x,
      encodedBy_cache, *]

end

/-- Settles O2: class by class, the selectors and the fields of the decoded instruction make up the word. -/
theorem encodeOfDecode : Obligations.EncodeOfDecode :=
  fun _ i hi => encodedBy_word i hi

end Sys2Proof
end

section
/-! SUPPORT. The gates an instruction stands behind (O42, O43). -/

namespace Sys2Proof.Machine

-- One thread, as in Sys2Proof/Tests: the whole text stays within the check's memory limit.
set_option Elab.async false

/-! Instruction by instruction: the class leaves it out, or its meaning begins with the gate. -/

/-- An instruction of coprocessor 0 stands behind its gate, and nothing comes before it (R236, R470). -/
theorem exec_of_usesCop0 {i : Instr} (s : State) (h : usesCop0 i = true) : ∃ k, exec i s = finish (needCp0 s k) := by
  cases i
  all_goals first | exact (Bool.false_ne_true h).elim | exact ⟨_, rfl⟩

/-- An instruction of coprocessor 1, MOVF and MOVT stand behind its gate (R236). -/
theorem exec_of_usesCop1 {i : Instr} (s : State) (h : usesCop1 i = true) : ∃ k, exec i s = finish (needCp1 s k) := by
  cases i
  all_goals first | exact (Bool.false_ne_true h).elim | exact ⟨_, rfl⟩

/-- Settles O42: the gate of the coprocessor comes first in every meaning. -/
theorem coprocessorUnusable : Obligations.CoprocessorUnusable := by
  refine ⟨fun i s hi hs => ?_, fun i s hi hs => ?_⟩
  · obtain ⟨k, hk⟩ := exec_of_usesCop0 s hi
    rw [hk, needCp0_not (Bool.eq_false_iff.2 hs), finish_exc]
  · obtain ⟨k, hk⟩ := exec_of_usesCop1 s hi
    rw [hk, needCp1_not (Bool.eq_false_iff.2 hs), finish_exc]

/-- The gates of the coprocessors, for an instruction that may be of one of them. -/
def copGates (i : Instr) (s : State) (k : Res Flow) : Res Flow :=
  bif usesCop0 i then needCp0 s k else bif usesCop1 i then needCp1 s k else k

theorem copGates_ok {i : Instr} {s : State} {k : Res Flow} (h0 : usesCop0 i = true → Cp0Ok s) (h1 : usesCop1 i = true → Cp1Ok s) :
    copGates i s k = k := by
  cases hc0 : usesCop0 i with
  | true => simp [copGates, hc0, needCp0_ok (h0 hc0)]
  | false =>
    cases hc1 : usesCop1 i with
    | true => simp [copGates, hc0, hc1, needCp1_ok (h1 hc1)]
    | false => simp [copGates, hc0, hc1]

/-- A 64-bit operation stands behind the gate of 64-bit operations, within that of its coprocessor (R237). -/
theorem exec_of_isWide {i : Instr} (s : State) (h : isWide i = true) : ∃ k, exec i s = finish (copGates i s (need64 s k)) := by
  cases i
  all_goals first | exact (Bool.false_ne_true h).elim | exact ⟨_, rfl⟩

theorem needCc_eq_needMips4 {cc : BitVec 3} {s : State} {k : Res Flow} (h : (cc != 0) = true) : needCc cc s k = needMips4 s k :=
  if_neg (bne_iff_ne.1 h)

/-- A compare or a branch that names another condition bit than 0 stands behind the MIPS IV gate (R239). -/
theorem needCp1_needCc {cc : BitVec 3} {s : State} {k : Res Flow} (h : (cc != 0) = true) :
    ∃ k', finish (needCp1 s (needCc cc s k)) = finish (needCp1 s (needMips4 s k')) :=
  ⟨k, by rw [needCc_eq_needMips4 h]⟩

/-- A MIPS IV instruction stands behind their gate, within that of coprocessor 1 if it is of it (R239). -/
theorem exec_of_isMips4 {i : Instr} (s : State) (h : isMips4 i = true) : ∃ k, exec i s = finish (copGates i s (needMips4 s k)) := by
  cases i
  all_goals first | exact (Bool.false_ne_true h).elim | exact ⟨_, rfl⟩ | exact needCp1_needCc h

theorem usesCop0_of_isMips4 {i : Instr} (h : isMips4 i = true) : usesCop0 i = false := by
  cases i
  all_goals first | exact (Bool.false_ne_true h).elim | exact rfl

/-- Settles O43: behind the gates of its coprocessor, a gate that is shut gives Reserved Instruction. -/
theorem instructionSetGates : Obligations.InstructionSetGates := by
  refine ⟨fun i s hi h0 h1 hoff => ?_, fun i s hi h1 hoff => ?_⟩
  · obtain ⟨k, hk⟩ := exec_of_isWide s hi
    rw [hk, copGates_ok h0 h1, need64_not hoff, finish_exc]
  · obtain ⟨k, hk⟩ := exec_of_isMips4 s hi
    rw [hk, copGates_ok (fun h => absurd h (by simp [usesCop0_of_isMips4 hi])) h1, needMips4_not (Bool.eq_false_iff.2 hoff), finish_exc]

end Sys2Proof.Machine
end

section
/-! SUPPORT. The part of the state that only coprocessor 0 and exceptions change; the shared forms keep it (O45). -/

namespace Sys2Proof.Machine

-- One thread, as in Sys2Proof/Tests: the whole text stays within the check's memory limit.
set_option Elab.async false

/-! ## The system part of the state -/

/-- The type of the system part: CP0, the TLB, the boot mode, Standby, the timer latch, the Interrupt register, and whether an exception
was entered. -/
abbrev SystemPart : Type := Cp0 × Vector TlbEntry 48 × BootMode × Bool × Bool × BitVec 7 × Bool

/-- The system part of the state; LLAddr is left out. -/
def systemPart (s : State) : SystemPart :=
  ({ s.cp0 with llAddr := 0 }, s.tlb, s.boot, s.standby, s.timerInt, s.intReg, s.entered)

theorem systemPart_eq_iff {s t : State} :
    systemPart t = systemPart s ↔ t.cp0 = { s.cp0 with llAddr := t.cp0.llAddr } ∧ t.tlb = s.tlb ∧ t.boot = s.boot ∧
      t.standby = s.standby ∧ t.timerInt = s.timerInt ∧ t.intReg = s.intReg ∧ t.entered = s.entered := by
  have hcp0 : ({ t.cp0 with llAddr := 0 } : Cp0) = { s.cp0 with llAddr := 0 } ↔ t.cp0 = { s.cp0 with llAddr := t.cp0.llAddr } :=
    ⟨fun h => by rw [show t.cp0 = { ({ t.cp0 with llAddr := 0 } : Cp0) with llAddr := t.cp0.llAddr } from rfl, h], fun h => by rw [h]⟩
  simp only [systemPart, Prod.mk.injEq, hcp0]

/-- The state has the system part `σ` of the state before. -/
def SystemIs (σ : SystemPart) (s : State) : Prop := systemPart s = σ

variable {σ : SystemPart}

/-- The memory side is no part of it. -/
theorem SystemIs.memorySide {s t : State} (h : SystemIs σ s) (m : MemorySide s t) : SystemIs σ t := by
  unfold MemorySide at m; rw [m]; exact h

theorem SystemIs.addBus {s : State} (h : SystemIs σ s) (q : BusRequest) : SystemIs σ (s.addBus q) := h
theorem SystemIs.putSLine {s : State} (h : SystemIs σ s) (i : Nat) (l : SLine) : SystemIs σ (s.putSLine i l) := h

theorem SystemIs.outsideOnly {s t : State} (h : SystemIs σ s) (m : OutsideOnly s t) : SystemIs σ t := h.memorySide m.memorySide

theorem SystemIs.ite {c : Prop} [Decidable c] {t u : State} (ht : SystemIs σ t) (hu : SystemIs σ u) : SystemIs σ (if c then t else u) := by
  split
  · exact ht
  · exact hu

section
variable {s : State} (h : SystemIs σ s)
include h

/-! ### Memory and the data cache -/

theorem system_writeGpr (r : RegNum) (v : Dword) : SystemIs σ (s.writeGpr r v) := SystemIs.ite h h

theorem system_beforeRead : SystemIs σ (beforeRead s) := h.outsideOnly (outsideOnly_drainAll s)

theorem system_readUncached (cp : Cp0) (fetch : Bool) (r : ReadResponse) (pa : PAddr) (vi : BitVec 2) (n size : Nat)
    (checked : BitVec 32) : Res.All (SystemIs σ) (readUncached cp fetch r pa vi n size checked s) := by
  have hread : ∀ q, SystemIs σ ((beforeRead s).addBus q) := fun q => (system_beforeRead h).addBus q
  unfold readUncached
  dsimp only
  split
  · trivial
  · split <;> exact hread _

theorem system_readBlock (cp : Cp0) (fetch : Bool) (r : ReadResponse) (pa : PAddr) (c : BitVec 3) (vi : BitVec 2) (ret : Bool) :
    Res.All (SystemIs σ) (readBlock cp fetch r pa c vi ret s) := by
  have hread : ∀ q, SystemIs σ ((beforeRead s).addBus q) := fun q => (system_beforeRead h).addBus q
  have hline : ∀ q i l, SystemIs σ (((beforeRead s).addBus q).putSLine i l) := fun q i l => (hread q).putSLine i l
  have hfill : ∀ (d : Bool) q i l, SystemIs σ (if d then ((beforeRead s).addBus q).putSLine i l else (beforeRead s).addBus q) :=
    fun _ q i l => SystemIs.ite (hline q i l) (hread q)
  unfold readBlock
  dsimp only
  split
  · split
    · exact hline _ _ _
    · exact hread _
  · split
    · trivial
    · split <;> exact hfill _ _ _ _

theorem system_writeOut (l : DLine) (i : Nat) (vi : BitVec 2) : SystemIs σ (writeOut l i vi s) :=
  h.outsideOnly (outsideOnly_writeOut l i vi s)

theorem system_replaceD (cp : Cp0) (i : Nat) (vi : BitVec 2) (l : DLine) : Res.All (SystemIs σ) (replaceD cp i vi l s) := by
  have hput : ∀ d, SystemIs σ (s.putDSet i d) := fun _ => h
  unfold replaceD
  dsimp only
  split
  · exact system_writeOut (hput _) _ _ _
  · exact (system_writeOut (hput _) _ _ _).memorySide (memorySide_lineGone _ _ _)

theorem system_refillD (cp : Cp0) (va : Dword) (pa : PAddr) (c : BitVec 3) : Res.All (SystemIs σ) (refillD cp va pa c s) := by
  unfold refillD
  dsimp only
  refine Res.all_bind (system_readBlock h _ _ _ _ _ _ _) fun a t ht => ?_
  have hput : ∀ i d, SystemIs σ (t.putDSet i d) := fun _ _ => ht
  cases a with
  | error e => exact system_writeOut (hput _ _) _ _ _
  | ok p => exact system_replaceD ht _ _ _ _

theorem system_loadPhys (va : Dword) (n : Nat) (pa : PAddr) (c : BitVec 3) : Res.All (SystemIs σ) (loadPhys va n pa c s) := by
  have hcached : ∀ cp, Res.All (SystemIs σ) (loadCached cp va pa c n s) := by
    intro cp
    unfold loadCached
    dsimp only
    split
    · exact h
    · split
      · split <;> exact h
      · exact Res.all_bind (system_refillD h _ _ _ _) fun _ _ ht => ht
  unfold loadPhys
  exact all_ite (system_readUncached h _ _ _ _ _ _ _ _) (hcached _)

theorem system_pushSingle (pa : PAddr) (vi : BitVec 2) (bs : List Byte) : SystemIs σ (pushSingle pa vi bs s) :=
  h.memorySide (memorySide_pushSingle pa vi bs s)

theorem system_storeCached (cp : Cp0) (va : Dword) (pa : PAddr) (c : BitVec 3) (bs : List Byte) :
    Res.All (SystemIs σ) (storeCached cp va pa c bs s) := by
  have through : ∀ t, SystemIs σ t → SystemIs σ (if c == 3 then t else pushSingle pa (va.extractLsb' 12 2) bs t) :=
    fun t ht => SystemIs.ite ht (system_pushSingle ht _ _ _)
  have inLine : ∀ t, SystemIs σ t → ∀ i way o dirty, SystemIs σ (storeInLine cp i way o dirty bs t) := fun _ ht _ _ _ _ => ht
  unfold storeCached
  dsimp only
  split
  · exact h
  · split
    · exact through _ (inLine _ h _ _ _ _)
    · split
      · exact through _ h
      · exact Res.all_bind (system_refillD h _ _ _ _) fun _ _ ht => through _ (inLine _ ht _ _ _ _)

theorem system_storePhys (va : Dword) (pa : PAddr) (c : BitVec 3) (bs : List Byte) :
    Res.All (SystemIs σ) (storePhys va pa c bs s) := by
  unfold storePhys
  exact Res.all_bind (all_ite (system_pushSingle h _ _ _) (system_storeCached h _ _ _ _ _)) fun _ _ ht => ht

theorem system_loadValue (va : Dword) (n : Nat) : Res.All (SystemIs σ) (loadValue va n s) :=
  Look.all_on h fun _ => Res.all_bind (system_loadPhys h _ _ _ _) fun _ _ ht => ht

theorem system_storeValue (va : Dword) (n : Nat) (v : Dword) : Res.All (SystemIs σ) (storeValue va n v s) :=
  Look.all_on h fun _ => system_storePhys h _ _ _ _

/-! ### Integer forms -/

theorem system_write32 (rd : RegNum) (proper : Bool) (w : Word) : Res.All (SystemIs σ) (write32 rd proper w s) := system_writeGpr h _ _

theorem system_alu64 (rd : RegNum) (v : Dword) : Res.All (SystemIs σ) (alu64 rd v s) := system_writeGpr h _ _

theorem system_setHi (v : Dword) : SystemIs σ (s.setHi v) := h
theorem system_setLo (v : Dword) : SystemIs σ (s.setLo v) := h

theorem system_trapping32 (proper overflow : Bool) (w : Word) (rd : RegNum) :
    Res.All (SystemIs σ) (trapping32 proper overflow w rd s) :=
  all_ite (all_ite h (system_writeGpr h _ _)) (all_ite h (system_writeGpr h _ _))

theorem system_trapping64 (overflow : Bool) (v : Dword) (rd : RegNum) : Res.All (SystemIs σ) (trapping64 overflow v rd s) :=
  all_ite h (system_writeGpr h _ _)

theorem system_moveIf (c : Bool) (rd rs : RegNum) : Res.All (SystemIs σ) (moveIf c rd rs s) := SystemIs.ite (system_writeGpr h _ _) h

theorem system_branchLink (c : Bool) (rs : RegNum) (o : BitVec 16) : Res.All (SystemIs σ) (branchLink c rs o s) :=
  all_notInSlot (all_ite trivial (system_writeGpr h _ _))
theorem system_branchLinkLikely (c : Bool) (rs : RegNum) (o : BitVec 16) : Res.All (SystemIs σ) (branchLinkLikely c rs o s) :=
  all_notInSlot (all_ite trivial (system_writeGpr h _ _))

/-! ### Loads and stores -/

theorem system_loadGpr (n : Nat) (ext : Dword → Dword) (rt : RegNum) (va : Dword) : Res.All (SystemIs σ) (loadGpr n ext rt va s) :=
  all_needAligned h (Res.all_bind (system_loadValue h _ _) fun _ _ ht => system_writeGpr ht _ _)

theorem system_storeBytes (n : Nat) (v va : Dword) : Res.All (SystemIs σ) (storeBytes n v va s) :=
  all_needAligned h (Res.all_bind (system_storeValue h _ _ _) fun _ _ ht => ht)

theorem system_loadPart (left : Bool) (size : Nat) (ext : Dword → Dword) (rt : RegNum) (va : Dword) :
    Res.All (SystemIs σ) (loadPart left size ext rt va s) :=
  Look.all_on h fun _ => Res.all_bind (system_loadPhys h _ _ _ _) fun _ _ ht => system_writeGpr ht _ _

theorem system_storePart (left : Bool) (size : Nat) (rt : RegNum) (va : Dword) : Res.All (SystemIs σ) (storePart left size rt va s) :=
  Look.all_on h fun _ => Res.all_bind (system_storePhys h _ _ _ _) fun _ _ ht => ht

/-- LL and LLD write LLAddr, the one CP0 register that is no part of it. -/
theorem system_loadLinked (n : Nat) (ext : Dword → Dword) (rt : RegNum) (va : Dword) :
    Res.All (SystemIs σ) (loadLinked n ext rt va s) := by
  have link : ∀ t pa a, SystemIs σ t → SystemIs σ ((t.setLink pa).setCp0 { (t.setLink pa).cp0 with llAddr := a }) := fun _ _ _ ht => ht
  exact all_needAligned h (Look.all_on h fun _ => all_ite trivial
    (Res.all_bind (system_loadPhys h _ _ _ _) fun _ _ ht => link _ _ _ (system_writeGpr ht _ _)))

theorem system_storeConditional (n : Nat) (rt : RegNum) (va : Dword) : Res.All (SystemIs σ) (storeConditional n rt va s) :=
  all_needAligned h (Look.all_on h fun _ => all_ite trivial (all_ite trivial (all_ite (system_writeGpr h _ _)
    (Res.all_bind (system_storePhys h _ _ _ _) fun _ _ ht => system_writeGpr ht _ _))))

/-! ### Floating point -/

theorem system_writeFpr (f : Fmt) (n : RegNum) (v : Dword) : SystemIs σ (writeFpr f n v s) := by
  cases f with
  | S => exact h
  | D => exact SystemIs.ite h h

theorem system_loadFpr (f : Fmt) (n : RegNum) (va : Dword) : Res.All (SystemIs σ) (loadFpr f n va s) := by
  have load : ∀ g m, Res.All (SystemIs σ) (needAligned m false va s (Res.bind (loadValue va m s) fun v t => goOn (writeFpr g n v t))) :=
    fun _ _ => all_needAligned h (Res.all_bind (system_loadValue h _ _) fun _ _ ht => system_writeFpr ht _ _ _)
  cases f with
  | S => exact load .S 4
  | D => exact all_evenFprs (load .D 8)

theorem system_storeFpr (f : Fmt) (n : RegNum) (va : Dword) : Res.All (SystemIs σ) (storeFpr f n va s) := by
  cases f with
  | S => exact system_storeBytes h _ _ _
  | D => exact all_evenFprs (system_storeBytes h _ _ _)

theorem system_indexed (store : Bool) (base index : RegNum) {k : Dword → Res Flow} (hk : ∀ va, Res.All (SystemIs σ) (k va)) :
    Res.All (SystemIs σ) (indexed store base index s k) := all_needCp1 h (all_needMips4 h (all_needRegion h (hk _)))

theorem system_fpComplete (busy : Bool) (x : BitVec 6) {k : State → State} (hk : ∀ t, SystemIs σ t → SystemIs σ (k t)) :
    Res.All (SystemIs σ) (fpComplete busy x k s) := all_ite h (hk _ h)

theorem system_fpOne (g f : Fmt) (busy : Bool) (fd fs : RegNum) (op : Dword → FpOut) :
    Res.All (SystemIs σ) (fpOne g f busy fd fs op s) :=
  all_evenFprs (system_fpComplete h _ _ fun _ ht => system_writeFpr ht _ _ _)

theorem system_fpTwo (f : Fmt) (fd fs ft : RegNum) (op : Fcr31 → Dword → Dword → FpOut) :
    Res.All (SystemIs σ) (fpTwo f fd fs ft op s) :=
  all_evenFprs (system_fpComplete h _ _ fun _ ht => system_writeFpr ht _ _ _)

theorem system_fpApprox (f : Fmt) (fd fs : RegNum) (op : Fcr31 → Dword → Nat → Bool → FpOut) :
    Res.All (SystemIs σ) (fpApprox f fd fs op s) := by
  have hdrawn : SystemIs σ (s.drawn 2) := h
  exact all_evenFprs (system_fpComplete hdrawn _ _ fun _ ht => system_writeFpr ht _ _ _)

theorem system_fpThree (f : Fmt) (sub neg : Bool) (fd fr fs ft : RegNum) : Res.All (SystemIs σ) (fpThree f sub neg fd fr fs ft s) :=
  all_evenFprs (system_fpComplete h _ _ fun _ ht => system_writeFpr ht _ _ _)

theorem system_fpCompare (f : Fmt) (cond : BitVec 4) (cc : BitVec 3) (fs ft : RegNum) :
    Res.All (SystemIs σ) (fpCompare f cond cc fs ft s) :=
  all_needCp1 h (all_needCc h (all_evenFprs (system_fpComplete h _ _ fun _ ht => ht)))

theorem system_fpBranch (likely test : Bool) (cc : BitVec 3) (o : BitVec 16) : Res.All (SystemIs σ) (fpBranch likely test cc o s) :=
  all_needCp1 h (all_needCc h (all_notInSlot h))

theorem system_moveFpr (f : Fmt) (c : Bool) (fd fs : RegNum) : Res.All (SystemIs σ) (moveFpr f c fd fs s) :=
  all_evenFprs (SystemIs.ite (system_writeFpr h _ _ _) h)

end

/-! ### Every instruction -/

theorem systemPart_advance (f : Flow) (s : State) : systemPart (advance f s) = systemPart s := by
  simp only [systemPart, advance_cp0, advance_tlb, advance_boot, advance_standby, advance_timerInt, advance_intReg, advance_entered]

/-- If a meaning goes on, the system part is as before, or an exception is taken in a state that has it as before. -/
def SystemOrException (s : State) (r : Result) : Prop :=
  ∀ t, r = .next t → systemPart t = systemPart s ∨ ∃ e u, systemPart u = systemPart s ∧ t = takeException e u

theorem SystemOrException.finish {s : State} {r : Res Flow} (h : Res.All (SystemIs (systemPart s)) r) :
    SystemOrException s (Machine.finish r) := by
  rintro t ht
  rcases finish_eq_next ht with ⟨f, u, rfl, rfl⟩ | ⟨e, u, rfl, rfl⟩
  · exact .inl ((systemPart_advance f u).trans h)
  · exact .inr ⟨e, u, h, rfl⟩

/-- No instruction outside coprocessor 0 changes the system part but by taking an exception, form by form. -/
theorem system_exec {i : Instr} (hi : usesCop0 i = false) (s : State) : SystemOrException s (exec i s) := by
  have h : SystemIs (systemPart s) s := rfl
  cases i with
  | lb | lbu | lh | lhu | lw => exact .finish (system_loadGpr h _ _ _ _)
  | lwu | ld => exact .finish (all_need64 h (system_loadGpr h _ _ _ _))
  | sb | sh | sw => exact .finish (system_storeBytes h _ _ _)
  | sd => exact .finish (all_need64 h (system_storeBytes h _ _ _))
  | lwl | lwr => exact .finish (system_loadPart h _ _ _ _ _)
  | ldl | ldr => exact .finish (all_need64 h (system_loadPart h _ _ _ _ _))
  | swl | swr => exact .finish (system_storePart h _ _ _ _)
  | sdl | sdr => exact .finish (all_need64 h (system_storePart h _ _ _ _))
  | ll => exact .finish (system_loadLinked h _ _ _ _)
  | lld => exact .finish (all_need64 h (system_loadLinked h _ _ _ _))
  | sc => exact .finish (system_storeConditional h _ _ _)
  | scd => exact .finish (all_need64 h (system_storeConditional h _ _ _))
  | pref => exact .finish (all_needMips4 h h)
  | addi | add | sub => exact .finish (system_trapping32 h _ _ _ _)
  | daddi | dadd | dsub => exact .finish (all_need64 h (system_trapping64 h _ _ _))
  | addiu | addu | subu | sll | srl | sra | sllv | srlv | srav => exact .finish (system_write32 h _ _ _)
  | slti | sltiu | andi | ori | xori | lui | and | or | xor | nor | slt | sltu => exact .finish (system_alu64 h _ _)
  | daddiu | daddu | dsubu | dsll | dsrl | dsra | dsll32 | dsrl32 | dsra32 | dsllv | dsrlv | dsrav =>
    exact .finish (all_need64 h (system_alu64 h _ _))
  | mult | multu | div | divu => exact .finish (all_ite h h)
  | dmult | dmultu => exact .finish (all_need64 h h)
  | ddiv | ddivu => exact .finish (all_need64 h (all_ite h h))
  | mfhi | mflo => exact .finish (all_goOn.2 (system_writeGpr h _ _))
  | mthi => exact .finish (all_goOn.2 (system_setHi h _))
  | mtlo => exact .finish (all_goOn.2 (system_setLo h _))
  | movn | movz => exact .finish (all_needMips4 h (system_moveIf h _ _ _))
  | movf | movt => exact .finish (all_needCp1 h (all_needMips4 h (system_moveIf h _ _ _)))
  | j | jr => exact .finish (all_notInSlot h)
  | jal => exact .finish (all_notInSlot (system_writeGpr h _ _))
  | jalr => exact .finish (all_notInSlot (all_ite trivial (system_writeGpr h _ _)))
  | beq | bne | blez | bgtz | bltz | bgez => exact .finish (all_notInSlot h)
  | beql | bnel | blezl | bgtzl | bltzl | bgezl => exact .finish (all_notInSlot h)
  | bltzal | bgezal => exact .finish (system_branchLink h _ _ _)
  | bltzall | bgezall => exact .finish (system_branchLinkLikely h _ _ _)
  | tge | tgeu | tlt | tltu | teq | tne | tgei | tgeiu | tlti | tltiu | teqi | tnei => exact .finish (all_ite h h)
  | lwc1 | ldc1 => exact .finish (all_needCp1 h (system_loadFpr h _ _ _))
  | swc1 | sdc1 => exact .finish (all_needCp1 h (system_storeFpr h _ _ _))
  | lwxc1 | ldxc1 => exact .finish (system_indexed h _ _ _ fun _ => system_loadFpr h _ _ _)
  | swxc1 | sdxc1 => exact .finish (system_indexed h _ _ _ fun _ => system_storeFpr h _ _ _)
  | mfc1 => exact .finish (all_needCp1 h (system_writeGpr h _ _))
  | mtc1 => exact .finish (all_needCp1 h h)
  | dmfc1 => exact .finish (all_needCp1 h (all_need64 h (all_evenFprs (system_writeGpr h _ _))))
  | dmtc1 => exact .finish (all_needCp1 h (all_need64 h (all_evenFprs (system_writeFpr h .D _ _))))
  | cfc1 => exact .finish (all_needCp1 h (all_ite (system_writeGpr h _ _) (all_ite (system_writeGpr h _ _) trivial)))
  | ctc1 => exact .finish (all_needCp1 h (all_ite (all_ite h h) (all_ite h trivial)))
  | movS | movD => exact .finish (all_needCp1 h (system_moveFpr h _ _ _ _))
  | movfS | movtS | movzS | movnS | movfD | movtD | movzD | movnD =>
    exact .finish (all_needCp1 h (all_needMips4 h (system_moveFpr h _ _ _ _)))
  | addS | addD | subS | subD | mulS | mulD | divS | divD => exact .finish (all_needCp1 h (system_fpTwo h _ _ _ _ _))
  | sqrtS | sqrtD | absS | absD | negS | negD | roundWS | roundWD | truncWS | truncWD | ceilWS | ceilWD | floorWS | floorWD | cvtWS
  | cvtWD | roundLS | roundLD | truncLS | truncLD | ceilLS | ceilLD | floorLS | floorLD | cvtLS | cvtLD | cvtSD | cvtSW | cvtSL
  | cvtDS | cvtDW | cvtDL => exact .finish (all_needCp1 h (system_fpOne h _ _ _ _ _ _))
  | recipS | recipD | rsqrtS | rsqrtD => exact .finish (all_needCp1 h (all_needMips4 h (system_fpApprox h _ _ _ _)))
  | maddS | maddD | msubS | msubD | nmaddS | nmaddD | nmsubS | nmsubD =>
    exact .finish (all_needCp1 h (all_needMips4 h (system_fpThree h _ _ _ _ _ _ _)))
  | cFS | cFD | cUnS | cUnD | cEqS | cEqD | cUeqS | cUeqD | cOltS | cOltD | cUltS | cUltD | cOleS | cOleD | cUleS | cUleD | cSfS
  | cSfD | cNgleS | cNgleD | cSeqS | cSeqD | cNglS | cNglD | cLtS | cLtD | cNgeS | cNgeD | cLeS | cLeD | cNgtS | cNgtD =>
    exact .finish (system_fpCompare h _ _ _ _ _)
  | bc1f | bc1t | bc1fl | bc1tl => exact .finish (system_fpBranch h _ _ _ _)
  | syscall | brk => exact .finish (Res.all_exc.2 h)
  | sync => exact .finish (all_goOn.2 (h.outsideOnly (outsideOnly_drainAll s)))
  | prefx => exact .finish (all_needCp1 h (all_needMips4 h h))
  | _ => cases hi

/-- Every exception enters Kernel mode: Status.EXL is set, or Status.ERL by Cache Error (R820). -/
theorem modeOf_takeException (e : Exc) (s : State) : modeOf (takeException e s).cp0.status = .kernel := by
  cases e with
  | cacheError => exact if_pos (by simp [takeException, enter, entryCp0, cacheErrorCp0])
  | _ => exact if_pos rfl

theorem takeException_entered (e : Exc) (s : State) : (takeException e s).entered = true := rfl

/-- Settles O45: an instruction of coprocessor 0 takes Coprocessor Unusable, by O42; any other keeps the system part or takes an exception. -/
theorem unprivilegedCannotChangeSystem : Obligations.UnprivilegedCannotChangeSystem := by
  intro i s t hc he ht
  have key : SystemOrException s (exec i s) := by
    cases hi : usesCop0 i with
    | true =>
      rintro t ht
      rw [coprocessorUnusable.1 i s hi hc] at ht
      cases ht
      exact .inr ⟨_, s, rfl, rfl⟩
    | false => exact system_exec hi s
  rcases key t ht with hsame | ⟨e, u, hu, rfl⟩
  · obtain ⟨hcp0, htlb, hboot, hstandby, htimer, hint, hentered⟩ := systemPart_eq_iff.1 hsame
    refine ⟨fun _ => ⟨hcp0, htlb, hboot, hstandby, htimer, hint⟩, fun h => ?_⟩
    rw [hentered, he] at h; cases h
  · obtain ⟨-, htlb, hboot, hstandby, -⟩ := systemPart_eq_iff.1 hu
    refine ⟨fun h => absurd (takeException_entered e u) (by simp [h]), fun _ => ?_⟩
    exact ⟨modeOf_takeException e u, by simpa using htlb, by simpa using hboot, by simpa using hstandby⟩

end Sys2Proof.Machine
end

section
/-! SUPPORT. The words that are no instruction, and the step that comes to one (O48). -/

namespace Sys2Proof

-- One thread, as in Sys2Proof/Tests: the whole text stays within the check's memory limit.
set_option Elab.async false

/-! ## Which words have no instruction, class by class (spec/30_encoding.md R234, R235, R238) -/

/-- The error of a word that is no instruction; a word with a field that must be zero and is not counts as one. -/
def undefinedAs : Except DecodeError Instr → Option DecodeError
  | .error (.mustBeZero _) => none
  | .error e => some e
  | .ok _ => none

@[simp] theorem undefinedAs_ok (i : Instr) : undefinedAs (.ok i) = none := rfl
@[simp] theorem undefinedAs_mustBeZero (u : CopClass) (z : Bool) (i : Instr) : undefinedAs (mustBeZero u z i) = none := by
  cases z <;> rfl

theorem eq_error_iff {r : Except DecodeError Instr} {e : DecodeError} (he : ∀ u, e ≠ .mustBeZero u) :
    r = .error e ↔ undefinedAs r = some e := by
  refine ⟨?_, fun h => ?_⟩
  · rintro rfl
    cases e with
    | mustBeZero u => exact absurd rfl (he u)
    | _ => rfl
  · cases r with
    | ok i => cases h
    | error f => cases f with
      | mustBeZero u => cases h
      | _ => cases h; rfl

/-! Each class by its selector alone: what the other fields hold decides no more than the instruction's operands. -/

theorem undefinedAs_special (w : Word) : undefinedAs (decodeSpecial w) =
    if (fnOf w).toNat ∈ [5, 14, 21, 40, 41, 53, 55, 57, 61] then some .reserved else none := by
  simp only [decodeSpecial, apply_ite undefinedAs, undefinedAs_ok, undefinedAs_mustBeZero, ite_self]
  generalize fnOf w = fn
  revert fn
  decide +kernel

theorem undefinedAs_regimm (w : Word) : undefinedAs (decodeRegimm w) =
    if (rtOf w).toNat ∈ [4, 5, 6, 7, 13, 15] ∨ 20 ≤ (rtOf w).toNat then some .reserved else none := by
  simp only [decodeRegimm, apply_ite undefinedAs, undefinedAs_ok]
  generalize rtOf w = rt
  revert rt
  decide +kernel

theorem undefinedAs_cop0 (w : Word) : undefinedAs (decodeCop0 w) =
    if (rsOf w).toNat < 16 ∧ (rsOf w).toNat ∉ [0, 1, 4, 5] ∨ 16 ≤ (rsOf w).toNat ∧ (fnOf w).toNat ∉ [1, 2, 6, 8, 24, 32]
      then some .cop0Undefined else none := by
  simp only [decodeCop0, apply_ite undefinedAs, undefinedAs_mustBeZero, decodeCop0Operation]
  generalize rsOf w = rs
  generalize fnOf w = fn
  revert rs fn
  decide +kernel

theorem undefinedAs_cop1S (w : Word) : undefinedAs (decodeCop1S w) =
    if (fnOf w).toNat ∈ [16, 20, 32, 34, 35] ∨ 23 ≤ (fnOf w).toNat ∧ (fnOf w).toNat ≤ 31 ∨ 38 ≤ (fnOf w).toNat ∧ (fnOf w).toNat ≤ 47
      then some .cop1Undefined else none := by
  simp only [decodeCop1S, apply_ite undefinedAs, undefinedAs_ok, undefinedAs_mustBeZero, ite_self]
  generalize fnOf w = fn
  revert fn
  decide +kernel

theorem undefinedAs_cop1D (w : Word) : undefinedAs (decodeCop1D w) =
    if (fnOf w).toNat ∈ [16, 20, 33, 34, 35] ∨ 23 ≤ (fnOf w).toNat ∧ (fnOf w).toNat ≤ 31 ∨ 38 ≤ (fnOf w).toNat ∧ (fnOf w).toNat ≤ 47
      then some .cop1Undefined else none := by
  simp only [decodeCop1D, apply_ite undefinedAs, undefinedAs_ok, undefinedAs_mustBeZero, ite_self]
  generalize fnOf w = fn
  revert fn
  decide +kernel

theorem undefinedAs_cop1W (w : Word) : undefinedAs (decodeCop1W w) =
    if (fnOf w).toNat ∉ [32, 33] then some .cop1Undefined else none := by
  simp only [decodeCop1W, apply_ite undefinedAs, undefinedAs_mustBeZero]
  generalize fnOf w = fn
  revert fn
  decide +kernel

theorem undefinedAs_cop1L (w : Word) : undefinedAs (decodeCop1L w) =
    if (fnOf w).toNat ∉ [32, 33] then some .cop1Undefined else none := by
  simp only [decodeCop1L, apply_ite undefinedAs, undefinedAs_mustBeZero]
  generalize fnOf w = fn
  revert fn
  decide +kernel

theorem undefinedAs_bc1 (w : Word) : undefinedAs (decodeBc1 w) = none := by
  simp only [decodeBc1, apply_ite undefinedAs, undefinedAs_ok, ite_self]

theorem undefinedAs_cop1 (w : Word) : undefinedAs (decodeCop1 w) =
    if (rsOf w).toNat ∈ [3, 7, 18, 19] ∨ 9 ≤ (rsOf w).toNat ∧ (rsOf w).toNat ≤ 15 ∨ 22 ≤ (rsOf w).toNat ∨
        (rsOf w).toNat ∈ [20, 21] ∧ (fnOf w).toNat ∉ [32, 33] ∨ (rsOf w).toNat = 16 ∧ (fnOf w).toNat = 32 ∨
        (rsOf w).toNat = 17 ∧ (fnOf w).toNat = 33 ∨ (rsOf w).toNat ∈ [16, 17] ∧ ((fnOf w).toNat ∈ [16, 20, 34, 35] ∨
          23 ≤ (fnOf w).toNat ∧ (fnOf w).toNat ≤ 31 ∨ 38 ≤ (fnOf w).toNat ∧ (fnOf w).toNat ≤ 47)
      then some .cop1Undefined else none := by
  simp only [decodeCop1, apply_ite undefinedAs, undefinedAs_mustBeZero,
    undefinedAs_bc1, undefinedAs_cop1S, undefinedAs_cop1D, undefinedAs_cop1W, undefinedAs_cop1L]
  generalize rsOf w = rs
  generalize fnOf w = fn
  revert rs fn
  decide +kernel

theorem undefinedAs_cop1x (w : Word) : undefinedAs (decodeCop1x w) =
    if (fnOf w).toNat ∉ [0, 1, 8, 9, 15, 32, 33, 40, 41, 48, 49, 56, 57] then some .cop1Undefined else none := by
  simp only [decodeCop1x, apply_ite undefinedAs, undefinedAs_ok, undefinedAs_mustBeZero]
  generalize fnOf w = fn
  revert fn
  decide +kernel

theorem undefinedAs_cache (w : Word) : undefinedAs (decodeCache w) =
    if (rtOf w).toNat ∈ [2, 6, 10, 12, 14, 15, 18, 19, 22, 29] ∨ 26 ≤ (rtOf w).toNat then some .cacheUndefined else none := by
  simp only [decodeCache, apply_ite undefinedAs, undefinedAs_ok]
  generalize rtOf w = rt
  revert rt
  decide +kernel

/-- An opcode that is no class of its own (R227): undefined, of coprocessor 2, or an instruction. -/
theorem undefinedAs_of_no_class {w : Word} (h0 : opOf w ≠ 0#6) (h1 : opOf w ≠ 1#6) (h16 : opOf w ≠ 16#6) (h17 : opOf w ≠ 17#6)
    (h19 : opOf w ≠ 19#6) (h47 : opOf w ≠ 47#6) : undefinedAs (decodeWord w) =
    if (opOf w).toNat ∈ [28, 29, 30, 31, 59] then some .reserved
    else if (opOf w).toNat ∈ [18, 50, 54, 58, 62] then some .cop2 else none := by
  simp only [decodeWord, h0, h1, h16, h17, h19, h47, if_false, apply_ite undefinedAs, undefinedAs_ok, undefinedAs_mustBeZero]
  generalize opOf w = op at *
  revert op
  decide +kernel

/-! The fields as numbers. -/

theorem opOf_toNat (w : Word) : w.toNat / 2 ^ 26 = (opOf w).toNat := by
  have hw := w.isLt
  simp [opOf, Nat.shiftRight_eq_div_pow]
  omega
theorem rsOf_toNat (w : Word) : w.toNat / 2 ^ 21 % 32 = (rsOf w).toNat := by
  simp [rsOf, Nat.shiftRight_eq_div_pow]
theorem rtOf_toNat (w : Word) : w.toNat / 2 ^ 16 % 32 = (rtOf w).toNat := by
  simp [rtOf, Nat.shiftRight_eq_div_pow]
theorem fnOf_toNat (w : Word) : w.toNat % 64 = (fnOf w).toNat := by
  simp [fnOf]

/-- The words that are no instruction, for each error, by opcode and fields: in each class its own table answers. -/
theorem decodeWord_eq_error (w : Word) (op rs rt fn : Nat) (hop : op = (opOf w).toNat) (hrs : rs = (rsOf w).toNat)
    (hrt : rt = (rtOf w).toNat) (hfn : fn = (fnOf w).toNat) :
    (op ∈ [28, 29, 30, 31, 59] ∨ op = 0 ∧ fn ∈ [5, 14, 21, 40, 41, 53, 55, 57, 61] ∨
      op = 1 ∧ (rt ∈ [4, 5, 6, 7, 13, 15] ∨ 20 ≤ rt) ↔ decodeWord w = .error .reserved) ∧
    (op = 16 ∧ (rs < 16 ∧ rs ∉ [0, 1, 4, 5] ∨ 16 ≤ rs ∧ fn ∉ [1, 2, 6, 8, 24, 32]) ↔ decodeWord w = .error .cop0Undefined) ∧
    (op = 17 ∧ (rs ∈ [3, 7, 18, 19] ∨ 9 ≤ rs ∧ rs ≤ 15 ∨ 22 ≤ rs ∨ rs ∈ [20, 21] ∧ fn ∉ [32, 33] ∨ rs = 16 ∧ fn = 32 ∨ rs = 17 ∧ fn = 33 ∨
        rs ∈ [16, 17] ∧ (fn ∈ [16, 20, 34, 35] ∨ 23 ≤ fn ∧ fn ≤ 31 ∨ 38 ≤ fn ∧ fn ≤ 47)) ∨
      op = 19 ∧ fn ∉ [0, 1, 8, 9, 15, 32, 33, 40, 41, 48, 49, 56, 57] ↔ decodeWord w = .error .cop1Undefined) ∧
    (op ∈ [18, 50, 54, 58, 62] ↔ decodeWord w = .error .cop2) ∧
    (op = 47 ∧ (rt ∈ [2, 6, 10, 12, 14, 15, 18, 19, 22, 29] ∨ 26 ≤ rt) ↔ decodeWord w = .error .cacheUndefined) := by
  rw [eq_error_iff (e := .reserved) nofun, eq_error_iff (e := .cop0Undefined) nofun, eq_error_iff (e := .cop1Undefined) nofun,
    eq_error_iff (e := .cop2) nofun, eq_error_iff (e := .cacheUndefined) nofun]
  by_cases h0 : opOf w = 0#6
  · rw [decodeWord_special h0, undefinedAs_special, ← hfn]
    simp only [Option.ite_none_right_eq_some]
    simp [hop, h0]
  by_cases h1 : opOf w = 1#6
  · rw [decodeWord_regimm h1, undefinedAs_regimm, ← hrt]
    simp only [Option.ite_none_right_eq_some]
    simp [hop, h1]
  by_cases h16 : opOf w = 16#6
  · rw [decodeWord_cop0 h16, undefinedAs_cop0, ← hrs, ← hfn]
    simp only [Option.ite_none_right_eq_some]
    simp [hop, h16]
  by_cases h17 : opOf w = 17#6
  · rw [decodeWord_cop1 h17, undefinedAs_cop1, ← hrs, ← hfn]
    simp only [Option.ite_none_right_eq_some]
    simp [hop, h17]
  by_cases h19 : opOf w = 19#6
  · rw [decodeWord_cop1x h19, undefinedAs_cop1x, ← hfn]
    simp only [Option.ite_none_right_eq_some]
    simp [hop, h19]
  by_cases h47 : opOf w = 47#6
  · rw [decodeWord_cache h47, undefinedAs_cache, ← hrt]
    simp only [Option.ite_none_right_eq_some]
    simp [hop, h47]
  have hne : ∀ {n : BitVec 6}, opOf w ≠ n → op ≠ n.toNat := fun h e => h (BitVec.eq_of_toNat_eq (hop.symm.trans e))
  have hclass : op ≠ 0 ∧ op ≠ 1 ∧ op ≠ 16 ∧ op ≠ 17 ∧ op ≠ 19 ∧ op ≠ 47 := ⟨hne h0, hne h1, hne h16, hne h17, hne h19, hne h47⟩
  rw [undefinedAs_of_no_class h0 h1 h16 h17 h19 h47, ← hop]
  clear hop hne
  by_cases hres : op ∈ [28, 29, 30, 31, 59]
  · fin_cases hres <;> simp
  by_cases hcop2 : op ∈ [18, 50, 54, 58, 62]
  · fin_cases hcop2 <;> simp
  · simp only [hres, hcop2, hclass, if_false, false_and, or_false, reduceCtorEq]
    simp

end Sys2Proof

namespace Sys2Proof.Machine

/-! ## The step that comes to a word -/

/-- A step that comes to an instruction's bytes, with no interrupt to take, runs them (spec/43_jumps_branches.md R400). -/
theorem step_of_fetched {s u v : State} {bs : List Byte} (hr : Ready s u) (hf : fetchBytes u = .ok bs v) (hi : interruptRequest u = false) :
    step s = aged (runBytes bs v) := by
  obtain ⟨t, hext, hreset, hnmi, hstandby, hmode, rfl⟩ := hr
  have hstep : step s = afterReset t := by simp only [step, cycle, hext, hreset]
  have hboundary : afterReset t = boundary (t.setStandby false) := by simp [afterReset, hnmi, hstandby]
  rw [hstep, hboundary]
  simp [boundary, hmode, withInterrupt, hi, runFetched, hf]

theorem runBytes_of_error {s : State} {bs : List Byte} {e : DecodeError} (h : decode s.boot.bigEndianMem bs = .error e) :
    runBytes bs s = rejected e s := by
  simp only [runBytes, h]

/-! ## What is made of it, gate by gate -/

section
variable {s : State}

theorem undefinedFp_of_usable (h : Cp1Ok s) : undefinedFp s = .exc .floatingPoint (s.setFcr31 { s.fcr31 with cause := 0x20 }) := by
  rw [undefinedFp, needCp1_ok h]
  exact if_pos (by simp [fpTraps, xE])

/-- Behind the gate of coprocessor 0, shut. -/
theorem rejected_of_not_cp0Ok (h : ¬Cp0Ok s) {e : DecodeError} (he : e ∈ [DecodeError.cop0Undefined, .mustBeZero .cop0, .cacheUndefined]) :
    rejected e s = .next (takeException (.coprocessorUnusable 0) s) := by
  have hs := Bool.eq_false_iff.2 h
  fin_cases he <;> simp only [rejected, needCp0_not hs, finish_exc]

theorem rejected_of_not_cp1Ok (h : ¬Cp1Ok s) {e : DecodeError} (he : e ∈ [DecodeError.cop1Undefined, .mustBeZero .cop1]) :
    rejected e s = .next (takeException (.coprocessorUnusable 1) s) := by
  have hs := Bool.eq_false_iff.2 h
  fin_cases he <;> simp only [rejected, undefinedFp, needCp1_not hs, finish_exc]

theorem rejected_cop2 : rejected .cop2 s = .next (takeException
    (if (seen .usable s).cp0.status.cu.getLsbD 2 = true then .reservedInstruction else .coprocessorUnusable 2) s) := by
  by_cases h : (seen .usable s).cp0.status.cu.getLsbD 2 = true
  · rw [if_pos h]; exact if_pos h
  · rw [if_neg h]; exact if_neg h

end

/-- Settles O48: the step reaches `rejected`, its gates decide the effect, and the opcode with the fields decides the error. -/
theorem undecodedWords : Obligations.UndecodedWords := by
  refine ⟨fun s u v bs e hr hf he hi => ?_, fun s => ⟨rfl, fun h e he => ?_, fun h => ?_, fun h e he => ?_, fun h => ?_, ?_, rfl⟩, ?_⟩
  · rw [step_of_fetched hr hf hi, runBytes_of_error he]
  · exact rejected_of_not_cp0Ok h he
  · simp only [rejected, needCp0_ok h, finish_exc, finish_refuse, and_self]
  · exact rejected_of_not_cp1Ok h he
  · simp only [rejected, undefinedFp_of_usable h, needCp1_ok h, finish_exc, finish_refuse, and_self]
  · exact rejected_cop2
  · intro w op rs rt fn hop hrs hrt hfn
    exact decodeWord_eq_error w op rs rt fn (hop.trans (opOf_toNat w)) (hrs.trans (rsOf_toNat w)) (hrt.trans (rtOf_toNat w))
      (hfn.trans (fnOf_toNat w))

end Sys2Proof.Machine
end

section
/-! SUPPORT. Prefetches (O18); the bytes a left or right access touches (O25), and their values. -/

namespace Sys2Proof.Machine

-- One thread, as in Sys2Proof/Tests: the whole text stays within the check's memory limit.
set_option Elab.async false

/-! ## Prefetches -/

/-- Going on is no effect. -/
theorem noEffect_advance (s : State) : NoEffect s (advance .seq s) where
  cpu := ⟨readGpr_congr (by simp), by simp, by simp⟩
  fpu := ⟨readFgr_congr (by simp), by simp⟩
  system := ⟨by simp, by simp, ⟨by simp, by simp, by simp⟩, by constructor <;> simp⟩
  memory := ⟨fun _ => by simp, by simp, by simp, by simp, by simp⟩
  control := wentOn_advance rfl rfl

/-- Settles O18: behind their gates PREF and PREFX only go on. -/
theorem prefetchHasNoEffect : Obligations.PrefetchHasNoEffect := by
  intro s h4
  refine ⟨fun hint offset base => ⟨_, ?_, noEffect_advance s⟩, fun h1 => ⟨_, ?_, noEffect_advance s⟩⟩
  · show execPref hint offset base s = _
    rw [execPref, needMips4_ok h4, finish_goOn]
  · show execPrefx s = _
    rw [execPrefx, needCp1_ok h1, needMips4_ok h4, finish_goOn]

/-! ## The bytes of a left or right access (spec/40_loads_stores.md R276) -/

/-- The part of a unit from the address to its end, or from its start to the address. -/
theorem partOf_eq (big left : Bool) (size : Nat) (va : Dword) : partOf big left size va =
    if left = big then (va.toNat % size, size - va.toNat % size) else (0, va.toNat % size + 1) := by
  simp only [partOf, beq_iff_eq]

theorem partAddress_toNat {size start : Nat} {pa : PAddr} (hs : size = 4 ∨ size = 8) (hstart : start < size) :
    (partAddress size start pa).toNat = pa.toNat - pa.toNat % size + start := by
  have hpa := pa.isLt
  have hlt : pa.toNat - pa.toNat % size + start < 2 ^ 36 := by rcases hs with rfl | rfl <;> omega
  rw [partAddress, BitVec.toNat_ofNat, Nat.mod_eq_of_lt hlt]

/-- Where a left or right access lies, outside reverse-endian mode. -/
theorem partAccess_ok {s : State} {kind : AccessKind} {left : Bool} {size : Nat} {va : Dword} {pa : PAddr} {c : BitVec 3}
    (hp : PlainOrder s) (ht : translate (seen .data s) kind va = .ok (pa, c)) :
    partAccess kind left size va s =
      .ok (partAddress size (partOf (seen .data s).boot.bigEndianMem left size va).1 pa, c,
        (partOf (seen .data s).boot.bigEndianMem left size va).2) := by
  unfold PlainOrder at hp
  simp only [partAccess, ht, bigEndianCpu, hp, Bool.bne_false, mirrored, Bool.false_eq_true, if_false]

/-- Settles O25: the part starts at the address or at the start of its unit, as side and byte order say. -/
theorem unalignedPartBytes : Obligations.UnalignedPartBytes := by
  intro s kind left size va pa c hs hp ht hoff
  have hlt : va.toNat % size < size := Nat.mod_lt _ (by omega)
  refine ⟨_, _, partAccess_ok hp ht, ?_⟩
  rw [partOf_eq]
  split
  · refine ⟨BitVec.eq_of_toNat_eq ?_, rfl⟩
    rw [partAddress_toNat hs hlt, ← hoff, Nat.sub_add_cancel (Nat.mod_le _ _)]
  · exact ⟨partAddress_toNat hs (by omega), rfl⟩

end Sys2Proof.Machine
end

section
/-! SUPPORT. The values of left and right accesses: merged registers and stored bytes. -/

namespace Sys2Proof.Machine

-- One thread, as in Sys2Proof/Tests: the whole text stays within the check's memory limit.
set_option Elab.async false

theorem lineOffset_eq_mod (pa : PAddr) : lineOffset pa = pa.toNat % 32 := by
  rw [lineOffset, BitVec.extractLsb'_toNat, Nat.shiftRight_zero]

/-- A part of a unit is not empty and stays in the unit. -/
theorem partOf_bounds (big left : Bool) {size : Nat} (va : Dword) (hs : 0 < size) :
    0 < (partOf big left size va).2 ∧ (partOf big left size va).1 + (partOf big left size va).2 ≤ size := by
  have hlt : va.toNat % size < size := Nat.mod_lt _ hs
  rw [partOf_eq]
  split <;> dsimp only <;> omega

/-- A left or right access moves some bytes of its unit, and so of one doubleword of the line. -/
theorem partAccess_fits {s : State} {kind : AccessKind} {left : Bool} {size n : Nat} {va : Dword} {pa : PAddr} {c : BitVec 3}
    (hs : size = 4 ∨ size = 8) (hp : PlainOrder s) (h : partAccess kind left size va s = .ok (pa, c, n)) :
    0 < n ∧ n ≤ size ∧ lineOffset pa % 8 + n ≤ 8 := by
  cases ht : translate (seen .data s) kind va with
  | error e => simp [partAccess, ht] at h
  | ok p =>
    obtain ⟨pa', c'⟩ := p
    rw [partAccess_ok hp ht] at h
    obtain ⟨hpos, hle⟩ := partOf_bounds (seen .data s).boot.bigEndianMem left va (show 0 < size by omega)
    generalize partOf (seen .data s).boot.bigEndianMem left size va = part at *
    cases h
    have haddr := partAddress_toNat (pa := pa') hs (show part.1 < size by omega)
    refine ⟨hpos, by omega, ?_⟩
    rw [lineOffset_eq_mod, haddr]
    rcases hs with rfl | rfl <;> omega

/-! ## The ends of the bytes of a value -/

theorem beBytes_take (n m : Nat) (v : Dword) : (beBytes (n + m) v).take n = beBytes n (v >>> (8 * m)) := by
  induction n with
  | zero => simp [beBytes]
  | succ n ih =>
    rw [show n + 1 + m = (n + m) + 1 by omega, beBytes, beBytes, List.take_succ_cons, ih, ← BitVec.shiftRight_add, Nat.mul_add,
      Nat.add_comm]

theorem beBytes_drop (n m : Nat) (v : Dword) : (beBytes (n + m) v).drop n = beBytes m v := by
  induction n with
  | zero => simp
  | succ n ih => rw [show n + 1 + m = (n + m) + 1 by omega, beBytes, List.drop_succ_cons, ih]

/-- A left store sends the upper bytes of its unit, a right one the lower ones. -/
theorem partBytes_eq (big left : Bool) {size n : Nat} (hn : n ≤ size) (v : Dword) :
    partBytes big left size n v = bytesOfValue big n (if left then v >>> (8 * (size - n)) else v) := by
  have hbe : (if left then (beBytes size v).take n else (beBytes size v).drop (size - n)) =
      beBytes n (if left then v >>> (8 * (size - n)) else v) := by
    cases left with
    | true =>
      have h := beBytes_take n (size - n) v
      rwa [show n + (size - n) = size by omega] at h
    | false =>
      have h := beBytes_drop (size - n) n v
      rwa [show size - n + n = size by omega] at h
  rw [partBytes, hbe]
  rfl

/-- The value of bytes joined to others. -/
theorem beValue_append (as bs : List Byte) : beValue (as ++ bs) = beValue as <<< (8 * bs.length) ||| beValue bs := by
  induction as with
  | nil => simp [beValue]
  | cons a as ih =>
    rw [List.cons_append, beValue, ih, beValue, BitVec.shiftLeft_or_distrib, ← BitVec.shiftLeft_add, BitVec.or_assoc,
      List.length_append, Nat.mul_add]

/-! ## Merged registers (spec/40_loads_stores.md R277 to R280) -/

/-- The sign extension of a unit looks at the unit alone. -/
theorem signExtendBytes_congr {n : Nat} {v w : Dword} (h : ∀ i < 8 * n, v.getLsbD i = w.getLsbD i) :
    signExtendBytes n v = signExtendBytes n w := by
  have hlow : v.setWidth (8 * n) = w.setWidth (8 * n) := BitVec.eq_of_getLsbD_eq fun i hi => by
    rw [BitVec.getLsbD_setWidth, BitVec.getLsbD_setWidth, h i hi]
  rw [signExtendBytes, signExtendBytes, hlow]

/-- The bytes of a unit with its upper ones replaced. -/
theorem beValue_mergeLeft {size : Nat} (reg : Dword) {got : List Byte} (hn : got.length ≤ size) :
    beValue (got ++ (beBytes size reg).drop got.length) = mergeLeft size got.length reg (beValue got) := by
  have h := beBytes_drop got.length (size - got.length) reg
  rw [show got.length + (size - got.length) = size by omega] at h
  rw [h, beValue_append, beValue_beBytes, beBytes_length, mergeLeft]

/-- The bytes of a unit with its lower ones replaced, as far as the unit goes. -/
theorem beValue_mergeRight {size : Nat} (reg : Dword) {got : List Byte} (hn : got.length ≤ size) (h8 : size ≤ 8) (i : Nat)
    (hi : i < 8 * size) :
    (beValue ((beBytes size reg).take (size - got.length) ++ got)).getLsbD i =
      (mergeRight got.length reg (beValue got)).getLsbD i := by
  have h := beBytes_take (size - got.length) got.length reg
  rw [show size - got.length + got.length = size by omega] at h
  rw [h, beValue_append, beValue_beBytes, mergeRight, BitVec.getLsbD_or, BitVec.getLsbD_or, BitVec.getLsbD_shiftLeft,
    getLsbD_and_lowMask, BitVec.getLsbD_ushiftRight, BitVec.getLsbD_and, BitVec.getLsbD_not, BitVec.getLsbD_ofNat,
    Nat.testBit_two_pow_sub_one]
  have h64 : i < 64 := by omega
  by_cases hlow : i < 8 * got.length
  · simp [h64, hlow]
  · have hsub : 8 * got.length + (i - 8 * got.length) = i := by omega
    have hin : i - 8 * got.length < 8 * (size - got.length) := by omega
    simp [h64, hlow, hsub, hin, Bool.or_comm]

/-- The register after a left or right load, as the meanings compute it. -/
theorem mergedValue_eq (big left : Bool) {size : Nat} (hs : size = 4 ∨ size = 8) (reg : Dword) {bs : List Byte}
    (hn : bs.length ≤ size) :
    mergedValue big left size reg bs = signExtendBytes size
      (if left then mergeLeft size bs.length reg (valueOfBytes big bs) else mergeRight bs.length reg (valueOfBytes big bs)) := by
  have hgot : valueOfBytes big bs = beValue (if big then bs else bs.reverse) := by cases big <;> rfl
  have hlen : bs.length = (if big then bs else bs.reverse).length := by cases big <;> simp
  rw [hgot, mergedValue, hlen]
  rw [hlen] at hn
  generalize (if big then bs else bs.reverse) = got at *
  have hload : ∀ us : List Byte, us.length = size →
      loadedValue (size == 4) size (natOfBytes true us) = signExtendBytes size (beValue us) := by
    intro us hus
    rw [loadedValue_natOfBytes _ _ hus (by omega) (by omega)]
    rcases hs with rfl | rfl
    · rfl
    · rw [signExtendBytes_eight]; rfl
  cases left with
  | true =>
    rw [if_pos rfl, if_pos rfl, hload _ (by simp; omega), beValue_mergeLeft reg hn]
  | false =>
    rw [if_neg (by decide), if_neg (by decide), hload _ (by simp; omega)]
    exact signExtendBytes_congr (beValue_mergeRight reg hn (by omega))

end Sys2Proof.Machine
end

section
/-! SUPPORT. What a load or a store does once its access is answered, whatever its form; uncached loads and stores (O22, O27). -/

namespace Sys2Proof.Machine

-- One thread, as in Sys2Proof/Tests: the whole text stays within the check's memory limit.
set_option Elab.async false

/-! ## Each form as its access to a physical address, then its register -/

theorem Res.bind_assoc {α β γ : Type} (r : Res α) (f : α → State → Res β) (g : β → State → Res γ) :
    Res.bind (Res.bind r f) g = Res.bind r fun a t => Res.bind (f a t) g := by
  cases r <;> rfl

section
variable {i : Instr} {s : State} {pa : PAddr} {c : BitVec 3} {n : Nat}

theorem loadValue_of_address {va : Dword} (hd : dataAddress s .load n va = .ok (pa, c)) :
    loadValue va n s = Res.bind (loadPhys va n pa c s) fun bs t => .ok (valueOfBytes s.boot.bigEndianMem bs) t := by
  rw [loadValue, hd, Look.on_ok]

theorem storeValue_of_address {va : Dword} (v : Dword) (hd : dataAddress s .store n va = .ok (pa, c)) :
    storeValue va n v s = storePhys va pa c (bytesOfValue s.boot.bigEndianMem n v) s := by
  rw [storeValue, hd, Look.on_ok]

theorem storeBytes_of_reaches {va : Dword} (v : Dword) (hr : Reaches s .store va n pa c) :
    storeBytes n v va s = Res.bind (storePhys va pa c (bytesOfValue s.boot.bigEndianMem n v) s) fun _ t => goOn t := by
  obtain ⟨ha, hd⟩ := hr
  rw [storeBytes, needAligned_ok ha, storeValue_of_address v hd]

/-- A load that is not linked. -/
theorem exec_of_load {f : LoadForm} (hf : loadForm s i = some f) (hw : WideOk f.wide s) (hr : Reaches s .load f.va f.n pa c)
    (hl : f.linked = false) :
    exec i s = finish (Res.bind (loadPhys f.va f.n pa c s) fun bs t =>
      goOn (t.writeGpr f.rt (f.extend (valueOfBytes s.boot.bigEndianMem bs)))) := by
  obtain ⟨ha, hd⟩ := hr
  rw [exec_of_loadForm hf, wideGate_ok hw, LoadForm.access, if_neg (Bool.eq_false_iff.1 hl), loadGpr, needAligned_ok ha,
    loadValue_of_address hd, Res.bind_assoc]
  rfl

/-- A linked load: the link address is the one translation gives. -/
theorem exec_of_linkedLoad {f : LoadForm} (hf : loadForm s i = some f) (hw : WideOk f.wide s) (ha : f.va.toNat % f.n = 0)
    (ht : translate (seen .data s) .load f.va = .ok (pa, c)) (hl : f.linked = true) :
    exec i s = finish (if c == 2 then .refuse .llUncached else Res.bind (loadPhys f.va f.n (placeOf s f.n pa) c s) fun bs t =>
      goOn ((t.writeGpr f.rt (f.extend (valueOfBytes s.boot.bigEndianMem bs))).linkTo pa)) := by
  rw [exec_of_loadForm hf, wideGate_ok hw, LoadForm.access, if_pos hl, loadLinked, needAligned_ok ha, ht, Look.on_ok]
  rfl

theorem exec_of_store {f : StoreForm} (hf : storeForm s i = some f) (hw : WideOk f.wide s) (hr : Reaches s .store f.va f.n pa c) :
    exec i s = finish (Res.bind (storePhys f.va pa c (bytesOfValue s.boot.bigEndianMem f.n f.value) s) fun _ t => goOn t) := by
  rw [exec_of_storeForm hf, wideGate_ok hw, storeBytes_of_reaches _ hr]

theorem loadPartForm_size {f : PartForm} (h : loadPartForm s i = some f) : f.size = 4 ∨ f.size = 8 := by
  cases i with
  | lwl | lwr | ldl | ldr => cases h; dsimp only; decide
  | _ => cases h

theorem storePartForm_size {f : PartForm} (h : storePartForm s i = some f) : f.size = 4 ∨ f.size = 8 := by
  cases i with
  | swl | swr | sdl | sdr => cases h; dsimp only; decide
  | _ => cases h

/-- LWL, LWR, LDL, LDR: the 64-bit gate if it has one, then the access. -/
theorem exec_of_loadPartForm {f : PartForm} (h : loadPartForm s i = some f) :
    exec i s = finish (if f.wide then need64 s (loadPart f.left f.size (signExtendBytes f.size) f.rt f.va s)
      else loadPart f.left f.size (signExtendBytes f.size) f.rt f.va s) := by
  cases i with
  | lwl | lwr => cases h; rw [effectiveAddress_eq]; rfl
  | ldl | ldr => cases h; rw [effectiveAddress_eq, signExtendBytes_eight]; rfl
  | _ => cases h

/-- SWL, SWR, SDL, SDR: the 64-bit gate if it has one, then the access. -/
theorem exec_of_storePartForm {f : PartForm} (h : storePartForm s i = some f) :
    exec i s = finish (if f.wide then need64 s (storePart f.left f.size f.rt f.va s) else storePart f.left f.size f.rt f.va s) := by
  cases i with
  | swl | swr | sdl | sdr => cases h; rw [effectiveAddress_eq]; rfl
  | _ => cases h

/-- The register a left or right load merges `bs` into. -/
def PartForm.merged (f : PartForm) (n : Nat) (s : State) (bs : List Byte) : Dword :=
  signExtendBytes f.size (if f.left then mergeLeft f.size n (readGpr s f.rt) (valueOfBytes s.boot.bigEndianMem bs)
    else mergeRight n (readGpr s f.rt) (valueOfBytes s.boot.bigEndianMem bs))

theorem exec_of_loadPart {f : PartForm} (hf : loadPartForm s i = some f) (hw : WideOk f.wide s)
    (hd : partAccess .load f.left f.size f.va s = .ok (pa, c, n)) :
    exec i s = finish (Res.bind (loadPhys f.va n pa c s) fun bs t => goOn (t.writeGpr f.rt (f.merged n s bs))) := by
  rw [exec_of_loadPartForm hf, wideGate_ok hw, loadPart, hd, Look.on_ok]
  rfl

theorem exec_of_storePart {f : PartForm} (hf : storePartForm s i = some f) (hw : WideOk f.wide s)
    (hd : partAccess .store f.left f.size f.va s = .ok (pa, c, n)) :
    exec i s = finish (Res.bind (storePhys f.va pa c (bytesOfValue s.boot.bigEndianMem n
      (if f.left then readGpr s f.rt >>> (8 * (f.size - n)) else readGpr s f.rt)) s) fun _ t => goOn t) := by
  rw [exec_of_storePartForm hf, wideGate_ok hw, storePart, hd, Look.on_ok]

/-- A store conditional: the link is held to the address translation gives. -/
theorem exec_of_sc {f : ScForm} (hf : scForm s i = some f) (hw : WideOk f.wide s) (ha : f.va.toNat % f.n = 0)
    (ht : translate (seen .data s) .store f.va = .ok (pa, c)) :
    exec i s = finish (if c == 2 then .refuse .scUncached
      else if (s.llBit || s.linkKnown) && pa != s.linkAddr then .refuse .scOtherAddress
      else if !s.llBit then goOn (s.writeGpr f.rt 0)
      else Res.bind (storePhys f.va (placeOf s f.n pa) c (bytesOfValue s.boot.bigEndianMem f.n (readGpr s f.rt)) s) fun _ t =>
        goOn (t.writeGpr f.rt 1)) := by
  rw [exec_of_scForm hf, wideGate_ok hw, storeConditional, needAligned_ok ha, ht, Look.on_ok]

end

/-! ## What follows for memory, caches and link -/

/-- A register written behind an access leaves memory, caches and link as the access does. -/
theorem sameSides_loaded (r : RegNum) (v : Dword) (t : State) : SameSides t (advance .seq (t.writeGpr r v)) := by
  constructor <;> simp

theorem sameLink_loaded (r : RegNum) (v : Dword) (t : State) : SameLink t (advance .seq (t.writeGpr r v)) := by
  simp [SameLink]

/-- A result that delivers what a read of `n` bytes answers, and leaves memory, caches and link as the read does. -/
def DeliversRead (va : Dword) (pa : PAddr) (c : BitVec 3) (n : Nat) (reg : List Byte → State → Prop) (s : State) (r : Result) : Prop :=
  ∀ bs t, bs.length = n → loadPhys va n pa c s = .ok bs t → MemorySide s t →
    ∃ u, r = .next u ∧ reg bs u ∧ SameSides t u ∧ SameLink t u

/-- A result that leaves memory, caches and link as a store of `bs` does, and `rest` besides. -/
def MakesStore (va : Dword) (pa : PAddr) (c : BitVec 3) (bs : List Byte) (rest : State → Prop) (s : State) (r : Result) : Prop :=
  ∀ t, storePhys va pa c bs s = .ok () (noteCode pa bs.length s t) → MemorySide s t → ∃ u, r = .next u ∧ rest u ∧ SameStore t u

theorem loadPhys_cached {s : State} {va : Dword} {pa : PAddr} {c : BitVec 3} {n : Nat} (hc : c ≠ 2) :
    loadPhys va n pa c s = loadCached (seen .data s).cp0 va pa c n s := if_neg (by simpa using hc)

theorem loadPhys_uncached {s : State} (va : Dword) (pa : PAddr) (n : Nat) :
    loadPhys va n pa 2 s = readUncached (seen .data s).cp0 false s.inp.dataResponse pa (va.extractLsb' 12 2) n n
      (byteMask (lineOffset pa) n) s := rfl

theorem storePhys_cached {s : State} {va : Dword} {pa : PAddr} {c : BitVec 3} {bs : List Byte} (hc : c ≠ 2) :
    storePhys va pa c bs s =
      Res.bind (storeCached (seen .data s).cp0 va pa c bs s) fun _ t => .ok () (noteCode pa bs.length s t) := by
  rw [storePhys, if_neg (by simpa using hc)]

theorem storePhys_uncached (va : Dword) (pa : PAddr) (bs : List Byte) (s : State) :
    storePhys va pa 2 bs s = .ok () (noteCode pa bs.length s (pushSingle pa (va.extractLsb' 12 2) bs s)) := rfl

section
variable {va : Dword} {pa : PAddr} {c : BitVec 3} {n : Nat} {reg : List Byte → State → Prop} {s : State} {r : Result}

theorem DeliversRead.uncachedLoad (h : DeliversRead va pa 2 n reg s r) : UncachedLoad pa n reg s r := by
  intro hg
  have hout : OutsideOnly s ((drainAll s).addBus (.read pa (va.extractLsb' 12 2) n)) := (outsideOnly_drainAll s).trans (Eq.refl _)
  obtain ⟨u, hu, hreg, hsides, hlink⟩ := h (answerBytes s pa n) _ physReadBytes_length
    ((loadPhys_uncached va pa n).trans (readUncached_answered hg _ _ _ _ _ _)) hout.memorySide
  obtain ⟨hbit, haddr, hknown⟩ := hlink
  have hsame := hsides.sameMemory
  exact ⟨u, hu, hreg, ⟨hsame.bytes, hsame.buffer, hsame.icache, hsame.dcache, hsame.scache⟩,
    hbit.trans (by rw [hout]), haddr.trans (by rw [hout]), hknown.trans (by rw [hout])⟩

theorem DeliversRead.loadHit (hc : c ≠ 2) (h : DeliversRead va pa c n reg s r) : LoadHit false va pa n reg s r := by
  intro way l hl
  obtain ⟨u, hu, hreg, hsides, hlink⟩ := h _ s (lineBytes_length _ _ _) ((loadPhys_cached hc).trans (loadCached_hit hl)) (Eq.refl _)
  exact ⟨u, hu, hreg, hsides.sameMemory, hlink⟩

theorem DeliversRead.loadMiss (hm : Memory.wf s.mem) (hc : c ≠ 2) (h : DeliversRead va pa c n reg s r) :
    LoadMiss false va pa c n reg s r := by
  intro old d hno hv hd
  obtain ⟨t, ht, hside, hfill, hbroken⟩ := loadCached_miss (n := n) hm hno hv hd
  obtain ⟨u, hu, hreg, hsides, hlink⟩ := h _ t (lineBytes_length _ _ _) ((loadPhys_cached hc).trans ht) hside
  exact ⟨u, hu, hreg, hsides.lineFilled hfill, hbroken.sameLink hlink⟩

end

section
variable {va : Dword} {pa : PAddr} {c : BitVec 3} {bs : List Byte} {rest : State → Prop} {s : State} {r : Result}

/-- A write request of its own, behind the earlier ones; the caches and the link are as before. -/
theorem SameStore.uncachedStore {u : State} (h : SameStore (pushSingle pa (va.extractLsb' 12 2) bs s) u) (hm : Memory.wf s.mem)
    (hl : bs.length ≤ memSize) (hu : r = .next u) (hrest : rest u) : UncachedStore va pa bs rest s r := by
  have hout := outsideOnly_pushSingle pa (va.extractLsb' 12 2) bs s
  have hstored := stored_pushSingle hm pa (va.extractLsb' 12 2) bs hl
  have hbuf := buffered_pushSingle va pa bs s
  have hdrain := drainAll_pushSingle pa (va.extractLsb' 12 2) bs s
  generalize pushSingle pa (va.extractLsb' 12 2) bs s = t at *
  refine ⟨u, hu, hrest, h.storedInMemory hstored, h.buffered hbuf, fun j => ?_, fun j => ?_, fun j => ?_, ?_⟩
  · exact (h.dsets j).trans (dsetAt_congr (by rw [hout]) (by rw [hout]) j)
  · exact (h.isets j).trans (isetAt_congr (by rw [hout]) (by rw [hout]) j)
  · rw [h.slines_sent, hdrain, slineAt_sendEntry_single]
  · exact h.sameLink ⟨by rw [hout], by rw [hout], by rw [hout]⟩

theorem MakesStore.uncachedStore (hm : Memory.wf s.mem) (hl : bs.length ≤ memSize) (h : MakesStore va pa 2 bs rest s r) :
    UncachedStore va pa bs rest s r := by
  obtain ⟨u, hu, hrest, hsame⟩ := h _ (storePhys_uncached va pa bs s) (memorySide_pushSingle _ _ _ _)
  exact hsame.uncachedStore hm hl hu hrest

/-- A store to a cached address, by what its access to the cache leaves. -/
theorem MakesStore.cached (hc : c ≠ 2) (h : MakesStore va pa c bs rest s r) {t : State}
    (ht : storeCached (seen .data s).cp0 va pa c bs s = .ok () t) (hside : MemorySide s t) :
    ∃ u, r = .next u ∧ rest u ∧ SameStore t u :=
  h t (by rw [storePhys_cached hc, ht, Res.bind_ok]) hside

theorem MakesStore.storeHit (hm : Memory.wf s.mem) (hc : c ≠ 2) (hfit : lineOffset pa % 8 + bs.length ≤ 8)
    (h : MakesStore va pa c bs rest s r) : StoreHit va pa c bs rest s r := by
  rintro way l ⟨htag, hset, hhit, -, -⟩
  obtain ⟨t, ht, hside, hheld, hlink⟩ := storeCached_hit hm htag hset hhit hfit
  obtain ⟨u, hu, hrest, hsame⟩ := h.cached hc ht hside
  exact ⟨u, hu, hrest, hsame.storedHeld hheld, hsame.sameLink ⟨hlink, hside.linkAddr, hside.linkKnown⟩⟩

theorem MakesStore.storeMiss (hm : Memory.wf s.mem) (hc : c ≠ 2) (hfit : lineOffset pa % 8 + bs.length ≤ 8)
    (h : MakesStore va pa c bs rest s r) : StoreMiss va pa c bs rest s r := by
  refine ⟨fun h0 hno => ?_, fun old d h0 hno hv hd => ?_⟩
  · subst h0
    obtain ⟨u, hu, hrest, hsame⟩ := h.cached hc (storeCached_past hno) (memorySide_pushSingle _ _ _ _)
    exact hsame.uncachedStore hm (by simp only [memSize]; omega) hu hrest
  · obtain ⟨t, filled, ht, hside, hfside, hfill, hheld, hlink⟩ := storeCached_miss hm hno hv hd h0 hfit
    obtain ⟨u, hu, hrest, hsame⟩ := h.cached hc ht hside
    exact ⟨u, filled, hu, hrest, hfside.cp0, hfill, hsame.storedHeld hheld, hsame.linkBroken hlink⟩

/-- A store that leaves the registers alone. -/
theorem makesStore_storeRest (hr : r = finish (Res.bind (storePhys va pa c bs s) fun _ t => goOn t)) :
    MakesStore va pa c bs (StoreRest s) s r := by
  intro t ht hside
  refine ⟨storeDone pa bs.length s t, ?_, storeRest_storeDone hside _ _, sameStore_storeDone _ _ _ _⟩
  rw [hr, ht, Res.bind_ok, finish_goOn, storeDone]

end

/-- A load that is not linked delivers its bytes, extended. -/
theorem deliversRead_load {i : Instr} {s : State} {f : LoadForm} {pa : PAddr} {c : BitVec 3} (hf : loadForm s i = some f)
    (hw : WideOk f.wide s) (hr : Reaches s .load f.va f.n pa c) (hl : f.linked = false) :
    DeliversRead f.va pa c f.n (f.delivers pa s) s (exec i s) := by
  intro bs t hlen ht hside
  obtain ⟨hpos, h8⟩ := loadForm_size hf
  have hext : f.extend (valueOfBytes s.boot.bigEndianMem bs) = loadedValue f.signed f.n (natOfBytes s.boot.bigEndianMem bs) := by
    rw [loadedValue_natOfBytes _ _ hlen hpos h8, LoadForm.extend]
    split <;> rfl
  refine ⟨_, ?_, ?_, sameSides_loaded f.rt (f.extend (valueOfBytes s.boot.bigEndianMem bs)) t, sameLink_loaded _ _ _⟩
  · rw [exec_of_load hf hw hr hl, ht, Res.bind_ok, finish_goOn]
  · rw [LoadForm.delivers, hext, hl]
    exact loadsGpr_advance hside _ _ _

/-- Settles O22: an uncached load delivers what the read answers, and a linked one is refused before it reads. -/
theorem uncachedLoads : Obligations.UncachedLoads := by
  intro i s f pa hf hw hp hr
  refine ⟨fun hl => (deliversRead_load hf hw hr hl).uncachedLoad, fun hl => ?_⟩
  obtain ⟨ha, hd⟩ := hr
  rw [exec_of_linkedLoad hf hw ha (dataAddress_plain hp .load f.n f.va ▸ hd) hl]
  rfl

/-- Settles O27: the store buffers its bytes, and control goes on. -/
theorem uncachedStores : Obligations.UncachedStores := by
  intro i s f pa hm hf hw _ hr
  have h8 := Nat.le_of_dvd (by decide) (storeForm_dvd hf)
  exact (makesStore_storeRest (exec_of_store hf hw hr)).uncachedStore hm (by rw [bytesOfValue_length, memSize]; omega)

end Sys2Proof.Machine
end

section
/-! SUPPORT. Left and right loads and stores (O26), store conditional (O29). -/

namespace Sys2Proof.Machine

-- One thread, as in Sys2Proof/Tests: the whole text stays within the check's memory limit.
set_option Elab.async false

/-! ## Left and right loads and stores -/

/-- A left or right load delivers the register with its bytes merged in. -/
theorem deliversRead_loadPart {i : Instr} {s : State} {f : PartForm} {pa : PAddr} {c : BitVec 3} {n : Nat}
    (hf : loadPartForm s i = some f) (hw : WideOk f.wide s) (hn : n ≤ f.size)
    (hd : partAccess .load f.left f.size f.va s = .ok (pa, c, n)) : DeliversRead f.va pa c n (f.delivers s) s (exec i s) := by
  intro bs t hlen ht hside
  subst hlen
  refine ⟨_, ?_, ?_, sameSides_loaded f.rt (f.merged bs.length s bs) t, sameLink_loaded _ _ _⟩
  · rw [exec_of_loadPart hf hw hd, ht, Res.bind_ok, finish_goOn]
  · rw [PartForm.delivers, mergedValue_eq _ _ (loadPartForm_size hf) _ hn]
    exact loadsGpr_advance hside _ _ _

/-- Settles O26: a load merges what its read answers; a store sends the bytes of its part. -/
theorem partAccesses : Obligations.PartAccesses := by
  refine ⟨fun i s f pa c n hm hf hw hp hd => ?_, fun i s f pa c n bs hm hf hw hp hd hbs => ?_⟩
  · obtain ⟨-, hn, -⟩ := partAccess_fits (loadPartForm_size hf) hp hd
    have hread := deliversRead_loadPart hf hw hn hd
    refine ⟨fun hc => ?_, fun hc => ⟨hread.loadHit hc, hread.loadMiss hm hc⟩⟩
    subst hc
    exact hread.uncachedLoad
  · obtain ⟨-, hn, hfit⟩ := partAccess_fits (storePartForm_size hf) hp hd
    rw [partBytes_eq _ _ hn] at hbs
    have hlen : bs.length = n := by rw [hbs, bytesOfValue_length]
    have hstore : MakesStore f.va pa c bs (StoreRest s) s (exec i s) := makesStore_storeRest (hbs ▸ exec_of_storePart hf hw hd)
    rw [← hlen] at hfit
    refine ⟨fun hc => ?_, fun hc => ⟨hstore.storeHit hm hc hfit, hstore.storeMiss hm hc hfit⟩⟩
    subst hc
    exact hstore.uncachedStore hm (by simp only [memSize]; omega)

/-! ## Store conditional (spec/40_loads_stores.md R287, R288) -/

/-- A register written, and control gone on. -/
theorem writesGpr_advance (s : State) (r : RegNum) (v : Dword) : WritesGpr r v s (advance .seq (s.writeGpr r v)) :=
  have h := loadsGpr_advance (s := s) (t := s) (Eq.refl _) r v 0
  { gpr := h.gpr, hiLo := h.hiLo, fpu := h.fpu, memory := (sameSides_loaded r v s).sameMemory, control := h.control,
    system := ⟨h.cp0, h.tlb, sameLink_loaded r v s, h.platform⟩ }

/-- The state after a conditional store that has left memory and caches as in `t`: its old bytes noted, its register 1, control gone on. -/
def scDone (r : RegNum) (pa : PAddr) (n : Nat) (s t : State) : State := advance .seq ((noteCode pa n s t).writeGpr r 1)

theorem sameStore_scDone (r : RegNum) (pa : PAddr) (n : Nat) (s t : State) : SameStore t (scDone r pa n s t) := by
  constructor
  case link => exact ⟨by simp [scDone, noteCode], by simp [scDone, noteCode], by simp [scDone, noteCode]⟩
  all_goals simp [scDone, noteCode]

theorem scRest_scDone {s t : State} (h : MemorySide s t) (r : RegNum) (pa : PAddr) (n : Nat) : ScRest r s (scDone r pa n s t) := by
  unfold scDone
  constructor
  case gpr =>
    intro q
    rw [readGpr_congr (advance_gpr .seq _), readGpr_writeGpr, readGpr_congr (s := s) (by simp [noteCode, h.gpr])]
  case hiLo => simp [noteCode, h.hi, h.lo]
  case fpu => exact ⟨readFgr_congr (by simp [noteCode, h.fgr]), by simp [noteCode, h.fcr31]⟩
  case cp0 => simp [noteCode, h.cp0]
  case tlb => simp [noteCode, h.tlb]
  case platform =>
    constructor <;> simp [noteCode, h.intReg, h.intPin, h.nmiPin, h.nmiSeen, h.nmiPending, h.timerInt, h.standby, h.boot, h.physMap,
      h.entered]
  case control => exact wentOn_advance (by simp [noteCode, h.pc]) (by simp [noteCode, h.delay])

theorem scForm_dvd {i : Instr} {s : State} {f : ScForm} (h : scForm s i = some f) : f.n ∣ 8 := by
  cases i with
  | sc | scd => cases h; dsimp only; decide
  | _ => cases h

/-- With the link, at the address of the link, the store is made. -/
theorem makesStore_sc {i : Instr} {s : State} {f : ScForm} {c : BitVec 3} {bs : List Byte} (hf : scForm s i = some f) (hw : WideOk f.wide s)
    (ha : f.va.toNat % f.n = 0) (ht : translate (seen .data s) .store f.va = .ok (s.linkAddr, c)) (hp : PlainOrder s) (hc : c ≠ 2)
    (hlink : s.llBit = true) (hbs : bs = bytesOfValue s.boot.bigEndianMem f.n (readGpr s f.rt)) :
    MakesStore f.va s.linkAddr c bs (ScRest f.rt s) s (exec i s) := by
  intro t hstore hside
  refine ⟨_, ?_, scRest_scDone hside f.rt s.linkAddr bs.length, sameStore_scDone _ _ _ _ _⟩
  rw [exec_of_sc hf hw ha ht, if_neg (by simpa using hc), if_neg (by simp), if_neg (by simp [hlink]), placeOf_plain hp, ← hbs, hstore,
    Res.bind_ok, finish_goOn, scDone]

end Sys2Proof.Machine

namespace Sys2Proof

open Machine

/-- Settles O29: an uncached address, another address and a broken link are met in this order; past them the store is that of O28. -/
theorem storeConditional : Obligations.StoreConditional := by
  intro i s f pa c bs hm hf hw hp hr hbs
  have hfit : lineOffset pa % 8 + bs.length ≤ 8 := by
    rw [hbs, bytesOfValue_length]
    exact lineOffset_fits hp hr (scForm_dvd hf)
  obtain ⟨ha, hd⟩ := hr
  rw [dataAddress_plain hp] at hd
  have hexec := exec_of_sc hf hw ha hd
  refine ⟨fun hc => ?_, fun hc hknown hpa => ?_, fun hc hlink hpa => ?_, fun hc hlink hpa => ?_⟩
  · rw [hexec, if_pos (by simpa using hc), finish_refuse]
  · rw [hexec, if_neg (by simpa using hc), if_pos (by simpa [hpa] using hknown), finish_refuse]
  · have hother : ¬((s.llBit || s.linkKnown) && pa != s.linkAddr) = true := by
      rcases hpa with hknown | rfl
      · simp [hlink, hknown]
      · simp
    refine ⟨_, ?_, writesGpr_advance s f.rt 0⟩
    rw [hexec, if_neg (by simpa using hc), if_neg hother, if_pos (by simp [hlink]), finish_goOn]
  · subst hpa
    have hstore := makesStore_sc hf hw ha hd hp hc hlink hbs
    exact ⟨hstore.storeHit hm hc hfit, hstore.storeMiss hm hc hfit⟩

end Sys2Proof
end

section
/-! SUPPORT. Accesses, CACHE addresses and fetches that do not translate, by form (O21). -/

namespace Sys2Proof.Machine

-- One thread, as in Sys2Proof/Tests: the whole text stays within the check's memory limit.
set_option Elab.async false

/-! ## The loads and stores of floating-point registers behind their gates -/

theorem loadFpr_of_named {f : Fmt} {n : RegNum} {s : State} (va : Dword) (ho : f = .D → FprsOk [n] s) :
    loadFpr f n va s = needAligned (fmtBytes f) false va s
      (Res.bind (loadValue va (fmtBytes f) s) fun v t => goOn (writeFpr f n v t)) := by
  cases f with
  | S => rfl
  | D => exact evenFprs_ok (ho rfl)

theorem storeFpr_of_named {f : Fmt} {n : RegNum} {s : State} (va : Dword) (ho : f = .D → FprsOk [n] s) :
    storeFpr f n va s = storeBytes (fmtBytes f) (readFpr f s n) va s := by
  cases f with
  | S => rfl
  | D => exact evenFprs_ok (ho rfl)

section
variable {i : Instr} {s : State} {f : FpMemForm}

theorem exec_of_fpLoad (hf : fpLoadForm s i = some f) (hok : FpMemOk f s) (hr : SameRegion f s)
    (ha : f.va.toNat % fmtBytes f.f = 0) :
    exec i s = finish (Res.bind (loadValue f.va (fmtBytes f.f) s) fun v t => goOn (writeFpr f.f f.reg v t)) := by
  obtain ⟨h1, h4, ho⟩ := hok
  rw [exec_of_fpLoadForm hf, needCp1_ok h1, FpMemForm.gates_ok h4 hr, loadFpr_of_named _ ho, needAligned_ok ha]

theorem exec_of_fpStore (hf : fpStoreForm s i = some f) (hok : FpMemOk f s) (hr : SameRegion f s) :
    exec i s = finish (storeBytes (fmtBytes f.f) (readFpr f.f s f.reg) f.va s) := by
  obtain ⟨h1, h4, ho⟩ := hok
  rw [exec_of_fpStoreForm hf, needCp1_ok h1, FpMemForm.gates_ok h4 hr, storeFpr_of_named _ ho]

end

/-! ## Addresses that do not translate (spec/20_memory.md R164, R168) -/

section
variable {s : State} {va : Dword} {e : Exc} {n : Nat}

theorem loadValue_of_exc (ht : translate (seen .data s) .load va = .error (.exc e)) : loadValue va n s = .exc e s := by
  rw [loadValue, dataAddress, ht]
  rfl

theorem storeBytes_of_exc (v : Dword) (ha : va.toNat % n = 0) (ht : translate (seen .data s) .store va = .error (.exc e)) :
    storeBytes n v va s = .exc e s := by
  rw [storeBytes, needAligned_ok ha, storeValue, dataAddress, ht]
  rfl

theorem partAccess_of_exc {kind : AccessKind} (left : Bool) (size : Nat)
    (ht : translate (seen .data s) kind va = .error (.exc e)) : partAccess kind left size va s = .error (.exc e) := by
  rw [partAccess, ht]

theorem LoadForm.access_of_exc {f : LoadForm} (ha : f.va.toNat % f.n = 0)
    (ht : translate (seen .data s) .load f.va = .error (.exc e)) : f.access s = .exc e s := by
  unfold LoadForm.access
  split
  · rw [loadLinked, needAligned_ok ha, ht, Look.on_exc]
  · rw [loadGpr, needAligned_ok ha, loadValue_of_exc ht, Res.bind_exc]

/-- A CACHE instruction is an operation at its effective address. -/
theorem exec_of_cacheVa {i : Instr} (h : cacheVa s i = some va) :
    ∃ o b k, va = effectiveAddress s b o ∧ exec i s = finish (cacheOp o b s k) := by
  cases i with
  | cacheIIndexInvalidate | cacheIIndexLoadTag | cacheIIndexStoreTag | cacheIHitInvalidate | cacheIFill | cacheIHitWriteback
  | cacheDIndexWritebackInvalidate | cacheDIndexLoadTag | cacheDIndexStoreTag | cacheDCreateDirtyExclusive | cacheDHitInvalidate
  | cacheDHitWritebackInvalidate | cacheDHitWriteback | cacheSValidClear | cacheSIndexLoadTag | cacheSIndexStoreTag
  | cacheSCachePageInvalidate => cases h; exact ⟨_, _, _, rfl, rfl⟩
  | _ => cases h

theorem exec_cache_of_exc {i : Instr} (hi : cacheVa s i = some va) (hcp : Cp0Ok s)
    (ht : translate (seen .data s) .load va = .error (.exc e)) : exec i s = .next (takeException e s) := by
  obtain ⟨o, b, k, rfl, hexec⟩ := exec_of_cacheVa hi
  rw [effectiveAddress_eq] at ht
  rw [hexec, cacheOp, needCp0_ok hcp, cacheAddress, ht, Look.on_exc, finish_exc]

theorem fetchBytes_of_exc (ha : s.pc.toNat % 4 = 0) (ht : translate (seen .fetch s) .fetch s.pc = .error (.exc e)) :
    fetchBytes s = .exc e s := by
  rw [fetchBytes, needAligned_ok ha, ht, Look.on_exc]

end

/-- A step whose fetch ends in an exception enters it, whatever interrupt is requested. -/
theorem step_of_fetch_exc {s u v : State} {e : Exc} (hr : Ready s u) (hf : fetchBytes u = .exc e v) :
    step s = .next (age (takeException e v)) := by
  obtain ⟨t, hext, hreset, hnmi, hstandby, hmode, rfl⟩ := hr
  have hstep : step s = afterReset t := by simp only [step, cycle, hext, hreset]
  have hboundary : afterReset t = boundary (t.setStandby false) := by simp [afterReset, hnmi, hstandby]
  have hrun : withInterrupt (t.setStandby false) (runFetched (t.setStandby false)) = .next (takeException e v) := by
    simp only [runFetched, hf, withInterrupt, takeException_entered, if_true, ite_self]
  rw [hstep, hboundary, boundary, hrun]
  simp [hmode, aged]

end Sys2Proof.Machine
end

section
/-! SUPPORT. Reads that are answered with erroneous data: what a load, a store and a fetch leave behind (O21). -/

namespace Sys2Proof.Machine

-- One thread, as in Sys2Proof/Tests: the whole text stays within the check's memory limit.
set_option Elab.async false

/-! ## Reads answered with erroneous data (spec/49_system_interface.md R705) -/

/-- What differs on the memory side alone, the link as before, has no register changed. -/
theorem MemorySide.keptByError {s t : State} (h : MemorySide s t) (hl : t.llBit = s.llBit) : KeptByError s t where
  cpu := ⟨readGpr_congr h.gpr, h.hi, h.lo⟩
  fpu := ⟨readFgr_congr h.fgr, h.fcr31⟩
  system := ⟨h.cp0, h.tlb, ⟨hl, h.linkAddr, h.linkKnown⟩,
    ⟨h.intReg, h.intPin, ⟨h.nmiPin, h.nmiSeen, h.nmiPending⟩, h.timerInt, h.standby, h.boot, h.physMap, h.entered⟩⟩
  control := ⟨h.pc, h.delay⟩

theorem OutsideOnly.llBit {s t : State} (h : OutsideOnly s t) : t.llBit = s.llBit := by rw [h]

/-- A read request behind the buffered writes has changed no more than sending them. -/
theorem keptByError_read (s : State) (q : BusRequest) : KeptByError s ((drainAll s).addBus q) :=
  have hout : OutsideOnly s ((drainAll s).addBus q) := (outsideOnly_drainAll s).trans (Eq.refl _)
  hout.memorySide.keptByError hout.llBit

theorem sameMemory_addBus (s : State) (q : BusRequest) : SameMemory s (s.addBus q) :=
  ⟨fun _ => rfl, rfl, ⟨rfl, rfl⟩, ⟨rfl, rfl⟩, ⟨rfl, rfl⟩⟩

section
variable {s : State} {cp : Cp0} {r : ReadResponse} {pa : PAddr} {c : BitVec 3}

theorem responseError_bad (h : BadAnswer r) (fetch : Bool) (checked : BitVec 32) :
    responseError cp fetch r checked = some (.busError fetch) := by
  obtain ⟨herr, hpar, -⟩ := h
  simp [responseError, herr, hpar]

theorem readUncached_bad (h : BadAnswer r) (fetch : Bool) (vi : BitVec 2) (n size : Nat) (checked : BitVec 32) :
    readUncached cp fetch r pa vi n size checked s = .exc (.busError fetch) ((drainAll s).addBus (.read pa vi size)) := by
  have ⟨_, _, hans⟩ := h
  simp [readUncached, hans, responseError_bad h, beforeRead_eq]

/-- A block read answered with erroneous data: the place in the secondary cache is not valid, nothing is left to send. -/
theorem readBlock_bad (h : BadAnswer r) (ha : AgentAsked s cp pa c) (fetch : Bool) (vi : BitVec 2) (ret : Bool) :
    ∃ t, readBlock cp fetch r pa c vi ret s = .ok (.error (.busError fetch)) t ∧ OutsideOnly s t ∧ t.wb = [] ∧
      t.mem = (drainAll s).mem ∧ SecondaryInvalid s cp pa c t := by
  have ⟨_, _, hans⟩ := h
  have hout : ∀ q, OutsideOnly s ((drainAll s).addBus q) := fun q => (outsideOnly_drainAll s).trans (Eq.refl _)
  have hmiss : ¬(scacheInUse s cp c && (slineAt (drainAll s) (scacheIndex s.boot pa)).valid &&
      (slineAt (drainAll s) (scacheIndex s.boot pa)).tag == scacheTag pa) = true := fun e => ha (by simpa [and_assoc] using e)
  unfold readBlock
  dsimp only
  rw [beforeRead_eq, if_neg hmiss, if_neg (by simp [hans])]
  simp only [responseError_bad h]
  by_cases hs : scacheInUse s cp c = true
  · rw [if_pos hs]
    exact ⟨_, rfl, (hout _).trans (Eq.refl _), by simp, by simp, fun _ => by rw [slineAt_putSLine, if_pos rfl]⟩
  · rw [if_neg hs]
    exact ⟨_, rfl, hout _, by simp, by simp, fun hs' => absurd hs' hs⟩

end

/-! ## A line that is not brought in -/

/-- A way put into its set, and nothing else of the data cache changed. -/
theorem onlyDLine_of {i : Nat} {way : Bool} {l : DLine} {s t : State}
    (hc : t.dcache = putAt s.dcache i (dsetWay (dsetAt s i) way l)) (hr : t.dcacheRest = s.dcacheRest) : OnlyDLine i way l s t where
  toPutDLine := putDLine_of hc hr (dwayOf_dsetWay _ _ _) (dwayOf_dsetWay_other _ _ _)
  fifo := by
    rw [dsetAt_congr (s := s.putDSet i (dsetWay (dsetAt s i) way l)) hc hr, dsetAt_putDSet, if_pos rfl, dsetWay_fifo]

@[simp] theorem iwayOf_isetWay (d : ISet) (w : Bool) (l : ILine) : iwayOf (isetWay d w l) w = l := by cases w <;> rfl
@[simp] theorem iwayOf_isetWay_other (d : ISet) (w : Bool) (l : ILine) : iwayOf (isetWay d w l) (!w) = iwayOf d (!w) := by
  cases w <;> rfl
@[simp] theorem isetWay_fifo (d : ISet) (w : Bool) (l : ILine) : (isetWay d w l).fifo = d.fifo := by cases w <;> rfl

/-- A way put into its set, and nothing else of the instruction cache changed. -/
theorem onlyILine_of {i : Nat} {way : Bool} {l : ILine} {s t : State}
    (hc : t.icache = putAt s.icache i (isetWay (isetAt s i) way l)) (hr : t.icacheRest = s.icacheRest) : OnlyILine i way l s t := by
  have hset : ∀ j, isetAt t j = if j = i then isetWay (isetAt s i) way l else isetAt s j := fun j =>
    (isetAt_congr (s := s.putISet i (isetWay (isetAt s i) way l)) hc hr j).trans (isetAt_putISet s i j _)
  refine ⟨⟨?_, ?_, fun j hj => by rw [hset, if_neg hj]⟩, ?_⟩
  · rw [hset, if_pos rfl, iwayOf_isetWay]
  · rw [hset, if_pos rfl, iwayOf_isetWay_other]
  · rw [hset, if_pos rfl, isetWay_fifo]

/-- The line a refill replaces raises nothing: it is no modified one with wrong parity. -/
theorem Victim.no_error {s : State} {va : Dword} {old : DLine} (h : Victim s va old) (cp : Cp0) : victimError cp old = none := by
  obtain ⟨-, hpar⟩ := h
  unfold victimError writebackError
  by_cases hmod : (dvalid old && old.w) = true
  · simp [hmod, hpar hmod]
  · simp [hmod]

/-- What a data access leaves whose line is answered with erroneous data: its place invalid, the line that was there written back. -/
def LineNotFilled (cp : Cp0) (va : Dword) (pa : PAddr) (c : BitVec 3) (old : DLine) (s t : State) : Prop :=
  KeptByError s t ∧ OnlyDLine (setIndex va) (dsetAt s (setIndex va)).fifo dlineInvalid s t ∧ SameICache s t ∧
    SecondaryInvalid s cp pa c t ∧ WrittenBack old (setIndex va) (drainAll s) t

section
variable {s : State} {cp : Cp0} {va : Dword} {pa : PAddr} {c : BitVec 3} {old : DLine}

theorem refillD_bad (hm : Memory.wf s.mem) (hb : BadAnswer s.inp.dataResponse) (hv : Victim s va old) (ha : AgentAsked s cp pa c) :
    ∃ t, refillD cp va pa c s = .exc (.busError false) t ∧ LineNotFilled cp va pa c old s t := by
  obtain ⟨u, hread, hu, huwb, humem, husec⟩ := readBlock_bad hb ha false (va.extractLsb' 12 2) false
  have hset : dsetAt u (setIndex va) = dsetAt s (setIndex va) := dsetAt_congr (by rw [hu]) (by rw [hu]) _
  have herr := hv.no_error cp
  obtain ⟨hold, -⟩ := hv
  unfold refillD
  simp only [hread, Res.bind_ok, hset, ← hold, herr, Option.getD_none]
  generalize hw : u.putDSet (setIndex va) (dsetWay (dsetAt s (setIndex va)) (dsetAt s (setIndex va)).fifo dlineInvalid) = w
  have hwmem : w.mem = (drainAll s).mem := by rw [← hw]; exact humem
  have hwwb : w.wb = [] := by rw [← hw]; exact huwb
  have hwside : MemorySide s w := hu.memorySide.trans (by rw [← hw]; exact Eq.refl _)
  have hout := outsideOnly_writeOut old (setIndex va) (va.extractLsb' 12 2) w
  have hback := writtenBack_writeOut (s := w) (hwmem ▸ drainAll_mem_wf hm) old (setIndex va) (va.extractLsb' 12 2)
  have hsec := writeOut_scache hwwb old (setIndex va) (va.extractLsb' 12 2)
  generalize writeOut old (setIndex va) (va.extractLsb' 12 2) w = t at *
  have hside : MemorySide s t := hwside.trans hout.memorySide
  refine ⟨t, rfl, hside.keptByError ?_, onlyDLine_of ?_ (by rw [hside]), fun j => isetAt_congr ?_ (by rw [hside]) j, fun hs => ?_, ?_⟩
  · rw [hout, ← hw]; exact hu.llBit
  · rw [hout, ← hw, State.putDSet_dcache, hu]
  · rw [hout, ← hw, State.putDSet_icache, hu]
  · rw [← husec hs]
    exact congrArg SLine.valid (slineAt_congr (hsec.trans (by rw [← hw]; rfl)) (by rw [hside, hu]) _)
  · exact writtenBack_congr hback hwmem.symm ((outsideOnly_drainAll s).physMap.trans hwside.physMap.symm)
      ((drainAll_wb s).trans hwwb.symm) rfl rfl rfl

theorem loadCached_bad (hm : Memory.wf s.mem) (hb : BadAnswer s.inp.dataResponse) (hno : NoLine s va pa) (hv : Victim s va old)
    (ha : AgentAsked s cp pa c) (n : Nat) :
    ∃ t, loadCached cp va pa c n s = .exc (.busError false) t ∧ LineNotFilled cp va pa c old s t := by
  obtain ⟨htag, hset, hhit⟩ := hno
  obtain ⟨t, hrefill, ht⟩ := refillD_bad hm hb hv ha
  refine ⟨t, ?_, ht⟩
  simp only [loadCached, tagParity_none htag hset, hhit, hrefill, Res.bind_exc]

/-- Any store that brings its line in ends alike, whatever its bytes. -/
theorem storeCached_bad (hm : Memory.wf s.mem) (hb : BadAnswer s.inp.dataResponse) (hno : NoLine s va pa) (hv : Victim s va old)
    (ha : AgentAsked s cp pa c) (h0 : c ≠ 0) :
    ∃ t, (∀ bs, storeCached cp va pa c bs s = .exc (.busError false) t) ∧ LineNotFilled cp va pa c old s t := by
  obtain ⟨htag, hset, hhit⟩ := hno
  obtain ⟨t, hrefill, ht⟩ := refillD_bad hm hb hv ha
  refine ⟨t, fun bs => ?_, ht⟩
  simp only [storeCached, tagParity_none htag hset, hhit, if_neg (show ¬(c == 0) = true by simpa using h0), hrefill, Res.bind_exc]

end

/-! ## The instruction whose access ends in an exception -/

section
variable {i : Instr} {s t : State} {va : Dword} {pa : PAddr} {c : BitVec 3} {n : Nat} {e : Exc}

/-- Every load whose read ends in an exception takes it. -/
theorem exec_of_load_exc (hi : ComesTo i s .load va pa c n) (he : loadPhys va n pa c s = .exc e t) :
    exec i s = .next (takeException e t) := by
  cases hi with
  | load f pa c hf hw hr hunc =>
    cases hl : f.linked with
    | false => rw [exec_of_load hf hw hr hl, he, Res.bind_exc, finish_exc]
    | true =>
      obtain ⟨ha, hd⟩ := hr
      cases ht : translate (seen .data s) .load f.va with
      | error => simp [dataAddress, ht] at hd
      | ok p =>
        simp only [dataAddress, ht, Except.ok.injEq, Prod.mk.injEq] at hd
        obtain ⟨rfl, rfl⟩ := hd
        rw [exec_of_linkedLoad hf hw ha ht hl, if_neg (by simpa using hunc hl), he, Res.bind_exc, finish_exc]
  | loadPart f pa c n hf hw hd => rw [exec_of_loadPart hf hw hd, he, Res.bind_exc, finish_exc]
  | loadFp f pa c hf hok hregion hr =>
    obtain ⟨ha, hd⟩ := hr
    rw [exec_of_fpLoad hf hok hregion ha, loadValue_of_address hd, he, Res.bind_exc, Res.bind_exc, finish_exc]

/-- Every store whose access ends in an exception takes it. -/
theorem exec_of_store_exc (hi : ComesTo i s .store va pa c n) (he : ∀ bs, storePhys va pa c bs s = .exc e t) :
    exec i s = .next (takeException e t) := by
  cases hi with
  | store f pa c hf hw hr => rw [exec_of_store hf hw hr, he, Res.bind_exc, finish_exc]
  | storePart f pa c n hf hw hd => rw [exec_of_storePart hf hw hd, he, Res.bind_exc, finish_exc]
  | storeFp f pa c hf hok hregion hr =>
    rw [exec_of_fpStore hf hok hregion, storeBytes_of_reaches _ hr, he, Res.bind_exc, finish_exc]
  | storeConditional f pa c hf hw hr hc hlink ht =>
    obtain ⟨ha, hd⟩ := hr
    simp only [dataAddress, ht, Except.ok.injEq, Prod.mk.injEq, and_true] at hd
    subst hd
    rw [exec_of_sc hf hw ha ht, if_neg (by simpa using hc), if_neg (by simp), if_neg (by simp [hlink]), he, Res.bind_exc, finish_exc]

/-- An uncached load answered with erroneous data. -/
theorem busError_uncachedLoad (hi : ComesTo i s .load va pa 2 n) (hb : BadAnswer s.inp.dataResponse) :
    ∃ t, exec i s = .next (takeException (.busError false) t) ∧ KeptByError s t ∧ SameMemory (drainAll s) t :=
  ⟨_, exec_of_load_exc hi ((loadPhys_uncached va pa n).trans (readUncached_bad hb _ _ _ _ _)), keptByError_read _ _,
    sameMemory_addBus _ _⟩

/-- A cached load, or a store that brings its line in, whose line is answered with erroneous data. -/
theorem busError_cachedAccess {kind : AccessKind} {old : DLine} (hm : Memory.wf s.mem) (hi : ComesTo i s kind va pa c n)
    (hb : BadAnswer s.inp.dataResponse) (hc : c ≠ 2) (h0 : kind = .store → c ≠ 0) (hno : NoLine s va pa) (hv : Victim s va old)
    (ha : AgentAsked s (seen .data s).cp0 pa c) :
    ∃ t, exec i s = .next (takeException (.busError false) t) ∧ LineNotFilled (seen .data s).cp0 va pa c old s t := by
  cases kind with
  | fetch => cases hi
  | load =>
    obtain ⟨t, hload, ht⟩ := loadCached_bad hm hb hno hv ha n
    exact ⟨t, exec_of_load_exc hi ((loadPhys_cached hc).trans hload), ht⟩
  | store =>
    obtain ⟨t, hstore, ht⟩ := storeCached_bad hm hb hno hv ha (h0 rfl)
    exact ⟨t, exec_of_store_exc hi fun bs => by rw [storePhys_cached hc, hstore, Res.bind_exc], ht⟩

end

/-! ## Fetches -/

section
variable {s : State} {pa : PAddr} {c : BitVec 3}

/-- A fetch from an address that translates. -/
theorem fetchBytes_of_address (ha : s.pc.toNat % 4 = 0) (ht : translate (seen .fetch s) .fetch s.pc = .ok (pa, c)) :
    fetchBytes s = Res.bind (if c == 2 then readUncached (seen .fetch s).cp0 true s.inp.fetchResponse pa (s.pc.extractLsb' 12 2) 4 8
      (byteMask (8 * (lineOffset pa / 8)) 8) s else fetchCached (seen .fetch s).cp0 s.pc pa c s)
      fun bs t => .ok (codeSeen s pa bs) t := by
  rw [fetchBytes, needAligned_ok ha, ht, Look.on_ok]

theorem busError_uncachedFetch (ha : s.pc.toNat % 4 = 0) (ht : translate (seen .fetch s) .fetch s.pc = .ok (pa, 2))
    (hb : BadAnswer s.inp.fetchResponse) :
    ∃ t, fetchBytes s = .exc (.busError true) t ∧ KeptByError s t ∧ SameMemory (drainAll s) t := by
  refine ⟨_, ?_, keptByError_read s (.read pa (s.pc.extractLsb' 12 2) 8), sameMemory_addBus _ _⟩
  rw [fetchBytes_of_address ha ht, if_pos (beq_self_eq_true _), readUncached_bad hb, Res.bind_exc]

/-- A line the instruction cache asks for that is answered with erroneous data: its place is not valid. -/
theorem refillI_bad {cp : Cp0} {va : Dword} {r : ReadResponse} (hb : BadAnswer r) (ha : AgentAsked s cp pa c) :
    ∃ t way l, refillI cp true r va pa c none s = .exc (.busError true) t ∧ KeptByError s t ∧ l.valid = false ∧
      OnlyILine (setIndex va) way l s t ∧ SameDCache s t ∧ SecondaryInvalid s cp pa c t ∧ SameOutside (drainAll s) t := by
  obtain ⟨u, hread, hu, huwb, humem, husec⟩ := readBlock_bad hb ha true (va.extractLsb' 12 2)
    (s.llBit && (lineOf s.linkAddr).extractLsb' 5 7 == pa.extractLsb' 5 7)
  unfold refillI
  simp only [hread, Res.bind_ok]
  generalize (ihit (isetAt s (setIndex va)) (primaryTag pa)).getD (isetAt s (setIndex va)).fifo = way
  have hside : MemorySide s (u.putISet (setIndex va) (isetWay (isetAt s (setIndex va)) way ilineInvalid)) :=
    hu.memorySide.trans (Eq.refl _)
  refine ⟨_, way, ilineInvalid, rfl, hside.keptByError hu.llBit, rfl, onlyILine_of ?_ (by rw [hside]), fun j => ?_, husec, ?_,
    fun a => ?_⟩
  · rw [State.putISet_icache, hu]
  · exact dsetAt_congr (by rw [State.putISet_dcache, hu]) (by rw [State.putISet_dcacheRest, hu]) j
  · exact huwb.trans (drainAll_wb s).symm
  · exact congrArg (memRead · a) humem

theorem busError_cachedFetch (ha : s.pc.toNat % 4 = 0) (ht : translate (seen .fetch s) .fetch s.pc = .ok (pa, c))
    (hb : BadAnswer s.inp.fetchResponse) (hc : c ≠ 2) (htag : s.inp.fetchResponse.tagError = false)
    (hset : isetBad (isetAt (seen .fetch s) (setIndex s.pc)) = false)
    (hhit : ihit (isetAt (seen .fetch s) (setIndex s.pc)) (primaryTag pa) = none) (hasked : AgentAsked s (seen .fetch s).cp0 pa c) :
    ∃ t way l, fetchBytes s = .exc (.busError true) t ∧ KeptByError s t ∧ l.valid = false ∧ OnlyILine (setIndex s.pc) way l s t ∧
      SameDCache s t ∧ SecondaryInvalid s (seen .fetch s).cp0 pa c t ∧ SameOutside (drainAll s) t := by
  obtain ⟨t, way, l, hrefill, hkept⟩ := refillI_bad (va := s.pc) hb hasked
  refine ⟨t, way, l, ?_, hkept⟩
  rw [fetchBytes_of_address ha ht, if_neg (by simpa using hc)]
  simp only [fetchCached, tagParity_none htag hset, hhit, hrefill, Res.bind_exc]

end

/-- Settles O21: form by form the address comes before the access; a read answered with erroneous data ends each access that made it. -/
theorem accessExceptionsTaken : Obligations.AccessExceptionsTaken := by
  refine ⟨fun i s f e hf hw ha ht => ?_, fun i s f e hf hw ha ht => ?_, fun i s f e hf hw ha ht => ?_, fun i s f e hf hw ht => ?_,
    fun i s f e hf hw ht => ?_, fun i s f e hf hok hr ha ht => ?_, fun i s f e hf hok hr ha ht => ?_, fun i s va e => exec_cache_of_exc,
    fun s e => fetchBytes_of_exc, fun s u v e => step_of_fetch_exc,
    fun i s kind va pa c n hm hi hb => ⟨fun hload hc => ?_, fun old hc h0 hno hv ha => ?_⟩,
    fun s pa c ha ht hb => ⟨fun hc => ?_, busError_cachedFetch ha ht hb⟩⟩
  · rw [exec_of_loadForm hf, wideGate_ok hw, LoadForm.access_of_exc ha ht, finish_exc]
  · rw [exec_of_storeForm hf, wideGate_ok hw, storeBytes_of_exc _ ha ht, finish_exc]
  · rw [exec_of_scForm hf, wideGate_ok hw, storeConditional, needAligned_ok ha, ht, Look.on_exc, finish_exc]
  · rw [exec_of_loadPartForm hf, wideGate_ok hw, loadPart, partAccess_of_exc _ _ ht, Look.on_exc, finish_exc]
  · rw [exec_of_storePartForm hf, wideGate_ok hw, storePart, partAccess_of_exc _ _ ht, Look.on_exc, finish_exc]
  · rw [exec_of_fpLoad hf hok hr ha, loadValue_of_exc ht, Res.bind_exc, finish_exc]
  · rw [exec_of_fpStore hf hok hr, storeBytes_of_exc _ ha ht, finish_exc]
  · subst hload hc
    exact busError_uncachedLoad hi hb
  · obtain ⟨t, hexec, hkept, hline, hrest⟩ := busError_cachedAccess hm hi hb hc h0 hno hv ha
    exact ⟨t, dlineInvalid, hexec, hkept, rfl, hline, hrest⟩
  · subst hc
    exact busError_uncachedFetch ha ht hb

end Sys2Proof.Machine
end

section
/-! SUPPORT. Sums, shifts and comparisons of words as operations on integers; the integer instructions that write one register (O7) and
those that may raise Overflow (O8). -/

namespace Sys2Proof.Machine

-- One thread, as in Sys2Proof/Tests: the whole text stays within the check's memory limit.
set_option Elab.async false

/-! ## Operations on words as operations on integers, modulo 2^n -/

section
variable {n : Nat}

theorem ofInt_toInt_add (a b : BitVec n) : BitVec.ofInt n (a.toInt + b.toInt) = a + b := by
  rw [BitVec.ofInt_add, BitVec.ofInt_toInt, BitVec.ofInt_toInt]

theorem ofInt_toInt_sub (a b : BitVec n) : BitVec.ofInt n (a.toInt - b.toInt) = a - b := by
  rw [Int.sub_eq_add_neg, BitVec.ofInt_add, BitVec.ofInt_neg, BitVec.ofInt_toInt, BitVec.ofInt_toInt, BitVec.sub_eq_add_neg]

theorem natCast_mul_two_pow (m k : Nat) : (m : Int) * 2 ^ k = ((m <<< k : Nat) : Int) := by
  rw [Nat.shiftLeft_eq, Int.natCast_mul, Int.natCast_pow]; rfl

/-- A left shift multiplies by a power of two. -/
theorem ofInt_toNat_mul_two_pow (a : BitVec n) (k : Nat) : BitVec.ofInt n (a.toNat * 2 ^ k) = a <<< k := by
  rw [natCast_mul_two_pow, BitVec.ofInt_natCast]; rfl

/-- A logical right shift divides the unsigned value. -/
theorem ofInt_toNat_div_two_pow (a : BitVec n) (k : Nat) : BitVec.ofInt n (a.toNat / 2 ^ k) = a >>> k := by
  have hdiv : (a.toNat : Int) / 2 ^ k = ((a >>> k).toNat : Int) := by
    rw [BitVec.toNat_ushiftRight, Nat.shiftRight_eq_div_pow, Int.natCast_ediv, Int.natCast_pow]; rfl
  rw [hdiv, BitVec.ofInt_natCast, BitVec.ofNat_toNat, BitVec.setWidth_eq]

/-- An arithmetic right shift divides the signed value, rounding down. -/
theorem ofInt_toInt_div_two_pow (a : BitVec n) (k : Nat) : BitVec.ofInt n (a.toInt / 2 ^ k) = a.sshiftRight k := by
  rw [BitVec.sshiftRight_eq, Int.shiftRight_eq_div_pow, Int.natCast_pow]; rfl

/-- A sum does not overflow exactly if it is a signed value (spec/41_alu.md R312). -/
theorem addOverflow_eq_false_iff (a b : BitVec n) :
    addOverflow a b = false ↔ -2 ^ (n - 1) ≤ a.toInt + b.toInt ∧ a.toInt + b.toInt < 2 ^ (n - 1) := by
  have heq : addOverflow a b = BitVec.saddOverflow a b := (BitVec.saddOverflow_eq a b).symm
  rw [heq, BitVec.saddOverflow, Bool.or_eq_false_iff, decide_eq_false_iff_not, decide_eq_false_iff_not]
  omega

/-- A difference does not overflow exactly if it is a signed value (R312). -/
theorem subOverflow_eq_false_iff (a b : BitVec n) :
    subOverflow a b = false ↔ -2 ^ (n - 1) ≤ a.toInt - b.toInt ∧ a.toInt - b.toInt < 2 ^ (n - 1) := by
  have heq : subOverflow a b = BitVec.ssubOverflow a b := by
    rw [BitVec.ssubOverflow_eq, subOverflow]
    generalize a.msb = x, b.msb = y, (a - b).msb = z
    revert x y z
    decide
  rw [heq, BitVec.ssubOverflow, Bool.or_eq_false_iff, decide_eq_false_iff_not, decide_eq_false_iff_not]
  omega

end

/-- An immediate has the value of its sign extension. -/
theorem imm_toInt_eq (imm : BitVec 16) {n : Nat} (h : 16 ≤ n) : imm.toInt = (imm.signExtend n).toInt :=
  (BitVec.toInt_signExtend_of_le h).symm

theorem zext16_eq (imm : BitVec 16) : BitVec.ofNat 64 imm.toNat = zext16 imm := BitVec.ofNat_toNat ..

theorem count5_eq (v : Dword) : count5 v = v.toNat % 32 := by rw [count5, BitVec.extractLsb'_toNat, Nat.shiftRight_zero]
theorem count6_eq (v : Dword) : count6 v = v.toNat % 64 := by rw [count6, BitVec.extractLsb'_toNat, Nat.shiftRight_zero]

/-- The count of a 32-bit variable shift is the same of the register and of its low word. -/
theorem extractLsb'_low32 (v : Dword) : ((low32 v).extractLsb' 0 5).toNat = v.toNat % 32 := by
  rw [BitVec.extractLsb'_toNat, Nat.shiftRight_zero, low32, BitVec.toNat_setWidth]
  omega

/-- LUI puts its immediate into the upper half of the word (spec/41_alu.md R322). -/
theorem lui_word (imm : BitVec 16) : word32 (imm.toNat * 2 ^ 16) = sext32 (imm ++ 0#16) := by
  have h : BitVec.ofInt 32 (imm.toNat * 2 ^ 16) = imm ++ 0#16 := by
    rw [natCast_mul_two_pow, BitVec.ofInt_natCast]
    refine BitVec.eq_of_toNat_eq ?_
    have himm := imm.isLt
    rw [BitVec.toNat_append, BitVec.toNat_ofNat, BitVec.toNat_ofNat, Nat.zero_mod, Nat.or_zero, Nat.shiftLeft_eq]
    omega
  exact congrArg sext32 h

theorem flag_signed_lt (a b : Dword) : flag (s64 a < s64 b) = truth (a.slt b) := rfl

theorem flag_unsigned_lt (a b : Dword) : flag (u64 a < u64 b) = truth (a.ult b) := by
  have h : decide (u64 a < u64 b) = a.ult b := decide_eq_decide.2 Int.ofNat_lt
  rw [h]; rfl

/-! ## Instructions that write one register and raise nothing -/

/-- A free value that was drawn changes nothing else. -/
theorem WritesGpr.drawn {r : RegNum} {v : Dword} {s t : State} (h : WritesGpr r v s t) (n : Nat) : WritesGpr r v s (t.drawn n) where
  gpr := h.gpr
  hiLo := h.hiLo
  fpu := { h.fpu with }
  system := ⟨h.system.cp0, h.system.tlb, h.system.link, { h.system.platform with }⟩
  memory := { h.memory with }
  control := h.control

theorem advance_seq_drawn (s : State) (n : Nat) : advance .seq (s.drawn n) = (advance .seq s).drawn n := by
  unfold advance
  cases hd : s.delay <;> simp only [State.drawn_delay, hd] <;> rfl

theorem writesGpr_advance_drawn (s : State) (r : RegNum) (v : Dword) (n : Nat) :
    WritesGpr r v s (advance .seq ((s.writeGpr r v).drawn n)) := by
  rw [advance_seq_drawn]
  exact (writesGpr_advance s r v).drawn n

/-- The answer writes the result, or some value if an operand is improper, and nothing else. -/
def WritesResult (w : GprResult) (s : State) (r : Result) : Prop :=
  ∃ t v, r = .next t ∧ (w.proper = true → v = w.value) ∧ WritesGpr w.rd v s t

section
variable {s : State} {rd : RegNum}

/-- A 32-bit operation (spec/41_alu.md R311). -/
theorem writesResult_write32 {proper : Bool} {x : Int} {w : Word} (h : BitVec.ofInt 32 x = w) :
    WritesResult ⟨rd, word32 x, false, proper⟩ s (finish (write32 rd proper w s)) := by
  refine ⟨_, _, finish_goOn _, fun hp => ?_, writesGpr_advance_drawn s rd _ _⟩
  obtain rfl : proper = true := hp
  exact (congrArg sext32 h).symm

/-- An operation on whole registers that any width has. -/
theorem writesResult_alu64 {value v : Dword} {wide : Bool} (h : value = v) :
    WritesResult ⟨rd, value, wide, true⟩ s (finish (alu64 rd v s)) :=
  ⟨_, v, finish_goOn _, fun _ => h.symm, writesGpr_advance s rd v⟩

/-- A 64-bit operation behind its gate (R313). -/
theorem writesResult_wide {x : Int} {v : Dword} (hw : WideOk true s) (h : BitVec.ofInt 64 x = v) :
    WritesResult ⟨rd, word64 x, true, true⟩ s (finish (need64 s (alu64 rd v s))) := by
  rw [need64_ok (hw rfl)]
  exact writesResult_alu64 h

end

section
variable {i : Instr} {s : State} {w : GprResult}

theorem writesResult_of_aluResult (h : aluResult s i = some w) (hw : WideOk w.wide s) : WritesResult w s (exec i s) := by
  cases i with
  | addiu rt rs imm => cases h; rw [imm_toInt_eq imm (show 16 ≤ 32 by omega)]; exact writesResult_write32 (ofInt_toInt_add _ _)
  | addu => cases h; exact writesResult_write32 (ofInt_toInt_add _ _)
  | subu => cases h; exact writesResult_write32 (ofInt_toInt_sub _ _)
  | lui rt imm => cases h; exact writesResult_alu64 (lui_word imm)
  | slti rt rs imm => cases h; rw [← sext16_toInt]; exact writesResult_alu64 (flag_signed_lt _ _)
  | sltiu rt rs imm => cases h; exact writesResult_alu64 (flag_unsigned_lt _ _)
  | slt => cases h; exact writesResult_alu64 (flag_signed_lt _ _)
  | sltu => cases h; exact writesResult_alu64 (flag_unsigned_lt _ _)
  | andi | ori | xori => cases h; rw [zext16_eq]; exact writesResult_alu64 rfl
  | and | or | xor | nor => cases h; exact writesResult_alu64 rfl
  | daddiu rt rs imm => cases h; rw [← sext16_toInt]; exact writesResult_wide hw (ofInt_toInt_add _ _)
  | daddu => cases h; exact writesResult_wide hw (ofInt_toInt_add _ _)
  | dsubu => cases h; exact writesResult_wide hw (ofInt_toInt_sub _ _)
  | _ => cases h

theorem writesResult_of_shiftResult (h : shiftResult s i = some w) (hw : WideOk w.wide s) : WritesResult w s (exec i s) := by
  cases i with
  | sll => cases h; exact writesResult_write32 (ofInt_toNat_mul_two_pow _ _)
  | srl => cases h; exact writesResult_write32 (ofInt_toNat_div_two_pow _ _)
  | sra => cases h; exact writesResult_write32 (ofInt_toInt_div_two_pow _ _)
  | sllv => cases h; rw [← count5_eq]; exact writesResult_write32 (ofInt_toNat_mul_two_pow _ _)
  | srlv => cases h; rw [← extractLsb'_low32, Bool.and_comm]; exact writesResult_write32 (ofInt_toNat_div_two_pow _ _)
  | srav => cases h; rw [← extractLsb'_low32, Bool.and_comm]; exact writesResult_write32 (ofInt_toInt_div_two_pow _ _)
  | dsll | dsll32 => cases h; exact writesResult_wide hw (ofInt_toNat_mul_two_pow _ _)
  | dsrl | dsrl32 => cases h; exact writesResult_wide hw (ofInt_toNat_div_two_pow _ _)
  | dsra | dsra32 => cases h; exact writesResult_wide hw (ofInt_toInt_div_two_pow _ _)
  | dsllv => cases h; rw [← count6_eq]; exact writesResult_wide hw (ofInt_toNat_mul_two_pow _ _)
  | dsrlv => cases h; rw [← count6_eq]; exact writesResult_wide hw (ofInt_toNat_div_two_pow _ _)
  | dsrav => cases h; rw [← count6_eq]; exact writesResult_wide hw (ofInt_toInt_div_two_pow _ _)
  | _ => cases h

end

/-- Settles O7: each instruction is one of three forms, and its operation on words is the rule's operation on integers. -/
theorem aluAndShiftResults : Obligations.AluAndShiftResults := by
  rintro i s w (h | h) hw
  · exact writesResult_of_aluResult h hw
  · exact writesResult_of_shiftResult h hw

/-! ## Sums and differences that may raise Overflow -/

/-- The answer writes the exact result if it is a signed value of the width, and is Overflow if not; on improper operands either. -/
def WritesOrOverflows (w : TrappingResult) (s : State) (r : Result) : Prop :=
  (w.proper = true → FitsSigned w.wide w.exact →
    ∃ t, r = .next t ∧ WritesGpr w.rd (if w.wide then word64 w.exact else word32 w.exact) s t) ∧
  (w.proper = true → ¬FitsSigned w.wide w.exact → r = .next (takeException .overflow s)) ∧
  (w.proper = false →
    (∃ t v, r = .next t ∧ WritesGpr w.rd v s t) ∨ ∃ n, r = .next (takeException .overflow (s.drawn n)))

section
variable {s : State} {rd : RegNum} {x : Int} {overflow : Bool}

theorem writesOrOverflows_trapping32 {proper : Bool} {w : Word} (ho : overflow = false ↔ FitsSigned false x)
    (h : BitVec.ofInt 32 x = w) : WritesOrOverflows ⟨rd, x, false, proper⟩ s (finish (trapping32 proper overflow w rd s)) := by
  refine ⟨fun hp hfit => ?_, fun hp hfit => ?_, fun hp => ?_⟩
  · obtain rfl : proper = true := hp
    obtain rfl := ho.2 hfit
    subst h
    exact ⟨_, rfl, writesGpr_advance s rd (word32 x)⟩
  · obtain rfl : proper = true := hp
    obtain rfl : overflow = true := Bool.eq_true_of_not_eq_false (mt ho.1 hfit)
    rfl
  · obtain rfl : proper = false := hp
    rw [trapping32, if_neg Bool.false_ne_true]
    split
    · exact .inr ⟨2, rfl⟩
    · exact .inl ⟨_, _, rfl, writesGpr_advance_drawn s rd _ 2⟩

theorem writesOrOverflows_trapping64 {v : Dword} (hw : WideOk true s) (ho : overflow = false ↔ FitsSigned true x)
    (h : BitVec.ofInt 64 x = v) : WritesOrOverflows ⟨rd, x, true, true⟩ s (finish (need64 s (trapping64 overflow v rd s))) := by
  rw [need64_ok (hw rfl)]
  refine ⟨fun _ hfit => ?_, fun _ hfit => ?_, nofun⟩
  · obtain rfl := ho.2 hfit
    subst h
    exact ⟨_, rfl, writesGpr_advance s rd (word64 x)⟩
  · obtain rfl : overflow = true := Bool.eq_true_of_not_eq_false (mt ho.1 hfit)
    rfl

end

/-- Settles O8: Overflow is raised exactly if the exact result is no signed value of the width. -/
theorem trappingArithmetic : Obligations.TrappingArithmetic := by
  intro i s w h hw
  show WritesOrOverflows w s (exec i s)
  cases i with
  | addi rt rs imm =>
    cases h
    rw [imm_toInt_eq imm (show 16 ≤ 32 by omega)]
    exact writesOrOverflows_trapping32 (addOverflow_eq_false_iff _ _) (ofInt_toInt_add _ _)
  | add => cases h; exact writesOrOverflows_trapping32 (addOverflow_eq_false_iff _ _) (ofInt_toInt_add _ _)
  | sub => cases h; exact writesOrOverflows_trapping32 (subOverflow_eq_false_iff _ _) (ofInt_toInt_sub _ _)
  | daddi rt rs imm =>
    cases h
    rw [← sext16_toInt]
    exact writesOrOverflows_trapping64 hw (addOverflow_eq_false_iff _ _) (ofInt_toInt_add _ _)
  | dadd => cases h; exact writesOrOverflows_trapping64 hw (addOverflow_eq_false_iff _ _) (ofInt_toInt_add _ _)
  | dsub => cases h; exact writesOrOverflows_trapping64 hw (subOverflow_eq_false_iff _ _) (ofInt_toInt_sub _ _)
  | _ => cases h

end Sys2Proof.Machine
end

section
/-! SUPPORT. The halves of a product and the quotient of words as operations on integers; multiply and divide (O9), the moves of HI and LO
(O10), the integer conditional moves (O11). -/

namespace Sys2Proof.Machine

-- One thread, as in Sys2Proof/Tests: the whole text stays within the check's memory limit.
set_option Elab.async false

/-! ## Products and quotients of words as operations on integers -/

/-- The bits of an integer from `k` up are those of its quotient by `2 ^ k`, rounded down. -/
theorem extractLsb'_ofInt {w k m : Nat} (h : k + m ≤ w) (x : Int) :
    (BitVec.ofInt w x).extractLsb' k m = BitVec.ofInt m (x / 2 ^ k) := by
  obtain ⟨j, rfl⟩ := Nat.exists_eq_add_of_le h
  have hsplit : x / 2 ^ k = x % 2 ^ (k + m + j) / 2 ^ k + x / 2 ^ (k + m + j) * 2 ^ j * 2 ^ m := by
    have hk : (2 : Int) ^ k ≠ 0 := by positivity
    have hpow : (2 : Int) ^ j * 2 ^ m * 2 ^ k = 2 ^ (k + m + j) := by ring
    rw [← Int.add_mul_ediv_right _ _ hk, Int.mul_assoc, Int.mul_assoc, ← Int.mul_assoc (2 ^ j), hpow, Int.emod_add_ediv_mul]
  refine BitVec.eq_of_toNat_eq (Int.ofNat_inj.1 ?_)
  rw [BitVec.extractLsb'_toNat, BitVec.toNat_ofInt, BitVec.toNat_ofInt, Nat.shiftRight_eq_div_pow]
  push_cast
  rw [Int.toNat_of_nonneg (Int.emod_nonneg _ (by positivity)), Int.toNat_of_nonneg (Int.emod_nonneg _ (by positivity)), hsplit,
    Int.add_mul_emod_self_right]

theorem extractLsb'_zero_ofInt {w m : Nat} (h : m ≤ w) (x : Int) : (BitVec.ofInt w x).extractLsb' 0 m = BitVec.ofInt m x := by
  rw [extractLsb'_ofInt (by omega), Int.pow_zero, Int.ediv_one]

section
variable {n : Nat}

theorem signExtend_mul_signExtend (w : Nat) (a b : BitVec n) :
    a.signExtend w * b.signExtend w = BitVec.ofInt w (a.toInt * b.toInt) :=
  (BitVec.ofInt_mul _ _).symm

theorem setWidth_mul_setWidth (w : Nat) (a b : BitVec n) : a.setWidth w * b.setWidth w = BitVec.ofInt w (a.toNat * b.toNat) := by
  rw [BitVec.ofInt_mul, BitVec.ofInt_natCast, BitVec.ofInt_natCast, BitVec.ofNat_toNat, BitVec.ofNat_toNat]

/-- The upper half of a signed product, formed in a word twice as wide. -/
theorem ofInt_toInt_mul_div (a b : BitVec n) :
    BitVec.ofInt n (a.toInt * b.toInt / 2 ^ n) = (a.signExtend (n + n) * b.signExtend (n + n)).extractLsb' n n := by
  rw [signExtend_mul_signExtend, extractLsb'_ofInt le_rfl]

theorem ofInt_toInt_mul (a b : BitVec n) :
    BitVec.ofInt n (a.toInt * b.toInt) = (a.signExtend (n + n) * b.signExtend (n + n)).extractLsb' 0 n := by
  rw [signExtend_mul_signExtend, extractLsb'_zero_ofInt (Nat.le_add_left n n)]

/-- The upper half of an unsigned product. -/
theorem ofInt_toNat_mul_div (a b : BitVec n) :
    BitVec.ofInt n (a.toNat * b.toNat / 2 ^ n) = (a.setWidth (n + n) * b.setWidth (n + n)).extractLsb' n n := by
  rw [setWidth_mul_setWidth, extractLsb'_ofInt le_rfl]

theorem ofInt_toNat_mul (a b : BitVec n) :
    BitVec.ofInt n (a.toNat * b.toNat) = (a.setWidth (n + n) * b.setWidth (n + n)).extractLsb' 0 n := by
  rw [setWidth_mul_setWidth, extractLsb'_zero_ofInt (Nat.le_add_left n n)]

theorem ofInt_toInt_tmod (a b : BitVec n) : BitVec.ofInt n (a.toInt.tmod b.toInt) = a.srem b := by
  rw [← BitVec.toInt_srem, BitVec.ofInt_toInt]

/-- The quotient toward zero; the one that is no signed value of the width wraps. -/
theorem ofInt_toInt_tdiv (a b : BitVec n) : BitVec.ofInt n (a.toInt.tdiv b.toInt) = a.sdiv b :=
  BitVec.eq_of_toInt_eq (by rw [BitVec.toInt_ofInt, BitVec.toInt_sdiv])

theorem ofInt_toNat_emod (a b : BitVec n) : BitVec.ofInt n (a.toNat % b.toNat) = a.umod b := by
  rw [← Int.natCast_emod, BitVec.ofInt_natCast, ← BitVec.toNat_umod, BitVec.ofNat_toNat, BitVec.setWidth_eq]; rfl

theorem ofInt_toNat_ediv (a b : BitVec n) : BitVec.ofInt n (a.toNat / b.toNat) = a.udiv b := by
  rw [← Int.natCast_ediv, BitVec.ofInt_natCast, ← BitVec.toNat_udiv, BitVec.ofNat_toNat, BitVec.setWidth_eq]; rfl

theorem toInt_bne_zero (d : BitVec n) : (d.toInt != 0) = (d != 0#n) := by
  rw [Bool.eq_iff_iff, bne_iff_ne, bne_iff_ne, ← BitVec.toInt_ne, BitVec.toInt_zero]

theorem toNat_bne_zero (d : BitVec n) : ((d.toNat : Int) != 0) = (d != 0#n) := by
  rw [Bool.eq_iff_iff, bne_iff_ne, bne_iff_ne, Int.natCast_ne_zero, BitVec.toNat_ne, BitVec.toNat_zero]

end

/-! ## Instructions that write HI and LO -/

/-- HI and LO written, free values drawn, and control gone on. -/
theorem writesHiLo_advance (s : State) (hi lo : Dword) (n : Nat) :
    WritesHiLo hi lo s (advance .seq (((s.setHi hi).setLo lo).drawn n)) where
  gpr := readGpr_congr (by simp)
  hiLo := by simp
  fpu := ⟨readFgr_congr (by simp), by simp⟩
  system := ⟨by simp, by simp, ⟨by simp, by simp, by simp⟩, by constructor <;> simp⟩
  memory := ⟨fun _ => by simp, by simp, by simp, by simp, by simp⟩
  control := wentOn_advance rfl rfl

/-- The answer writes HI and LO with the results, or with some values if these are not known, and nothing else. -/
def WritesHiLoResult (w : HiLoResult) (s : State) (r : Result) : Prop :=
  ∃ t hi lo, r = .next t ∧ (w.known = true → hi = w.hi ∧ lo = w.lo) ∧ WritesHiLo hi lo s t

section
variable {s : State} {w : HiLoResult}

theorem writesHiLoResult_writeHiLo {hi lo : Dword} (hhi : w.hi = hi) (hlo : w.lo = lo) :
    WritesHiLoResult w s (finish (writeHiLo hi lo s)) :=
  ⟨_, hi, lo, rfl, fun _ => ⟨hhi.symm, hlo.symm⟩, writesHiLo_advance s hi lo 0⟩

theorem writesHiLoResult_freeHiLo (h : w.known = false) : WritesHiLoResult w s (finish (freeHiLo s)) :=
  ⟨_, _, _, rfl, fun hk => absurd hk (h ▸ Bool.false_ne_true), writesHiLo_advance s _ _ 2⟩

/-- Known results, else free values (spec/42_muldiv_moves.md R370, R373). -/
theorem writesHiLoResult_ite {hi lo : Dword} {c : Bool} (hc : w.known = c) (hhi : w.hi = hi) (hlo : w.lo = lo) :
    WritesHiLoResult w s (finish (if c then writeHiLo hi lo s else freeHiLo s)) := by
  cases c with
  | true => exact writesHiLoResult_writeHiLo hhi hlo
  | false => exact writesHiLoResult_freeHiLo hc

/-- A 64-bit operation behind its gate. -/
theorem writesHiLoResult_wide {k : Res Flow} (hw : WideOk true s) (h : WritesHiLoResult w s (finish k)) :
    WritesHiLoResult w s (finish (need64 s k)) := by
  rwa [need64_ok (hw rfl)]

end

section
variable {i : Instr} {s : State} {w : HiLoResult}

theorem writesHiLoResult_of_hiLoResult (h : hiLoResult s i = some w) (hw : WideOk w.wide s) : WritesHiLoResult w s (exec i s) := by
  cases i with
  | mult =>
    cases h
    exact writesHiLoResult_ite rfl (congrArg sext32 (ofInt_toInt_mul_div _ _)) (congrArg sext32 (ofInt_toInt_mul _ _))
  | multu =>
    cases h
    exact writesHiLoResult_ite rfl (congrArg sext32 (ofInt_toNat_mul_div _ _)) (congrArg sext32 (ofInt_toNat_mul _ _))
  | dmult => cases h; exact writesHiLoResult_wide hw (writesHiLoResult_writeHiLo (ofInt_toInt_mul_div _ _) (ofInt_toInt_mul _ _))
  | dmultu => cases h; exact writesHiLoResult_wide hw (writesHiLoResult_writeHiLo (ofInt_toNat_mul_div _ _) (ofInt_toNat_mul _ _))
  | div rs rt =>
    cases h
    exact writesHiLoResult_ite (congrArg (properPair s rs rt && ·) (toInt_bne_zero _)) (congrArg sext32 (ofInt_toInt_tmod _ _))
      (congrArg sext32 (ofInt_toInt_tdiv _ _))
  | divu rs rt =>
    cases h
    exact writesHiLoResult_ite (congrArg (properPair s rs rt && ·) (toNat_bne_zero _)) (congrArg sext32 (ofInt_toNat_emod _ _))
      (congrArg sext32 (ofInt_toNat_ediv _ _))
  | ddiv =>
    cases h
    exact writesHiLoResult_wide hw (writesHiLoResult_ite (toInt_bne_zero _) (ofInt_toInt_tmod _ _) (ofInt_toInt_tdiv _ _))
  | ddivu =>
    cases h
    exact writesHiLoResult_wide hw (writesHiLoResult_ite (toNat_bne_zero _) (ofInt_toNat_emod _ _) (ofInt_toNat_ediv _ _))
  | _ => cases h

end

/-- Settles O9: each operation on words is the rule's operation on integers. -/
theorem multiplyDivide : Obligations.MultiplyDivide := fun _ _ _ => writesHiLoResult_of_hiLoResult

/-! ## Moves of HI and LO -/

/-- Settles O10: MTHI and MTLO write the other half with itself. -/
theorem hiLoMoves : Obligations.HiLoMoves := by
  refine fun s r => ⟨⟨_, rfl, ?_⟩, ⟨_, rfl, ?_⟩, ⟨_, rfl, ?_⟩, ⟨_, rfl, ?_⟩⟩
  · exact writesGpr_advance s r s.hi
  · exact writesGpr_advance s r s.lo
  · exact writesHiLo_advance s (readGpr s r) s.lo 0
  · exact writesHiLo_advance s s.hi (readGpr s r) 0

/-! ## Integer conditional moves -/

/-- A copy that depends on a condition writes the register or has no effect. -/
theorem moveIf_effect {c : Bool} {p : Prop} [Decidable p] (hc : c = true ↔ p) (rd rs : RegNum) (s : State) :
    ∃ t, finish (moveIf c rd rs s) = .next t ∧ if p then WritesGpr rd (readGpr s rs) s t else NoEffect s t := by
  refine ⟨_, rfl, ?_⟩
  cases c with
  | true => rw [if_pos (hc.1 rfl)]; exact writesGpr_advance s rd _
  | false => rw [if_neg (fun hp => Bool.false_ne_true (hc.2 hp))]; exact noEffect_advance s

/-- No compare just ahead is unseen: the present condition bit (spec/70_reset_and_hazards.md R872). -/
theorem conditionRead_of_fccSettled {s : State} (h : FccSettled s) (cc : BitVec 3) : conditionRead s cc = conditionBit s.fcr31 cc := by
  unfold conditionRead
  obtain hfresh | hold := h
  · rw [hfresh]; rfl
  · rw [hold, ite_self]

/-- Settles O11: behind their gates the conditional moves are one copy, under four conditions. -/
theorem conditionalMoves : Obligations.ConditionalMoves := by
  refine ⟨fun s rd rs rt h4 => ⟨?_, ?_⟩, fun s rd rs cc h1 h4 =>
    ⟨conditionRead s cc, fun hf => conditionRead_of_fccSettled hf cc, ?_, ?_⟩⟩
  · show ∃ t, execMovn rd rs rt s = .next t ∧ _
    rw [execMovn, needMips4_ok h4]
    exact moveIf_effect bne_iff_ne rd rs s
  · show ∃ t, execMovz rd rs rt s = .next t ∧ _
    rw [execMovz, needMips4_ok h4]
    exact moveIf_effect beq_iff_eq rd rs s
  · show ∃ t, execMovf rd rs cc s = .next t ∧ _
    rw [execMovf, needCp1_ok h1, needMips4_ok h4]
    exact moveIf_effect (Bool.not_eq_true' _).to_iff rd rs s
  · show ∃ t, execMovt rd rs cc s = .next t ∧ _
    rw [execMovt, needCp1_ok h1, needMips4_ok h4]
    exact moveIf_effect Iff.rfl rd rs s

end Sys2Proof.Machine
end

section
/-! SUPPORT. The step that comes to an instruction (O4); jumps and branches of the integer unit, each one transfer of control
(O12, O14). -/

namespace Sys2Proof.Machine

-- One thread, as in Sys2Proof/Tests: the whole text stays within the check's memory limit.
set_option Elab.async false

/-! ## The step that comes to an instruction -/

theorem runBytes_of_ok {s : State} {bs : List Byte} {i : Instr} (h : decode s.boot.bigEndianMem bs = .ok i) :
    runBytes bs s = retire i (exec i s) := by
  simp only [runBytes, h]

/-- Settles O4: the step runs the fetched bytes, and these decode. -/
theorem stepRunsDecodedInstruction : Obligations.StepRunsDecodedInstruction := by
  intro s u v bs i hr hf hd hi
  rw [step_of_fetched hr hf hi, runBytes_of_ok hd]

/-! ## Delay slots -/

section
variable {s : State}

theorem notInSlot_ok {k : Res Flow} (h : s.delay = none) : notInSlot s k = k := by
  rw [notInSlot, h]; rfl

theorem notInSlot_not {k : Res Flow} (h : s.delay.isSome = true) : notInSlot s k = .refuse .controlInDelaySlot := if_pos h

end

/-! ## Targets as operations on integers -/

theorem relativeTarget_eq (s : State) (o : BitVec 16) : relativeTarget s o = branchTarget s o := by
  have hshift : BitVec.ofInt 64 (4 * (sext16 o).toInt) = sext16 o <<< 2 := by
    rw [BitVec.ofInt_mul, BitVec.ofInt_toInt, BitVec.shiftLeft_eq_mul_twoPow, BitVec.mul_comm]; rfl
  rw [relativeTarget, branchTarget, word64, s64, ← sext16_toInt, BitVec.ofInt_add, BitVec.ofInt_add, BitVec.ofInt_toInt, hshift]; rfl

/-- The upper 36 bits of an address with a 28-bit word index below them (spec/43_jumps_branches.md R410). -/
theorem regionTarget_eq (s : State) (t : BitVec 26) : regionTarget s t = jumpTarget s t := by
  have hpc := (s.pc + 4).isLt
  have ht := t.isLt
  refine BitVec.eq_of_toNat_eq ?_
  rw [regionTarget, jumpTarget, BitVec.toNat_ofNat, BitVec.toNat_append, BitVec.toNat_append, BitVec.extractLsb'_toNat,
    Nat.shiftRight_eq_div_pow, ← Nat.shiftLeft_add_eq_or_of_lt ht, ← Nat.shiftLeft_add_eq_or_of_lt (0#2).isLt, Nat.shiftLeft_eq,
    Nat.shiftLeft_eq, BitVec.toNat_ofNat]
  omega

/-! ## Conditions as comparisons of integers -/

section
variable (s : State) (rs rt : RegNum)

theorem ne_eq_bne : decide (readGpr s rs ≠ readGpr s rt) = (readGpr s rs != readGpr s rt) := by
  rw [Bool.eq_iff_iff, decide_eq_true_iff, bne_iff_ne]

theorem neg_eq_negative : decide (s64 (readGpr s rs) < 0) = negative s rs := BitVec.msb_eq_toInt.symm

theorem nonneg_eq_not_negative : decide (0 ≤ s64 (readGpr s rs)) = !negative s rs := by
  rw [← neg_eq_negative, ← decide_not, decide_eq_decide, Int.not_lt]

theorem nonpos_eq_notPositive : decide (s64 (readGpr s rs) ≤ 0) = notPositive s rs := by
  have hzero : s64 (readGpr s rs) = 0 ↔ readGpr s rs = 0 := by rw [s64, ← BitVec.toInt_inj]; rfl
  rw [notPositive, ← neg_eq_negative, Bool.eq_iff_iff, Bool.or_eq_true, decide_eq_true_iff, decide_eq_true_iff, beq_iff_eq, ← hzero,
    Int.le_iff_lt_or_eq]

theorem pos_eq_not_notPositive : decide (0 < s64 (readGpr s rs)) = !notPositive s rs := by
  rw [← nonpos_eq_notPositive, ← decide_not, decide_eq_decide, Int.not_le]

end

/-! ## A transfer of control -/

/-- Where control goes: to the target, past a nullified delay slot, or past the delay slot after executing it (R401, R402). -/
def BranchForm.flow (b : BranchForm) : Flow := if b.taken then .taken b.target else if b.likely then .nullify else .notTaken

/-- The state with the link register written (R405); without one the write goes to register 0, which discards it. -/
def BranchForm.linked (b : BranchForm) (s : State) : State := s.writeGpr (b.link.getD 0) (linkValue s)

/-- A general register after a link. -/
theorem BranchForm.readGpr_linked (b : BranchForm) (s : State) (q : RegNum) :
    readGpr (b.linked s) q = if b.link = some q ∧ q ≠ 0 then s.pc + 8 else readGpr s q := by
  rw [linked, linkValue, readGpr_writeGpr]
  refine if_congr ?_ rfl rfl
  cases b.link with
  | none => exact iff_of_false (fun ⟨h, hne⟩ => hne h) (fun ⟨h, _⟩ => nomatch h)
  | some r => rw [Option.getD_some, Option.some_inj, eq_comm]

/-- Linking and the transfer are all the effects of a jump or branch. -/
theorem BranchForm.branched (b : BranchForm) (s : State) : Branched b s (advance b.flow (b.linked s)) where
  taken ht := by simp [flow, ht, advance, linked]
  untaken ht hl := by simp [flow, ht, hl, advance, linked]
  nullified ht hl := by simp [flow, ht, hl, advance, linked]
  gpr q := by rw [readGpr_congr (advance_gpr _ _), readGpr_linked]
  hiLo := by simp [linked]
  fpu := ⟨readFgr_congr (by simp [linked]), by simp [linked]⟩
  system := ⟨by simp [linked], by simp [linked], ⟨by simp [linked], by simp [linked], by simp [linked]⟩, by constructor <;> simp [linked]⟩
  memory := ⟨fun _ => by simp [linked], by simp [linked], by simp [linked], by simp [linked], by simp [linked]⟩

/-- The answer is a jump or branch of the form: refused in a delay slot; outside one a legal form links and transfers control. -/
def Transfers (b : BranchForm) (s : State) (r : Result) : Prop :=
  ∃ k, r = finish (notInSlot s k) ∧ (b.legal = true → k = .ok b.flow (b.linked s))

section
variable {s : State}

/-- A transfer that may be refused by its operands. -/
theorem transfers_unless {b : BranchForm} {e : Refusal} {c : Bool} (hc : b.legal = !c) :
    Transfers b s (finish (notInSlot s (if c then .refuse e else .ok b.flow (b.linked s)))) := by
  refine ⟨_, rfl, fun hl => if_neg ?_⟩
  simpa [hc] using hl

section
variable {p c : Bool} (h : p = c) (rs : RegNum) (o : BitVec 16)
include h

theorem transfers_branch : Transfers ⟨p, relativeTarget s o, false, none, true⟩ s (finish (branch c o s)) := by
  subst h; rw [relativeTarget_eq]; exact ⟨_, rfl, fun _ => rfl⟩

theorem transfers_branchLikely : Transfers ⟨p, relativeTarget s o, true, none, true⟩ s (finish (branchLikely c o s)) := by
  subst h; rw [relativeTarget_eq]; exact ⟨_, rfl, fun _ => rfl⟩

theorem transfers_branchLink :
    Transfers ⟨p, relativeTarget s o, false, some 31, rs != 31⟩ s (finish (branchLink c rs o s)) := by
  subst h; rw [relativeTarget_eq]; exact transfers_unless rfl

theorem transfers_branchLinkLikely :
    Transfers ⟨p, relativeTarget s o, true, some 31, rs != 31⟩ s (finish (branchLinkLikely c rs o s)) := by
  subst h; rw [relativeTarget_eq]; exact transfers_unless rfl

end

/-- Every jump and branch of the integer unit: its condition and its target are those the rule states over integers. -/
theorem transfers_of_branchForm {i : Instr} {b : BranchForm} (h : branchForm s i = some b) : Transfers b s (exec i s) := by
  cases i with
  | j | jal => cases h; rw [regionTarget_eq]; exact ⟨_, rfl, fun _ => rfl⟩
  | jr => cases h; exact ⟨_, rfl, fun _ => rfl⟩
  | jalr => cases h; exact transfers_unless rfl
  | beq => cases h; exact transfers_branch rfl _
  | bne => cases h; exact transfers_branch (ne_eq_bne s _ _) _
  | blez => cases h; exact transfers_branch (nonpos_eq_notPositive s _) _
  | bgtz => cases h; exact transfers_branch (pos_eq_not_notPositive s _) _
  | bltz => cases h; exact transfers_branch (neg_eq_negative s _) _
  | bgez => cases h; exact transfers_branch (nonneg_eq_not_negative s _) _
  | beql => cases h; exact transfers_branchLikely rfl _
  | bnel => cases h; exact transfers_branchLikely (ne_eq_bne s _ _) _
  | blezl => cases h; exact transfers_branchLikely (nonpos_eq_notPositive s _) _
  | bgtzl => cases h; exact transfers_branchLikely (pos_eq_not_notPositive s _) _
  | bltzl => cases h; exact transfers_branchLikely (neg_eq_negative s _) _
  | bgezl => cases h; exact transfers_branchLikely (nonneg_eq_not_negative s _) _
  | bltzal => cases h; exact transfers_branchLink (neg_eq_negative s _) _ _
  | bgezal => cases h; exact transfers_branchLink (nonneg_eq_not_negative s _) _ _
  | bltzall => cases h; exact transfers_branchLinkLikely (neg_eq_negative s _) _ _
  | bgezall => cases h; exact transfers_branchLinkLikely (nonneg_eq_not_negative s _) _ _
  | _ => cases h

end

/-- Settles O12: outside a delay slot a legal form links, transfers control and does nothing else. -/
theorem jumpsAndBranches : Obligations.JumpsAndBranches := by
  intro i s b hb hlegal hslot
  obtain ⟨k, hexec, hk⟩ := transfers_of_branchForm hb
  exact ⟨_, by rw [hexec, notInSlot_ok hslot, hk hlegal, finish_ok], b.branched s⟩

/-! ## Refused transfers of control -/

theorem exec_of_fpBranchBit {i : Instr} {s : State} {cc : BitVec 3} (h : fpBranchBit i = some cc) :
    ∃ likely test o, exec i s = finish (fpBranch likely test cc o s) := by
  cases i with
  | bc1f | bc1t | bc1fl | bc1tl => cases h; exact ⟨_, _, _, rfl⟩
  | _ => cases h

section
variable {s : State} (h : s.delay = none) (c : Bool) (o : BitVec 16)
include h

/-- A linking branch that tests its own link register. -/
theorem branchLink_31 : branchLink c 31 o s = .refuse .linkBranchOn31 := by rw [branchLink, notInSlot_ok h]; rfl

theorem branchLinkLikely_31 : branchLinkLikely c 31 o s = .refuse .linkBranchOn31 := by rw [branchLinkLikely, notInSlot_ok h]; rfl

end

/-- Settles O14: the test for a delay slot comes first behind the gates; outside one the operands are tested. -/
theorem refusedControl : Obligations.RefusedControl := by
  refine ⟨fun i s b hb hslot => ?_, fun i s cc hi h1 h4 hslot => ?_, fun s h0 hslot => ?_, fun s r hslot => ?_, fun s o hslot => ?_⟩
  · obtain ⟨k, hexec, -⟩ := transfers_of_branchForm hb
    rw [hexec, notInSlot_not hslot, finish_refuse]
  · obtain ⟨likely, test, o, hexec⟩ := exec_of_fpBranchBit hi
    rw [hexec, fpBranch, needCp1_ok h1, needCc_ok h4, notInSlot_not hslot, finish_refuse]
  · show execEret s = _
    rw [execEret, needCp0_ok h0, notInSlot_not hslot, finish_refuse]
  · show execJalr r r s = _
    rw [execJalr, notInSlot_ok hslot, if_pos (beq_self_eq_true r), finish_refuse]
  · exact ⟨congrArg finish (branchLink_31 hslot _ o), congrArg finish (branchLink_31 hslot _ o),
      congrArg finish (branchLinkLikely_31 hslot _ o), congrArg finish (branchLinkLikely_31 hslot _ o)⟩

end Sys2Proof.Machine
end

section
/-! SUPPORT. Traps (O15), SYSCALL and BREAK (O16); SYNC, its code, and what the write buffer leaves behind when it is sent (O17). -/

namespace Sys2Proof

-- One thread, as in Sys2Proof/Tests: the whole text stays within the check's memory limit.
set_option Elab.async false

/-! ## Words with a 20-bit code (spec/30_encoding.md R235, spec/44_special_traps.md R441) -/

/-- The code comes back out of bits 25:6. -/
theorem extractLsb'_mkCode20 (op : BitVec 6) (code : BitVec 20) (fn : BitVec 6) :
    (mkCode20 op code fn).extractLsb' 6 20 = code := by
  apply BitVec.eq_of_getLsbD_eq; intro i hi
  simp only [mkCode20, BitVec.getLsbD_extractLsb', hi, decide_true, Bool.true_and]
  show BitVec.getLsbD (w := 6+20+6) _ _ = _
  simp only [BitVec.getLsbD_append]
  simp [hi]

/-- The four fields over SYNC's code are zero exactly if the code is. -/
theorem syncFields_eq_zero_iff (code : BitVec 20) :
    (rsOf (mkCode20 0 code 15) = 0 ∧ rtOf (mkCode20 0 code 15) = 0 ∧ rdOf (mkCode20 0 code 15) = 0 ∧ saOf (mkCode20 0 code 15) = 0) ↔
      code = 0 := by
  have hzero : mkR 0 0 0 0 0 15 = mkCode20 0 0 15 := by decide
  have hword : mkCode20 0 0 15 = mkCode20 0 code 15 ↔ code = 0 := by
    refine ⟨fun h => ?_, fun h => by rw [h]⟩
    rw [← extractLsb'_mkCode20 0 code 15, ← h, extractLsb'_mkCode20]
  rw [← hword, ← hzero, mkR_eq_iff]
  simp

theorem decodeWord_syscall (code : BitVec 20) : decodeWord (mkCode20 0 code 12) = .ok .syscall :=
  (decodeWord_special (opOf_mkCode20 ..)).trans (by simp [decodeSpecial])

theorem decodeWord_brk (code : BitVec 20) : decodeWord (mkCode20 0 code 13) = .ok .brk :=
  (decodeWord_special (opOf_mkCode20 ..)).trans (by simp [decodeSpecial])

/-- SYNC's code must be zero (R235 (b)). -/
theorem decodeWord_sync (code : BitVec 20) :
    decodeWord (mkCode20 0 code 15) = if code = 0 then .ok .sync else .error (.mustBeZero .none) := by
  have hfields : decodeWord (mkCode20 0 code 15) = mustBeZero .none (rsOf (mkCode20 0 code 15) == 0 && rtOf (mkCode20 0 code 15) == 0 &&
      rdOf (mkCode20 0 code 15) == 0 && saOf (mkCode20 0 code 15) == 0) .sync :=
    (decodeWord_special (opOf_mkCode20 ..)).trans (by simp [decodeSpecial])
  rw [hfields, mustBeZero]
  exact if_congr (by simpa [and_assoc] using syncFields_eq_zero_iff code) rfl rfl

end Sys2Proof

namespace Sys2Proof.Machine

/-! ## System call and breakpoint -/

/-- Settles O16: the decoder looks at no bit of the code, and the entry writes ExcCode. -/
theorem systemCallAndBreak : Obligations.SystemCallAndBreak :=
  ⟨fun code => ⟨decodeWord_syscall code, decodeWord_brk code⟩, fun _ => ⟨rfl, rfl, rfl, rfl⟩⟩

/-! ## Comparisons of registers as comparisons of integers -/

theorem signExtended_imm (imm : BitVec 16) : word64 imm.toInt = sext16 imm := by
  rw [← sext16_toInt, word64, BitVec.ofInt_toInt]

section
variable (a b : Dword)

theorem signed_lt_eq_slt : decide (s64 a < s64 b) = a.slt b := rfl

theorem signed_ge_eq_not_slt : decide (s64 b ≤ s64 a) = !a.slt b := by
  rw [← signed_lt_eq_slt, ← decide_not, decide_eq_decide, Int.not_lt]

theorem unsigned_lt_eq_ult : decide (u64 a < u64 b) = a.ult b := decide_eq_decide.2 Int.ofNat_lt

theorem unsigned_ge_eq_not_ult : decide (u64 b ≤ u64 a) = !a.ult b := by
  rw [← unsigned_lt_eq_ult, ← decide_not, decide_eq_decide, Int.not_lt]

end

/-! ## Traps -/

/-- Every trap instruction is one test, and its condition is the one the rule states over integers. -/
theorem exec_of_trapCondition {i : Instr} {s : State} {c : Bool} (h : trapCondition s i = some c) :
    exec i s = finish (trapIf c s) := by
  have tests : ∀ {p d : Bool}, some p = some c → p = d → finish (trapIf d s) = finish (trapIf c s) := by
    rintro p d ⟨⟩ rfl; rfl
  cases i with
  | tge => exact tests h (signed_ge_eq_not_slt _ _)
  | tgeu => exact tests h (unsigned_ge_eq_not_ult _ _)
  | tlt => exact tests h (signed_lt_eq_slt _ _)
  | tltu => exact tests h (unsigned_lt_eq_ult _ _)
  | teq => exact tests h rfl
  | tne => exact tests h decide_not
  | tgei rs imm => rw [trapCondition, ← sext16_toInt] at h; exact tests h (signed_ge_eq_not_slt _ _)
  | tgeiu rs imm => rw [trapCondition, signExtended_imm] at h; exact tests h (unsigned_ge_eq_not_ult _ _)
  | tlti rs imm => rw [trapCondition, ← sext16_toInt] at h; exact tests h (signed_lt_eq_slt _ _)
  | tltiu rs imm => rw [trapCondition, signExtended_imm] at h; exact tests h (unsigned_lt_eq_ult _ _)
  | teqi rs imm => rw [trapCondition, signExtended_imm] at h; exact tests h rfl
  | tnei rs imm => rw [trapCondition, signExtended_imm] at h; exact tests h decide_not
  | _ => cases h

/-- Settles O15: the test takes the Trap exception or goes on. -/
theorem trapsOnCondition : Obligations.TrapsOnCondition := by
  intro i s c hc
  rw [exec_of_trapCondition hc]
  refine ⟨?_, ?_⟩
  · rintro rfl; exact finish_exc .trap s
  · rintro rfl; exact ⟨_, finish_goOn s, noEffect_advance s⟩

/-! ## One effect after another -/

section
variable {s t u : State}

theorem SameCpu.trans (h : SameCpu s t) (g : SameCpu t u) : SameCpu s u :=
  ⟨fun r => (g.gpr r).trans (h.gpr r), g.hi.trans h.hi, g.lo.trans h.lo⟩

theorem SameFpu.trans (h : SameFpu s t) (g : SameFpu t u) : SameFpu s u :=
  ⟨fun r => (g.fgr r).trans (h.fgr r), g.fcr31.trans h.fcr31⟩

theorem SameLink.trans (h : SameLink s t) (g : SameLink t u) : SameLink s u := by
  obtain ⟨hbit, haddr, hknown⟩ := h
  obtain ⟨gbit, gaddr, gknown⟩ := g
  exact ⟨gbit.trans hbit, gaddr.trans haddr, gknown.trans hknown⟩

theorem SamePlatform.trans (h : SamePlatform s t) (g : SamePlatform t u) : SamePlatform s u where
  intReg := g.intReg.trans h.intReg
  intPin := g.intPin.trans h.intPin
  nmi := by
    obtain ⟨hpin, hseen, hpending⟩ := h.nmi
    obtain ⟨gpin, gseen, gpending⟩ := g.nmi
    exact ⟨gpin.trans hpin, gseen.trans hseen, gpending.trans hpending⟩
  timer := g.timer.trans h.timer
  standby := g.standby.trans h.standby
  boot := g.boot.trans h.boot
  map := g.map.trans h.map
  entered := g.entered.trans h.entered

theorem SameSystem.trans (h : SameSystem s t) (g : SameSystem t u) : SameSystem s u :=
  ⟨g.cp0.trans h.cp0, g.tlb.trans h.tlb, h.link.trans g.link, h.platform.trans g.platform⟩

end

/-! ## What sending the buffered writes leaves behind -/

theorem OutsideOnly.dcache {s t : State} (h : OutsideOnly s t) : t.dcache = s.dcache := by rw [h]
theorem OutsideOnly.icache {s t : State} (h : OutsideOnly s t) : t.icache = s.icache := by rw [h]

/-- Sending the buffered writes changes no register and leaves control where it stands. -/
theorem keptByError_drainAll (s : State) : KeptByError s (drainAll s) :=
  (outsideOnly_drainAll s).memorySide.keptByError (outsideOnly_drainAll s).llBit

theorem slineAt_advance (f : Flow) (s : State) (j : Nat) : slineAt (advance f s) j = slineAt s j :=
  slineAt_congr (advance_scache f s) (advance_scacheRest f s) j

/-- A sent line, in the secondary cache exactly if that is in use and the line's page is a write-back page (spec/20_memory.md R194). -/
theorem slineAt_sendEntry_block (pa : PAddr) (vi : BitVec 2) (r p : Bool) (bs : List Byte) (par : BitVec 32) (s : State) (j : Nat) :
    slineAt (sendEntry (.block pa vi r p bs par) s) j =
      if p = true ∧ s.boot.scEnable = true ∧ s.cp0.configSE = true ∧ j = scacheIndex s.boot pa then
        ⟨true, scacheTag pa, lineOfBytes bs, par⟩ else slineAt s j := by
  by_cases h : (p && s.boot.scEnable && s.cp0.configSE) = true
  · obtain ⟨⟨hp, hen⟩, hse⟩ : (p = true ∧ s.boot.scEnable = true) ∧ s.cp0.configSE = true := by simpa using h
    rw [sendEntry_block_into h, slineAt_putSLine]
    exact if_congr (by simp [hp, hen, hse]) rfl rfl
  · rw [sendEntry_block_past h, if_neg (fun ⟨hp, hen, hse, _⟩ => h (by simp [hp, hen, hse]))]
    rfl

/-- A buffer without a line changes nothing of the secondary cache. -/
theorem slineAt_sendAll_singles {es : List WbEntry} (h : ∀ e ∈ es, isBlock e = false) (s : State) (j : Nat) :
    slineAt (sendAll es s) j = slineAt s j := by
  induction es generalizing s with
  | nil => rfl
  | cons e es ih =>
    obtain ⟨he, hes⟩ := List.forall_mem_cons.1 h
    rw [sendAll, ih hes]
    cases e with
    | single pa vi bs => exact slineAt_sendEntry_single pa vi bs s j
    | block => cases he

/-! ## SYNC -/

theorem exec_sync (s : State) : exec .sync s = .next (advance .seq (drainAll s)) := rfl

/-- Settles O17: SYNC drains the buffer and goes on; what it sends reaches memory, and a line the secondary cache too. -/
theorem syncEmptiesWriteBuffer : Obligations.SyncEmptiesWriteBuffer := by
  refine ⟨decodeWord_sync, fun s => ⟨_, exec_sync s, ?_⟩, fun s pa vi r p bs par hwb => ⟨_, exec_sync s, fun j => ?_⟩,
    fun s hwb => ⟨_, exec_sync s, fun j => ?_⟩⟩
  · have hout := outsideOnly_drainAll s
    have hsent := keptByError_drainAll s
    have hgone := noEffect_advance (drainAll s)
    obtain ⟨hpc, hdelay⟩ := hsent.control
    exact ⟨by simp, fun a => by rw [advance_mem, sentByte], by rw [advance_dcache, hout.dcache], by rw [advance_icache, hout.icache],
      hsent.cpu.trans hgone.cpu, hsent.fpu.trans hgone.fpu, hsent.system.trans hgone.system, wentOn_advance hpc hdelay⟩
  · rw [slineAt_advance, drainAll, hwb]
    exact slineAt_sendEntry_block pa vi r p bs par (s.setWb []) j
  · rw [slineAt_advance, drainAll, slineAt_sendAll_singles hwb]
    rfl

end Sys2Proof.Machine
end

section
/-! SUPPORT. The moves of CP0 registers (O32, O33): what a move writes, field by field; that it writes one register. -/

namespace Sys2Proof.Machine

-- One thread, as in Sys2Proof/Tests: the whole text stays within the check's memory limit.
set_option Elab.async false

/-! ## Moves from CP0 (spec/45_cp0_system.md R471, R473) -/

theorem exec_mfc0 {s : State} (rt : RegNum) {rd : RegNum} (h : Cp0Ok s) (hx : cp0Exists rd = true) :
    exec (.mfc0 rt rd) s = .next (advance .seq (s.writeGpr rt (sext32 (low32 (cp0Value (seen .cp0Read s) rd))))) := by
  show execMfc0 rt rd s = _
  rw [execMfc0, needCp0_ok h, hx]
  rfl

/-- The low word of a register, sign-extended. -/
theorem word32_mod (v : Dword) : word32 (v.toNat % 2 ^ 32 : Nat) = sext32 (low32 v) := by
  rw [word32, BitVec.ofInt_natCast]
  exact congrArg sext32 (BitVec.eq_of_toNat_eq (by simp [low32]))

/-- Settles O32: the general register takes the CP0 register as the reader sees it. -/
theorem movesFromCp0 : Obligations.MovesFromCp0 := by
  intro s rt rd h hx
  refine ⟨⟨_, exec_mfc0 rt h hx, ?_⟩, fun hw h64 => ⟨_, ?_, writesGpr_advance s rt (cp0Value (seen .cp0Read s) rd)⟩⟩
  · rw [word32_mod]
    exact writesGpr_advance s rt _
  · rw [exec_dmfc0 rt rd h hw, hx, h64]
    rfl

/-! ## A value written through a mask, field by field -/

/-- `old` with the bits of the mask `m` taken from `v`. -/
def masked {n : Nat} (m v old : BitVec n) : BitVec n := (v &&& m) ||| (old &&& ~~~m)

/-- A field `r` of a register is what the bits of `v` from `o` on leave of the field `old` under the mask `m`. -/
def Takes {w n : Nat} (v : BitVec w) (o : Nat) (m old r : BitVec n) : Prop := r = masked m (v.extractLsb' o n) old

section
variable {w n k : Nat} {v : BitVec w} {o : Nat}

theorem Takes.written {old : BitVec n} : Takes v o (BitVec.allOnes n) old (v.extractLsb' o n) := by
  simp [Takes, masked]

theorem Takes.writtenBit {old : BitVec 1} : Takes v o 1#1 old (bit (v.getLsbD o)) := by
  have hbit : bit (v.getLsbD o) = v.extractLsb' o 1 := by
    apply BitVec.eq_of_getLsbD_eq
    intro i hi
    obtain rfl : i = 0 := by omega
    simp [bit]
  rw [hbit]
  exact Takes.written

theorem Takes.kept {old : BitVec n} : Takes v o 0#n old old := by
  rw [Takes, masked, BitVec.and_zero, BitVec.not_zero, BitVec.and_allOnes, BitVec.zero_or]

/-- Two fields side by side. -/
theorem Takes.append {m old r : BitVec n} {m' old' r' : BitVec k} (h : Takes v (o + k) m old r) (h' : Takes v o m' old' r') :
    Takes v o (m ++ m') (old ++ old') (r ++ r') := by
  unfold Takes masked at *
  rw [h, h', ← BitVec.extractLsb'_append_extractLsb'_eq_extractLsb' (x := v) (start₂ := o + k) (len₂ := n) (len₁ := k) rfl,
    BitVec.not_append, BitVec.and_append, BitVec.and_append, BitVec.or_append]

/-- The fields of a whole register of 64 bits. -/
theorem Takes.dword {v m old r : Dword} (h : Takes v 0 m old r) : r = masked m v old := by
  rw [Takes, BitVec.extractLsb'_eq_self] at h
  exact h

/-- The fields of a register of up to 32 bits. -/
theorem Takes.word {v : Dword} {m old r : BitVec n} (h : Takes (low32 v) 0 m old r) (hn : n ≤ 32) :
    r.setWidth 64 = masked (m.setWidth 64) v (old.setWidth 64) := by
  rw [h, masked, masked, low32]
  apply BitVec.eq_of_getLsbD_eq
  intro i hi
  by_cases h : i < n
  · simp [h, hi, show i < 32 by omega]
  · simp [hi, BitVec.getLsbD_of_ge _ _ (Nat.le_of_not_lt h)]

end

/-! ## A move writes one register -/

/-- The registers a move writes. -/
theorem writable_cases {n : BitVec 5} (h : cp0Mask n ≠ 0) :
    n = 30 ∨ n = 0 ∨ n = 2 ∨ n = 3 ∨ n = 4 ∨ n = 5 ∨ n = 6 ∨ n = 9 ∨ n = 10 ∨ n = 11 ∨ n = 12 ∨ n = 13 ∨ n = 14 ∨ n = 16 ∨ n = 17 ∨
      n = 20 ∨ n = 26 ∨ n = 28 ∨ n = 29 := by
  revert n
  decide

/-- The registers in front of ErrorEPC, which is what `cp0Value` shows for every other number. -/
theorem exists_cases {m : BitVec 5} (hx : cp0Exists m = true) (hm : m ≠ 30) :
    m = 0 ∨ m = 1 ∨ m = 2 ∨ m = 3 ∨ m = 4 ∨ m = 5 ∨ m = 6 ∨ m = 8 ∨ m = 9 ∨ m = 10 ∨ m = 11 ∨ m = 12 ∨ m = 13 ∨ m = 14 ∨ m = 15 ∨
      m = 16 ∨ m = 17 ∨ m = 20 ∨ m = 26 ∨ m = 27 ∨ m = 28 ∨ m = 29 := by
  revert m
  decide

/-- Putting one register back changes what no other register shows. -/
theorem cp0Value_restoreCp0 {n : BitVec 5} (hn : cp0Mask n ≠ 0) (old : Cp0) (s : State) {m : BitVec 5} (hx : cp0Exists m = true)
    (hm : m ≠ n) : cp0Value (s.setCp0 (restoreCp0 n old s.cp0)) m = cp0Value s m := by
  rcases writable_cases hn with rfl | rfl | rfl | rfl | rfl | rfl | rfl | rfl | rfl | rfl | rfl | rfl | rfl | rfl | rfl | rfl | rfl |
    rfl | rfl
  · rcases exists_cases hx hm with rfl | rfl | rfl | rfl | rfl | rfl | rfl | rfl | rfl | rfl | rfl | rfl | rfl | rfl | rfl | rfl | rfl |
      rfl | rfl | rfl | rfl | rfl <;> rfl
  all_goals
    dsimp only [cp0Value]
    rw [if_neg hm, if_neg hm]
    rfl

/-- Random is a register of its own. -/
theorem cp0Value_random (c : Cp0) (r : BitVec 6) (s : State) {m : BitVec 5} (hm : m ≠ 1) :
    cp0Value (s.setCp0 { c with random := r }) m = cp0Value (s.setCp0 c) m := by
  dsimp only [cp0Value]
  rw [if_neg hm, if_neg hm]
  rfl

/-- What the registers show depends on CP0, the interrupt inputs and the boot mode alone. -/
theorem cp0Value_congr {s t : State} (hcp : t.cp0 = s.cp0) (hreg : t.intReg = s.intReg) (hpin : t.intPin = s.intPin)
    (htimer : t.timerInt = s.timerInt) (hboot : t.boot = s.boot) (m : BitVec 5) : cp0Value t m = cp0Value s m := by
  have hcause : packCause t = packCause s := by rw [packCause, packCause, pendingBits, pendingBits, hcp, hreg, hpin, htimer, hboot]
  have hconfig : packConfig t = packConfig s := by rw [packConfig, packConfig, hcp, hboot]
  rw [cp0Value, cp0Value, hcause, hconfig, hcp]

/-- Where a move to CP0 writes at most: CP0, the timer latch, the floating-point registers, the caches, the model's own records. -/
def MoveOnly (s u : State) : Prop :=
  u = { s with
    cp0 := u.cp0, timerInt := u.timerInt, fgr := u.fgr, icache := u.icache, icacheRest := u.icacheRest, dcache := u.dcache,
    dcacheRest := u.dcacheRest, scache := u.scache, scacheRest := u.scacheRest, free := u.free, hazards := u.hazards }

/-- What a move of `v` to register `n` leaves (the table of R475). -/
structure Cp0Moved (n : BitVec 5) (v : Dword) (s u : State) : Prop where
  only : MoveOnly s u
  value : cp0Value u n = masked (cp0Mask n) v (cp0Value s n)
  others : ∀ m, cp0Exists m = true → m ≠ n → ¬(n = 6 ∧ m = 1) → ¬(n = 11 ∧ m = 13) → cp0Value u m = cp0Value s m
  random : n = 6 → u.cp0.random = 47
  compare : n = 11 → u.timerInt = false ∧ cp0Value u 13 &&& ~~~0x8000 = cp0Value s 13 &&& ~~~0x8000
  timer : n ≠ 11 → u.timerInt = s.timerInt
  fgr : u.cp0.status.fr = s.cp0.status.fr → u.fgr = s.fgr
  caches : u.cp0.configK0 = s.cp0.configK0 → u.cp0.configSE = s.cp0.configSE → SameDCache s u ∧ SameICache s u ∧ SameSCache s u

section
variable {n : BitVec 5} {v m : Dword} {s : State} {c : Cp0}

/-- A register without side effects: `hold` says what the others keep, `hvalue` what the register takes under the mask `m`. -/
theorem cp0Moved_plain (hmask : cp0Mask n = m) (hm : m ≠ 0) (h6 : n ≠ 6) (h11 : n ≠ 11) (hold : restoreCp0 n s.cp0 c = s.cp0)
    (hvalue : cp0Value (s.setCp0 c) n = masked m v (cp0Value s n)) : Cp0Moved n v s (s.writeCp0Reg n c) where
  only := rfl
  value := by rw [hmask]; exact hvalue
  others k hx hk _ _ := by
    have h := cp0Value_restoreCp0 (hmask ▸ hm) s.cp0 (s.setCp0 c) hx hk
    rw [State.setCp0_cp0, hold] at h
    exact h.symm
  random h := absurd h h6
  compare h := absurd h h11
  timer _ := rfl
  fgr _ := rfl
  caches _ _ := ⟨fun _ => rfl, fun _ => rfl, fun _ => rfl⟩

/-- What stands behind a move may differ where the move leaves it open. -/
theorem Cp0Moved.freed {u w : State} (h : Cp0Moved n v s u) (ho : MoveOnly u w) (hcp : w.cp0 = u.cp0) (ht : w.timerInt = u.timerInt)
    (hfgr : w.cp0.status.fr = s.cp0.status.fr → w.fgr = s.fgr)
    (hcaches : w.cp0.configK0 = s.cp0.configK0 → w.cp0.configSE = s.cp0.configSE → SameDCache s w ∧ SameICache s w ∧ SameSCache s w) :
    Cp0Moved n v s w := by
  have hval := cp0Value_congr hcp (by rw [ho]) (by rw [ho]) ht (by rw [ho])
  exact
    { only := by have hu := h.only; unfold MoveOnly at hu ho ⊢; rw [hu] at ho; exact ho
      value := (hval n).trans h.value
      others := fun k hx hk h6 h11 => (hval k).trans (h.others k hx hk h6 h11)
      random := fun h6 => by rw [hcp]; exact h.random h6
      compare := fun h11 => by rw [hval, ht]; exact h.compare h11
      timer := fun h11 => ht.trans (h.timer h11)
      fgr := hfgr
      caches := hcaches }

/-- A register that is read only. -/
theorem cp0Moved_readOnly (hmask : cp0Mask n = 0) (h6 : n ≠ 6) (h11 : n ≠ 11) : Cp0Moved n v s s where
  only := rfl
  value := by rw [hmask]; exact (Takes.kept (v := v)).dword
  others _ _ _ _ _ := rfl
  random h := absurd h h6
  compare h := absurd h h11
  timer _ := rfl
  fgr _ := rfl
  caches _ _ := ⟨fun _ => rfl, fun _ => rfl, fun _ => rfl⟩

end

/-! ## Register by register (spec/45_cp0_system.md R475) -/

section
variable {v : Dword} {s : State}

theorem takes_index (v : Dword) (p : Bool) (i : BitVec 6) :
    zext32 (bit p ++ 0#25 ++ (low32 v).extractLsb' 0 6) =
      masked ((0#1 ++ 0#25 ++ BitVec.allOnes 6).setWidth 64) v (zext32 (bit p ++ 0#25 ++ i)) := by
  refine Takes.word (n := 32) ?_ (by decide)
  exact .append (.append .kept .kept) .written

theorem takes_pageMask (v : Dword) (m : BitVec 12) :
    zext32 (0#7 ++ (low32 v).extractLsb' 13 12 ++ 0#13) =
      masked ((0#7 ++ BitVec.allOnes 12 ++ 0#13).setWidth 64) v (zext32 (0#7 ++ m ++ 0#13)) := by
  refine Takes.word (n := 32) ?_ (by decide)
  exact .append (.append .kept .written) .kept

theorem takes_context (v : Dword) (b : BitVec 41) (p : BitVec 19) :
    (v.extractLsb' 23 41 ++ p ++ 0#4 : Dword) = masked (BitVec.allOnes 41 ++ 0#19 ++ 0#4) v (b ++ p ++ 0#4) := by
  refine Takes.dword ?_
  exact .append (.append .written .kept) .kept

theorem takes_xcontext (v : Dword) (b : BitVec 31) (r : BitVec 2) (p : BitVec 27) :
    (v.extractLsb' 33 31 ++ r ++ p ++ 0#4 : Dword) = masked (BitVec.allOnes 31 ++ 0#2 ++ 0#27 ++ 0#4) v (b ++ r ++ p ++ 0#4) := by
  refine Takes.dword ?_
  exact .append (.append (.append .written .kept) .kept) .kept

theorem takes_entryLo (v : Dword) (e : EntryLo) :
    packEntryLo (unpackEntryLo v) = masked (0#34 ++ BitVec.allOnes 24 ++ BitVec.allOnes 3 ++ 1#1 ++ 1#1 ++ 1#1) v (packEntryLo e) :=
  (((((Takes.kept.append .written).append .written).append .writtenBit).append .writtenBit).append .writtenBit).dword

theorem takes_entryHi (v : Dword) (e : EntryHi) :
    packEntryHi (unpackEntryHi v) = masked (BitVec.allOnes 2 ++ 0#22 ++ BitVec.allOnes 27 ++ 0#5 ++ BitVec.allOnes 8) v (packEntryHi e) :=
  ((((Takes.written.append .kept).append .written).append .kept).append .written).dword

/-- The bits of Status that are not reserved (R57). -/
def statusMask : Word :=
  BitVec.allOnes 4 ++ 0#1 ++ 1#1 ++ 1#1 ++ 0#2 ++ 1#1 ++ 0#1 ++ 1#1 ++ 0#1 ++ 1#1 ++ 1#1 ++ 1#1 ++ BitVec.allOnes 8 ++ 1#1 ++ 1#1 ++ 1#1 ++
    BitVec.allOnes 2 ++ 1#1 ++ 1#1 ++ 1#1

theorem takes_status (v : Dword) (t : StatusReg) :
    zext32 (packStatus (unpackStatus (low32 v))) = masked (statusMask.setWidth 64) v (zext32 (packStatus t)) := by
  have h : Takes (low32 v) 0 statusMask (packStatus t) (packStatus (unpackStatus (low32 v))) := by
    unfold statusMask packStatus
    refine .append (.append (.append (.append (.append (.append (.append ?_ .writtenBit) .writtenBit) .writtenBit) .written)
      .writtenBit) .writtenBit) .writtenBit
    refine .append (.append (.append (.append (.append ?_ .kept) .writtenBit) .writtenBit) .writtenBit) .written
    exact .append (.append (.append (.append (.append (.append (.append .written .kept) .writtenBit) .writtenBit) .kept) .writtenBit)
      .kept) .writtenBit
  exact h.word (by decide)

theorem takes_cause (v : Dword) (s : State) :
    cp0Value (s.setCp0 { s.cp0 with cause := { s.cp0.cause with ipSw := (low32 v).extractLsb' 8 2 } }) 13 =
      masked ((0#1 ++ 0#1 ++ 0#2 ++ 0#12 ++ (0#1 ++ 0#5 ++ BitVec.allOnes 2) ++ 0#1 ++ 0#5 ++ 0#2).setWidth 64) v (cp0Value s 13) := by
  refine Takes.word (n := 32) (r := packCause _) (old := packCause s) ?_ (by decide)
  unfold packCause
  refine .append (.append (.append (.append ?_ ?_) .kept) .kept) .kept
  · exact .append (.append (.append .kept .kept) .kept) .kept
  · exact .append (.append .kept .kept) .written

theorem takes_config (v : Dword) (s : State) :
    cp0Value (s.setCp0 { s.cp0 with configSE := (low32 v).getLsbD 12, configK0 := (low32 v).extractLsb' 0 3 }) 16 =
      masked ((0#19 ++ 1#1 ++ 0#3 ++ 0#3 ++ 0#1 ++ 0#1 ++ 0#1 ++ BitVec.allOnes 3).setWidth 64) v (cp0Value s 16) := by
  refine Takes.word (n := 32) (r := packConfig _) (old := packConfig s) ?_ (by decide)
  unfold packConfig
  exact .append (.append (.append (.append (.append (.append (.append .kept .writtenBit) .kept) .kept) .kept) .kept) .kept) .written

/-! A field of the low word, as a number. -/

theorem toNat_field (v : Dword) {o n : Nat} (h : o + n ≤ 32) : ((low32 v).extractLsb' o n).toNat = v.toNat / 2 ^ o % 2 ^ n := by
  rw [low32, BitVec.extractLsb'_setWidth_of_le h, BitVec.extractLsb'_toNat, Nat.shiftRight_eq_div_pow]

theorem getLsbD_field (v : Dword) {k : Nat} (h : k < 32) : (low32 v).getLsbD k = decide (v.toNat / 2 ^ k % 2 = 1) := by
  rw [low32, BitVec.getLsbD_setWidth, BitVec.getLsbD, Nat.testBit_eq_decide_div_mod_eq]
  simp [h]

theorem scrambleFgr_eq (u : State) : ∃ f k, scrambleFgr u = { u with fgr := f, free := k } := ⟨_, _, rfl⟩

/-- Status takes a value of one of the three modes; a change of FR frees the floating-point registers (R57, R877). -/
theorem writeStatus_moved (hw : Cp0Writable 12 v) : ∃ u, writeCp0 12 v s = goOn u ∧ Cp0Moved 12 v s u := by
  have hmode : ¬((unpackStatus (low32 v)).ksu == 3 && !(unpackStatus (low32 v)).exl && !(unpackStatus (low32 v)).erl) = true := by
    obtain ⟨-, -, hstatus⟩ := hw
    intro hno
    simp only [unpackStatus, getLsbD_field v (show 1 < 32 by decide), getLsbD_field v (show 2 < 32 by decide), Bool.and_eq_true,
      beq_iff_eq, Bool.not_eq_true', decide_eq_false_iff_not] at hno
    obtain ⟨⟨hksu, hexl⟩, herl⟩ := hno
    have hksu3 : v.toNat / 2 ^ 3 % 2 ^ 2 = 3 := by rw [← toNat_field v (by decide), hksu]; rfl
    exact hstatus rfl (by omega) (by omega) (by omega)
  have hplain : Cp0Moved 12 v s (s.writeCp0Reg 12 { s.cp0 with status := unpackStatus (low32 v) }) :=
    cp0Moved_plain (m := statusMask.setWidth 64) (by decide) (by decide) (by decide) (by decide) rfl (takes_status v s.cp0.status)
  refine ⟨_, (if_neg hmode : writeStatus (low32 v) s = _), ?_⟩
  split
  · next hfr =>
    obtain ⟨f, k, heq⟩ := scrambleFgr_eq (s.writeCp0Reg 12 { s.cp0 with status := unpackStatus (low32 v) })
    rw [heq]
    exact hplain.freed rfl rfl rfl (fun he => absurd he (bne_iff_ne.1 hfr)) hplain.caches
  · exact hplain

/-- Config takes SE and an attribute that is not reserved; a change of either frees the caches (R76, R877). -/
theorem writeConfig_moved (hw : Cp0Writable 16 v) : ∃ u, writeCp0 16 v s = goOn u ∧ Cp0Moved 16 v s u := by
  have hattr : ¬reservedAttr ((low32 v).extractLsb' 0 3) = true := by
    obtain ⟨-, hconfig, -⟩ := hw
    have hk0 := hconfig rfl
    rw [reservedAttr, decide_eq_true_iff, BitVec.le_def, toNat_field v (by decide)]
    show ¬4 ≤ _
    omega
  have hplain : Cp0Moved 16 v s (s.writeCp0Reg 16
      { s.cp0 with configSE := (low32 v).getLsbD 12, configK0 := (low32 v).extractLsb' 0 3 }) :=
    cp0Moved_plain (m := _) (by decide) (by decide) (by decide) (by decide) rfl (takes_config v s)
  refine ⟨_, (if_neg hattr : writeConfig (low32 v) s = _), ?_⟩
  split
  · next hc =>
    exact hplain.freed rfl rfl rfl hplain.fgr fun hk hs => absurd hc (by
      rw [show (low32 v).extractLsb' 0 3 = s.cp0.configK0 from hk, show (low32 v).getLsbD 12 = s.cp0.configSE from hs]
      simp)
  · exact hplain

/-- Wired takes a value up to 47, and Random becomes 47 (R46). -/
theorem writeWired_moved (hw : Cp0Writable 6 v) : ∃ u, writeCp0 6 v s = goOn u ∧ Cp0Moved 6 v s u := by
  have hrange : ¬(low32 v).extractLsb' 0 6 > (47 : BitVec 6) := by
    obtain ⟨hwired, -, -⟩ := hw
    have h47 := hwired rfl
    rw [gt_iff_lt, BitVec.lt_def, toNat_field v (by decide)]
    show ¬47 < _
    omega
  refine ⟨s.writeCp0Reg 6 { s.cp0 with wired := (low32 v).extractLsb' 0 6, random := 47 }, if_neg hrange, ?_⟩
  exact
    { only := rfl
      value := Takes.written.word (n := 6) (by decide)
      others := fun m hx hm hrandom _ =>
        (cp0Value_random { s.cp0 with wired := (low32 v).extractLsb' 0 6 } 47 s (fun h => hrandom ⟨rfl, h⟩)).trans
          (cp0Value_restoreCp0 (n := 6) (by decide) s.cp0 (s.setCp0 { s.cp0 with wired := (low32 v).extractLsb' 0 6 }) hx hm).symm
      random := fun _ => rfl
      compare := fun h => absurd h (by decide)
      timer := fun _ => rfl
      fgr := fun _ => rfl
      caches := fun _ _ => ⟨fun _ => rfl, fun _ => rfl, fun _ => rfl⟩ }

theorem takes_word (v : Dword) (old : Word) : zext32 (low32 v) = masked ((BitVec.allOnes 32).setWidth 64) v (zext32 old) :=
  Takes.word (r := low32 v) (by simpa using Takes.written (v := low32 v) (o := 0) (old := old)) (by decide)

/-- Two fields side by side that agree outside the masks of their parts. -/
theorem outside_append {n k : Nat} {a b m : BitVec n} {a' b' m' : BitVec k} (h : a &&& ~~~m = b &&& ~~~m)
    (h' : a' &&& ~~~m' = b' &&& ~~~m') : (a ++ a') &&& ~~~(m ++ m') = (b ++ b') &&& ~~~(m ++ m') := by
  rw [BitVec.not_append, BitVec.and_append, BitVec.and_append, h, h']

/-- The timer latch shows in IP7 of Cause alone. -/
theorem cp0Value_timer (b : Bool) (s : State) {m : BitVec 5} (hm : m ≠ 13) : cp0Value { s with timerInt := b } m = cp0Value s m := by
  dsimp only [cp0Value]
  rw [if_neg hm, if_neg hm]
  rfl

theorem cause_timer (b : Bool) (s : State) :
    cp0Value { s with timerInt := b } 13 &&& ~~~0x8000 = cp0Value s 13 &&& ~~~0x8000 := by
  have hbit : ∀ x y : Bool, bit x &&& ~~~1#1 = bit y &&& ~~~1#1 := by decide
  have hwide : ∀ w : Word, zext32 w = 0#32 ++ w := fun w => BitVec.setWidth_eq_append (by decide)
  show zext32 (packCause _) &&& ~~~0x8000#64 = zext32 (packCause s) &&& ~~~0x8000#64
  rw [hwide, hwide,
    show 0x8000#64 = 0#32 ++ (0#1 ++ 0#1 ++ 0#2 ++ 0#12 ++ (1#1 ++ 0#5 ++ 0#2) ++ 0#1 ++ 0#5 ++ 0#2) by decide]
  unfold packCause
  refine outside_append rfl (outside_append (outside_append (outside_append (outside_append rfl ?_) rfl) rfl) rfl)
  exact outside_append (outside_append (hbit _ _) rfl) rfl

/-- A write of Compare withdraws the timer interrupt (R475). -/
theorem writeCompare_moved : ∃ u, writeCp0 11 v s = goOn u ∧ Cp0Moved 11 v s u := by
  have hval := cp0Value_congr (s := { s.setCp0 { s.cp0 with compare := low32 v } with timerInt := false })
    (t := { s.writeCp0Reg 11 { s.cp0 with compare := low32 v } with timerInt := false }.addHazard (.timer s.timerInt))
    rfl rfl rfl rfl rfl
  refine ⟨_, rfl, ?_⟩
  exact
    { only := rfl
      value := (hval 11).trans (takes_word v s.cp0.compare)
      others := fun m hx hm _ hcause => by
        rw [hval, cp0Value_timer _ _ fun h => hcause ⟨rfl, h⟩]
        exact (cp0Value_restoreCp0 (n := 11) (by decide) s.cp0 (s.setCp0 { s.cp0 with compare := low32 v }) hx hm).symm
      random := fun h => absurd h (by decide)
      compare := fun _ => ⟨rfl, by rw [hval]; exact cause_timer false (s.setCp0 { s.cp0 with compare := low32 v })⟩
      timer := fun h => absurd rfl h
      fgr := fun _ => rfl
      caches := fun _ _ => ⟨fun _ => rfl, fun _ => rfl, fun _ => rfl⟩ }

/-- A register whose move has no side effect, as `cp0Moved_plain` has it. -/
theorem writeCp0_moved {n : BitVec 5} (hx : cp0Exists n = true) (hw : Cp0Writable n v) :
    ∃ u, writeCp0 n v s = goOn u ∧ Cp0Moved n v s u := by
  by_cases h0 : cp0Mask n = 0
  · have hn : n = 1 ∨ n = 8 ∨ n = 15 ∨ n = 27 := by clear hw; revert n; decide
    rcases hn with rfl | rfl | rfl | rfl <;> exact ⟨s, rfl, cp0Moved_readOnly rfl (by decide) (by decide)⟩
  have plain : ∀ {n : BitVec 5} {c : Cp0} {m : Dword}, writeCp0 n v s = goOn (s.writeCp0Reg n c) →
      cp0Value (s.setCp0 c) n = masked m v (cp0Value s n) → cp0Mask n = m ∧ m ≠ 0 ∧ n ≠ 6 ∧ n ≠ 11 →
      restoreCp0 n s.cp0 c = s.cp0 → ∃ u, writeCp0 n v s = goOn u ∧ Cp0Moved n v s u :=
    fun hexec hvalue ⟨hmask, hm, h6, h11⟩ hold => ⟨_, hexec, cp0Moved_plain hmask hm h6 h11 hold hvalue⟩
  have whole : ∀ old : Dword, v = masked (BitVec.allOnes 64) v old := fun old => by
    rw [masked, BitVec.and_allOnes, BitVec.not_allOnes, BitVec.and_zero, BitVec.or_zero]
  rcases writable_cases h0 with rfl | rfl | rfl | rfl | rfl | rfl | rfl | rfl | rfl | rfl | rfl | rfl | rfl | rfl | rfl | rfl | rfl |
    rfl | rfl
  case inl => exact plain rfl (whole _) (by decide) rfl
  · exact plain rfl (takes_index v _ _) (by decide) rfl
  · exact plain rfl (takes_entryLo v _) (by decide) rfl
  · exact plain rfl (takes_entryLo v _) (by decide) rfl
  · exact plain rfl (takes_context v _ _) (by decide) rfl
  · exact plain rfl (takes_pageMask v _) (by decide) rfl
  · exact writeWired_moved hw
  · exact plain rfl (takes_word v _) (by decide) rfl
  · exact plain rfl (takes_entryHi v _) (by decide) rfl
  · exact writeCompare_moved
  · exact writeStatus_moved hw
  · exact plain rfl (takes_cause v s) (by decide) rfl
  · exact plain rfl (whole _) (by decide) rfl
  · exact writeConfig_moved hw
  · exact plain rfl (takes_word v _) (by decide) rfl
  · exact plain rfl (takes_xcontext v _ _ _) (by decide) rfl
  · exact plain rfl (Takes.written.word (n := 8) (by decide)) (by decide) rfl
  · exact plain rfl (takes_word v _) (by decide) rfl
  · exact plain rfl (takes_word v _) (by decide) rfl

end

/-- Settles O33: the move leaves what `writeCp0_moved` says, and control goes on. -/
theorem movesToCp0 : Obligations.MovesToCp0 := by
  intro i s rt rd h hx hw hi
  obtain ⟨u, hu, hmoved⟩ := writeCp0_moved (s := s) hx hw
  have hexec : exec i s = .next (advance .seq u) := by
    rcases hi with rfl | ⟨rfl, hwide, h64⟩
    · rw [exec_mtc0 rt h hx, hu, finish_goOn]
    · rw [exec_dmtc0 rt rd h hwide, hx, h64]
      show finish (writeCp0 rd (readGpr s rt) s) = _
      rw [hu, finish_goOn]
  have ho := hmoved.only
  have hval := cp0Value_congr (advance_cp0 .seq u) (advance_intReg _ _) (advance_intPin _ _) (advance_timerInt _ _) (advance_boot _ _)
  refine ⟨_, hexec, (hval rd).trans hmoved.value, fun m hm hne h6 h11 => (hval m).trans (hmoved.others m hm hne h6 h11), fun h6 => ?_,
    fun h11 => ?_, fun h11 => ?_, ?_, ?_, ?_, ?_, fun hfr => ?_, ?_, ?_, ?_, ?_, ?_, fun hk hs => ?_, ?_⟩
  · rw [advance_cp0]; exact hmoved.random h6
  · rw [hval, advance_timerInt]; exact hmoved.compare h11
  · rw [advance_timerInt]; exact hmoved.timer h11
  · exact ⟨readGpr_congr (by rw [advance_gpr, ho]), by rw [advance_hi, ho], by rw [advance_lo, ho]⟩
  · rw [advance_tlb, ho]
  · exact ⟨by rw [advance_llBit, ho], by rw [advance_linkAddr, ho], by rw [advance_linkKnown, ho]⟩
  · rw [advance_fcr31, ho]
  · rw [advance_cp0] at hfr
    rw [advance_fgr]
    exact hmoved.fgr hfr
  · rw [advance_wb, ho]
  · rw [advance_intReg, ho]
  · rw [advance_standby, ho]
  · rw [advance_boot, ho]
  · intro a
    rw [advance_mem, ho]
  · rw [advance_cp0] at hk hs
    obtain ⟨hd, hi, hsec⟩ := hmoved.caches hk hs
    exact ⟨fun j => (dsetAt_congr (advance_dcache _ _) (advance_dcacheRest _ _) j).trans (hd j),
      fun j => (isetAt_congr (advance_icache _ _) (advance_icacheRest _ _) j).trans (hi j),
      fun j => (slineAt_advance .seq u j).trans (hsec j)⟩
  · exact wentOn_advance (by rw [ho]) (by rw [ho])

end Sys2Proof.Machine
end

section
/-! SUPPORT. The TLB instructions (O35, O36), ERET (O37), WAIT and Standby (O38). -/

namespace Sys2Proof.Machine

-- One thread, as in Sys2Proof/Tests: the whole text stays within the check's memory limit.
set_option Elab.async false

/-! ## What an instruction of CP0 leaves alone -/

/-- CP0, the TLB and the model's own records may differ, nothing else. -/
def Cp0Only (s u : State) : Prop := u = { s with cp0 := u.cp0, tlb := u.tlb, free := u.free, hazards := u.hazards }

/-- Everything outside CP0 and the TLB once control has gone on. -/
theorem Cp0Only.rest {s u : State} (h : Cp0Only s u) :
    SameCpu s (advance .seq u) ∧ SameFpu s (advance .seq u) ∧ SameLink s (advance .seq u) ∧ SamePlatform s (advance .seq u) ∧
      SameMemory s (advance .seq u) ∧ WentOn s (advance .seq u) := by
  refine ⟨⟨readGpr_congr ?_, ?_, ?_⟩, ⟨readFgr_congr ?_, ?_⟩, ⟨?_, ?_, ?_⟩, ⟨?_, ?_, ⟨?_, ?_, ?_⟩, ?_, ?_, ?_, ?_, ?_⟩,
    ⟨fun _ => ?_, ?_, ⟨?_, ?_⟩, ⟨?_, ?_⟩, ⟨?_, ?_⟩⟩, wentOn_advance (by rw [h]) (by rw [h])⟩
  all_goals
    rw [h]
    simp

/-! ## TLBP and TLBR (spec/45_cp0_system.md R481, R482) -/

section
variable {s : State}

theorem exec_tlbp_one (h : Cp0Ok s) (hs : Settled s) {i : Fin 48}
    (hl : tlbHits s.tlb s.cp0.entryHi.r s.cp0.entryHi.vpn2 s.cp0.entryHi.asid = [i]) :
    exec .tlbp s = .next (advance .seq (s.writeCp0Reg 0 { s.cp0 with indexP := false, index := BitVec.ofNat 6 i.val })) := by
  show execTlbp s = _
  rw [execTlbp, needCp0_ok h, seen_settled hs]
  dsimp only
  rw [hl]
  rfl

theorem exec_tlbp_none (h : Cp0Ok s) (hs : Settled s)
    (hl : tlbHits s.tlb s.cp0.entryHi.r s.cp0.entryHi.vpn2 s.cp0.entryHi.asid = []) :
    exec .tlbp s = .next (advance .seq
      ((s.writeCp0Reg 0 { s.cp0 with indexP := true, index := (freeAt s 0).extractLsb' 0 6 }).drawn 1)) := by
  show execTlbp s = _
  rw [execTlbp, needCp0_ok h, seen_settled hs]
  dsimp only
  rw [hl]
  rfl

theorem exec_tlbp_two (h : Cp0Ok s) (hs : Settled s) {a b : Fin 48} {l : List (Fin 48)}
    (hl : tlbHits s.tlb s.cp0.entryHi.r s.cp0.entryHi.vpn2 s.cp0.entryHi.asid = a :: b :: l) :
    exec .tlbp s = .refused .tlbMultipleMatch := by
  show execTlbp s = _
  rw [execTlbp, needCp0_ok h, seen_settled hs]
  dsimp only
  rw [hl]
  rfl

theorem exec_tlbr (h : Cp0Ok s) (hs : Settled s) {i : Fin 48} (hi : s.cp0.index = BitVec.ofNat 6 i.val) :
    exec .tlbr s = .next (advance .seq (((((s.setCp0 (entryRegs s.tlb[i] s.cp0)).addHazard (.reg 5 s.cp0)).addHazard
      (.reg 10 s.cp0)).addHazard (.reg 2 s.cp0)).addHazard (.reg 3 s.cp0))) := by
  have hn : s.cp0.index.toNat = i.val := by
    rw [hi, BitVec.toNat_ofNat]
    exact Nat.mod_eq_of_lt (by have := i.isLt; omega)
  show execTlbr s = _
  rw [execTlbr, needCp0_ok h, seen_settled hs]
  simp only [hn, dif_pos i.isLt, finish_goOn]
  rfl

end

/-- Settles O35: TLBP goes by the entries that match, TLBR by the one Index names. -/
theorem tlbProbeAndRead : Obligations.TlbProbeAndRead := by
  refine ⟨fun s h hs => ⟨fun i hi => ?_, fun hno => ?_, fun i j hij hi hj => ?_⟩, fun s i h hs hi => ?_⟩
  · exact ⟨_, exec_tlbp_one h hs (tlbHits_one hi), advance_cp0 _ _, advance_tlb _ _, Cp0Only.rest rfl⟩
  · exact ⟨_, _, exec_tlbp_none h hs (tlbHits_none hno), advance_cp0 _ _, advance_tlb _ _, Cp0Only.rest rfl⟩
  · obtain ⟨a, b, l, hl⟩ := tlbHits_two hij hi hj
    exact exec_tlbp_two h hs hl
  · exact ⟨_, exec_tlbr h hs hi, advance_cp0 _ _, advance_tlb _ _, Cp0Only.rest rfl⟩

/-! ## TLBWI and TLBWR (R483, R484) -/

section
variable {s : State}

theorem tlbWriteRefusal_none {e : TlbEntry} {w : Nat} (hm : pageWidth e.mask = some w) (hc0 : e.c0 < 4) (hc1 : e.c1 < 4)
    (hp0 : e.pfn0.toNat % 2 ^ (w - 12) = 0) (hp1 : e.pfn1.toNat % 2 ^ (w - 12) = 0) : tlbWriteRefusal e = none := by
  have hattr : ∀ c : BitVec 3, c < 4 → reservedAttr c = false := by decide
  simp [tlbWriteRefusal, hm, hattr _ hc0, hattr _ hc1, pfnLow, hp0, hp1]

/-- The entry is written and noted for later consumers. -/
theorem tlbWrite_ok (hs : Settled s) (k : Fin 48) (hr : tlbWriteRefusal (entryOf s.cp0) = none) :
    tlbWrite k.val s = goOn ((s.setTlb k (entryOf s.cp0)).addHazard (.tlb k s.tlb[k])) := by
  unfold tlbWrite
  simp only [seen_settled hs, dif_pos k.isLt, hr]
  rfl

/-- A TLB write that goes on, whatever the registers seen, has written the entry it names. -/
theorem tlbWrite_eq_ok {k : Nat} {f : Flow} {u : State} (h : tlbWrite k s = .ok f u) :
    ∃ (hk : k < 48) (e : TlbEntry), u.tlb = s.tlb.set k e hk := by
  unfold tlbWrite at h
  dsimp only at h
  split at h
  · split at h <;> cases h
    exact ⟨‹_›, _, rfl⟩
  · cases h

/-- A TLB write raises no exception. -/
theorem tlbWrite_ne_exc {k : Nat} {e : Exc} {u : State} : tlbWrite k s ≠ .exc e u := by
  unfold tlbWrite
  dsimp only
  intro h
  split at h
  · split at h <;> cases h
  · cases h

/-- TLBWI and TLBWR of legal registers into the entry they name. -/
theorem exec_tlbWrite {i : Instr} (h : Cp0Ok s) (hs : Settled s) {k : Fin 48}
    (hi : i = .tlbwi ∧ s.cp0.index.toNat = k.val ∨ i = .tlbwr ∧ s.cp0.random.toNat = k.val)
    (hr : tlbWriteRefusal (entryOf s.cp0) = none) :
    exec i s = .next (advance .seq ((s.setTlb k (entryOf s.cp0)).addHazard (.tlb k s.tlb[k]))) := by
  have hwrite : exec i s = finish (tlbWrite k.val s) := by
    rcases hi with ⟨rfl, hk⟩ | ⟨rfl, hk⟩
    · show execTlbwi s = _
      rw [execTlbwi, needCp0_ok h, seen_settled hs, hk]
    · show execTlbwr s = _
      rw [execTlbwr, needCp0_ok h, hk]
  rw [hwrite, tlbWrite_ok hs k hr, finish_goOn]

/-- TLBWR changes at most the entry Random names, whatever it raises. -/
theorem exec_tlbwr_other {t : State} (h : exec .tlbwr s = .next t) {j : Fin 48} (hj : s.cp0.random.toNat ≠ j.val) :
    t.tlb[j] = s.tlb[j] := by
  have hexec : finish (needCp0 s (tlbWrite s.cp0.random.toNat s)) = .next t := h
  cases hu : cp0Usable (seen .usable s).cp0.status with
  | false =>
    rw [needCp0_not hu, finish_exc] at hexec
    cases hexec
    rw [takeException_tlb]
  | true =>
    rw [needCp0_ok hu] at hexec
    obtain ⟨f, u, hok, rfl⟩ | ⟨e, u, hexc, -⟩ := finish_eq_next hexec
    · obtain ⟨hk, e, htlb⟩ := tlbWrite_eq_ok hok
      rw [advance_tlb, htlb]
      exact Vector.getElem_set_ne hk j.isLt hj
    · exact absurd hexc tlbWrite_ne_exc

end

/-- Settles O36: the entry named is the one written, and Random names no wired one. -/
theorem tlbWrites : Obligations.TlbWrites := by
  refine ⟨fun i s k w h hs hi hm hc0 hc1 hp0 hp1 => ?_, fun s t j hinv h hj => exec_tlbwr_other h ?_⟩
  · refine ⟨_, exec_tlbWrite h hs hi (tlbWriteRefusal_none hm hc0 hc1 hp0 hp1), ?_, fun j hj => ?_, advance_cp0 _ _, Cp0Only.rest rfl⟩
    · rw [advance_tlb]
      exact Vector.getElem_set_self k.isLt
    · rw [advance_tlb]
      exact Vector.getElem_set_ne k.isLt j.isLt fun he => hj (Fin.ext he.symm)
  · have hwired : s.cp0.wired.toNat ≤ s.cp0.random.toNat := hinv.wired
    omega

/-! ## ERET (R486) -/

/-- The state ERET leaves when it goes to `pc` with the Status `st`. -/
def returned (s : State) (st : StatusReg) (pc : Dword) : State := advance (.direct pc) (s.setStatus st).dropLink.flush

/-- Only Status, the link and the place change on a return. -/
theorem returned_rest (s : State) (st : StatusReg) (pc : Dword) :
    (returned s st pc).delay = none ∧ (returned s st pc).llBit = false ∧ (returned s st pc).linkKnown = false ∧
      (returned s st pc).linkAddr = s.linkAddr ∧ (returned s st pc).tlb = s.tlb ∧ SameCpu s (returned s st pc) ∧
      SameFpu s (returned s st pc) ∧ SameMemory s (returned s st pc) ∧ SamePlatform s (returned s st pc) := by
  refine ⟨rfl, ?_, ?_, ?_, ?_, ⟨readGpr_congr ?_, ?_, ?_⟩, ⟨readFgr_congr ?_, ?_⟩, ⟨fun _ => ?_, ?_, ⟨?_, ?_⟩, ⟨?_, ?_⟩, ⟨?_, ?_⟩⟩,
    ⟨?_, ?_, ⟨?_, ?_, ?_⟩, ?_, ?_, ?_, ?_, ?_⟩⟩
  all_goals simp [returned]

/-- ERET outside a delay slot: the level it leaves and the place it goes to. -/
theorem exec_eret {s : State} (h : Cp0Ok s) (hs : Settled s) (hd : s.delay = none) :
    exec .eret s = .next (if s.cp0.status.erl then returned s { s.cp0.status with erl := false } s.cp0.errorEpc
      else returned s { s.cp0.status with exl := false } s.cp0.epc) := by
  show execEret s = _
  rw [execEret, needCp0_ok h, notInSlot_ok hd, finish_ok]
  unfold returnFromException
  rw [seen_settled hs]
  dsimp only
  split <;> rfl

/-- Settles O37, by which of the two levels ERET leaves. -/
theorem exceptionReturn : Obligations.ExceptionReturn := by
  intro s h hs hd
  refine ⟨_, exec_eret h hs hd, ?_⟩
  cases s.cp0.status.erl with
  | true =>
    obtain ⟨hdelay, hll, hknown, haddr, htlb, hcpu, hfpu, hmem, hplat⟩ := returned_rest s { s.cp0.status with erl := false } s.cp0.errorEpc
    exact ⟨hdelay, hll, hknown, haddr, htlb, hcpu, hfpu, hmem, hplat, rfl, rfl⟩
  | false =>
    obtain ⟨hdelay, hll, hknown, haddr, htlb, hcpu, hfpu, hmem, hplat⟩ := returned_rest s { s.cp0.status with exl := false } s.cp0.epc
    exact ⟨hdelay, hll, hknown, haddr, htlb, hcpu, hfpu, hmem, hplat, rfl, rfl⟩

/-! ## WAIT and Standby (R512, R830) -/

theorem exec_wait {s : State} (h : Cp0Ok s) :
    exec .wait s = .next (advance .seq (if s.inp.sysADIdle && s.wb.isEmpty then s.setStandby true else s)) := by
  show execWait s = _
  rw [execWait, needCp0_ok h, finish_goOn]

theorem wakes_eq_false {t : State} (hpin : t.intPin = 0) (hnmi : t.nmiPin = false) (htimer : t.timerInt = false ∨ t.boot.tmrIntEn = true)
    (hrqst : t.inp.extRqst = false) (hext : t.inp.ext = []) : wakes t = false := by
  rcases htimer with htimer | htimer <;> simp [wakes, hpin, hnmi, htimer, hrqst, hext]

/-- In Standby the step ends once the environment has had its part, where nothing wakes the processor. -/
theorem step_of_standby {s t : State} (hext : applyExts (nextInput s).ext (arrived s) = .ok () t) (hreset : t.inp.reset = none)
    (hnmi : t.nmiPending = 0) (hstandby : t.standby = true) (hwakes : wakes t = false) : step s = .next t := by
  have hstep : step s = afterReset t := by simp only [step, cycle, hext, hreset]
  rw [hstep, afterReset, hnmi, hstandby, hwakes]
  rfl

/-- Settles O38: WAIT changes Standby alone, and a step in Standby ends before an instruction. -/
theorem waitAndStandby : Obligations.WaitAndStandby := by
  refine ⟨fun s h => ⟨_, exec_wait h, ?_⟩, fun s t hext hreset hnmi hstandby hquiet => ?_⟩
  · set u := if s.inp.sysADIdle && s.wb.isEmpty then s.setStandby true else s with hu
    have ho : u = { s with standby := s.standby || s.inp.sysADIdle && s.wb.isEmpty } := by
      cases hidle : s.inp.sysADIdle && s.wb.isEmpty with
      | true => rw [hu, hidle, Bool.or_true]; rfl
      | false => rw [hu, hidle, Bool.or_false]; rfl
    rw [ho]
    refine ⟨?_, ⟨readGpr_congr ?_, ?_, ?_⟩, ⟨readFgr_congr ?_, ?_⟩, ?_, ?_, ⟨?_, ?_, ?_⟩, ⟨fun a => ?_, ?_, ⟨?_, ?_⟩, ⟨?_, ?_⟩, ⟨?_, ?_⟩⟩,
      ?_, ?_, ?_, wentOn_advance rfl rfl⟩
    all_goals simp
  · obtain ⟨hpin, hnmiPin, htimer, hrqst, hnone⟩ := hquiet
    exact ⟨t, step_of_standby hext hreset hnmi hstandby (wakes_eq_false hpin hnmiPin htimer hrqst hnone), hstandby, rfl, rfl,
      ⟨fun _ => rfl, rfl, rfl⟩, ⟨fun _ => rfl, rfl⟩, rfl, rfl, ⟨rfl, rfl, rfl⟩, ⟨fun _ => rfl, rfl, ⟨rfl, rfl⟩, ⟨rfl, rfl⟩, ⟨rfl, rfl⟩⟩⟩

end Sys2Proof.Machine
end

section
/-! SUPPORT. What every CACHE operation leaves behind it, and those on the instruction cache (O39). -/

namespace Sys2Proof.Machine

-- One thread, as in Sys2Proof/Tests: the whole text stays within the check's memory limit.
set_option Elab.async false

/-! ## What every CACHE operation does (spec/45_cp0_system.md R490, R510) -/

/-- The state a CACHE instruction leaves whose operation has left `u`: Status.CH is free, control goes on. -/
def cacheDone (u : State) : State := advance .seq (freeCh u)

/-- A CACHE operation that goes through at an address that translates. -/
theorem cacheOp_done {s u : State} {o : BitVec 16} {b : RegNum} {va : Dword} {pa : PAddr} {c : BitVec 3}
    {k : Dword → PAddr → BitVec 3 → Res Unit} (hva : va = effectiveAddress s b o) (h : CacheOk s va pa c) (hk : k va pa c = .ok () u) :
    finish (cacheOp o b s k) = .next (cacheDone u) := by
  subst hva
  rw [cacheOp_ok h, ← effectiveAddress_eq, hk, Res.bind_ok, finish_goOn]
  rfl

theorem cachedOnly_ok {c : BitVec 3} {k : Res Unit} (h : c ≠ 2) : cachedOnly c k = k := if_neg (by simpa using h)

/-- Nothing but CP0, memory, the buffer, the caches, the bus, LLbit and the model's own records differs. -/
def CacheSide (s t : State) : Prop :=
  t = { s with
    cp0 := t.cp0, mem := t.mem, wb := t.wb, icache := t.icache, dcache := t.dcache, scache := t.scache, scacheRest := t.scacheRest
    bus := t.bus, llBit := t.llBit, free := t.free, hazards := t.hazards }

theorem CacheSide.trans {s t u : State} (h : CacheSide s t) (g : CacheSide t u) : CacheSide s u := by
  unfold CacheSide at *; rw [h] at g; exact g

theorem MemorySide.cacheSide {s t : State} (h : MemorySide s t) : CacheSide s t := by
  unfold MemorySide at h; unfold CacheSide; rw [h]

/-- What a CACHE instruction leaves alone, whatever its operation did to caches and memory. -/
theorem CacheSide.frame {s u : State} (h : CacheSide s u) : CacheFrame u.cp0 s (cacheDone u) := by
  refine ⟨⟨readGpr_congr ?_, ?_, ?_⟩, ⟨readFgr_congr ?_, ?_⟩, ?_, ⟨?_, ?_, ⟨?_, ?_, ?_⟩, ?_, ?_, ?_, ?_, ?_⟩,
    ⟨freeBitAt u 0, ?_⟩, wentOn_advance (by rw [h]; rfl) (by rw [h]; rfl)⟩
  rotate_right
  · rw [cacheDone, advance_cp0]
    rfl
  all_goals
    rw [h]
    simp [cacheDone, freeCh]

section
variable {s u : State}

theorem sameSides_cacheDone (u : State) : SameSides u (cacheDone u) := by
  constructor <;> simp [cacheDone, freeCh]

theorem sameLink_cacheDone (u : State) : SameLink u (cacheDone u) := by
  refine ⟨?_, ?_, ?_⟩ <;> simp [cacheDone, freeCh]

theorem sameOutside_done (hw : u.wb = s.wb) (hm : u.mem = s.mem) : SameOutside s (cacheDone u) := by
  have h := sameSides_cacheDone u
  exact ⟨h.wb.trans hw, fun a => by rw [h.mem, hm]⟩

theorem sameDCache_done (hc : u.dcache = s.dcache) (hr : u.dcacheRest = s.dcacheRest) : SameDCache s (cacheDone u) := by
  have h := sameSides_cacheDone u
  exact dsetAt_congr (h.dcache.trans hc) (h.dcacheRest.trans hr)

theorem sameICache_done (hc : u.icache = s.icache) (hr : u.icacheRest = s.icacheRest) : SameICache s (cacheDone u) := by
  have h := sameSides_cacheDone u
  exact isetAt_congr (h.icache.trans hc) (h.icacheRest.trans hr)

theorem slineAt_cacheDone (u : State) (j : Nat) : slineAt (cacheDone u) j = slineAt u j := by
  have h := sameSides_cacheDone u
  exact slineAt_congr h.scache h.scacheRest j

theorem sameSCache_done (hc : u.scache = s.scache) (hr : u.scacheRest = s.scacheRest) : SameSCache s (cacheDone u) := fun j =>
  (slineAt_cacheDone u j).trans (slineAt_congr hc hr j)

theorem sameLink_done (hl : u.llBit = s.llBit) (ha : u.linkAddr = s.linkAddr) (hk : u.linkKnown = s.linkKnown) :
    SameLink s (cacheDone u) := by
  obtain ⟨h1, h2, h3⟩ := sameLink_cacheDone u
  exact ⟨h1.trans hl, h2.trans ha, h3.trans hk⟩

end

/-! ## The instruction cache (R492 to R497) -/

section
variable {s u : State} {i : Nat} {way : Bool} {l : ILine}

theorem onlyILine_done (hc : u.icache = putAt s.icache i (isetWay (isetAt s i) way l)) (hr : u.icacheRest = s.icacheRest) :
    OnlyILine i way l s (cacheDone u) := by
  have h := sameSides_cacheDone u
  exact onlyILine_of (h.icache.trans hc) (h.icacheRest.trans hr)

/-- A way put into its set, whatever the FIFO bit of the set becomes. -/
theorem putILine_done {f : Bool} (hc : u.icache = putAt s.icache i { isetWay (isetAt s i) way l with fifo := f })
    (hr : u.icacheRest = s.icacheRest) : PutILine i way l s (cacheDone u) ∧ (isetAt (cacheDone u) i).fifo = f := by
  have hsides := sameSides_cacheDone u
  have hset : ∀ j, isetAt (cacheDone u) j = if j = i then { isetWay (isetAt s i) way l with fifo := f } else isetAt s j := fun j =>
    (isetAt_congr (s := s.putISet i _) (hsides.icache.trans hc) (hsides.icacheRest.trans hr) j).trans (isetAt_putISet s i j _)
  have hway : ∀ w, iwayOf { isetWay (isetAt s i) way l with fifo := f } w = iwayOf (isetWay (isetAt s i) way l) w := fun w => by
    cases w <;> rfl
  refine ⟨⟨?_, ?_, fun j hj => by rw [hset, if_neg hj]⟩, ?_⟩
  · rw [hset, if_pos rfl, hway, iwayOf_isetWay]
  · rw [hset, if_pos rfl, hway, iwayOf_isetWay_other]
  · rw [hset, if_pos rfl]

/-- A line of the instruction cache and nothing outside it but the model's own records. -/
def ICacheOnly (s u : State) : Prop := u = { s with icache := u.icache, free := u.free, hazards := u.hazards }

theorem ICacheOnly.rest (h : ICacheOnly s u) :
    CacheFrame s.cp0 s (cacheDone u) ∧ SameOutside s (cacheDone u) ∧ SameDCache s (cacheDone u) ∧ SameSCache s (cacheDone u) ∧
      SameLink s (cacheDone u) := by
  have hside : CacheSide s u := by unfold ICacheOnly at h; unfold CacheSide; rw [h]
  have hcp : u.cp0 = s.cp0 := by rw [h]
  exact ⟨hcp ▸ hside.frame, sameOutside_done (by rw [h]) (by rw [h]), sameDCache_done (by rw [h]) (by rw [h]),
    sameSCache_done (by rw [h]) (by rw [h]), sameLink_done (by rw [h]) (by rw [h]) (by rw [h])⟩

/-- The word Index Load Tag makes, bit by bit. -/
theorem tagWord_getLsbD (tag : BitVec 24) (state : BitVec 2) (rest : BitVec 6) (k : Nat) :
    BitVec.getLsbD (w := 32) (tag ++ state ++ rest) k =
      if k < 6 then rest.getLsbD k else if k - 6 < 2 then state.getLsbD (k - 6) else tag.getLsbD (k - 6 - 2) :=
  BitVec.getLsbD_append.trans (by rw [BitVec.getLsbD_append])

/-- Tag and state stand in their places. -/
theorem tagWord_fields (tag : BitVec 24) (state : BitVec 2) (rest : BitVec 6) :
    BitVec.extractLsb' (n := 32) 8 24 (tag ++ state ++ rest) = tag ∧ BitVec.extractLsb' (n := 32) 6 2 (tag ++ state ++ rest) = state := by
  constructor
  · refine BitVec.eq_of_getLsbD_eq fun k hk => ?_
    rw [BitVec.getLsbD_extractLsb', tagWord_getLsbD, if_neg (by omega), if_neg (by omega), show 8 + k - 6 - 2 = k by omega,
      decide_eq_true hk, Bool.true_and]
  · refine BitVec.eq_of_getLsbD_eq fun k hk => ?_
    rw [BitVec.getLsbD_extractLsb', tagWord_getLsbD, if_neg (by omega), if_pos (by omega), show 6 + k - 6 = k by omega,
      decide_eq_true hk, Bool.true_and]

theorem freeNonzero2_ne_zero (s : State) (k : Nat) : freeNonzero2 s k ≠ 0 := by
  unfold freeNonzero2
  dsimp only
  split
  · decide
  · exact fun hz => ‹¬_› (beq_iff_eq.2 hz)

/-- A line of right parity has no word marked. -/
theorem badWordMarks_zero (h : wordPar (linePar l.data) 8 = l.par) (n : Nat) : badWordMarks l n = 0 := by
  induction n with
  | zero => rfl
  | succ n ih => simp [badWordMarks, ih, badWord, h]

/-- A line put into the write buffer: memory will hold it. -/
theorem stored_pushBlock (hm : Memory.wf s.mem) (pa : PAddr) (vi : BitVec 2) (r p : Bool) (bs : List Byte) (par : BitVec 32)
    (hl : bs.length ≤ memSize) : StoredInMemory pa bs s (pushBlock pa vi r p bs par s) := by
  unfold StoredInMemory sentByte
  rw [drainAll_pushBlock, ← (outsideOnly_drainAll s).physMap]
  exact memory_sendEntry (drainAll_mem_wf hm) _ _ _ hl (sendEntry_block_mem _ _ _ _ _ _ _)

/-- A Fill that is answered, before the instructions behind it are marked. -/
theorem refillI_filled {va : Dword} {pa : PAddr} {c : BitVec 3} {d : LineData} {par : BitVec 8} (hd : BlockAnswered s pa c d)
    (hway : way = (ihit (isetAt s (setIndex va)) (primaryTag pa)).getD (isetAt s (setIndex va)).fifo) :
    ∃ t l, refillI (seen .data s).cp0 true s.inp.dataResponse va pa c (some par) s = .ok way t ∧ MemorySide s t ∧
      SameLink s t ∧ t.wb = [] ∧ t.mem = (drainAll s).mem ∧ t.dcache = s.dcache ∧ SecondaryFilled pa c d s t ∧
      t.icache = putAt s.icache (setIndex va) { isetWay (isetAt s (setIndex va)) way l with fifo := !way } ∧
      l.valid = true ∧ l.tag = primaryTag pa ∧ itagBad l = false ∧ l.data = d.1 ∧ l.par = par := by
  obtain ⟨t, hread, ht, hwb, hmem, hsec⟩ := readBlock_answered hd true (va.extractLsb' 12 2)
    (s.llBit && (lineOf s.linkAddr).extractLsb' 5 7 == pa.extractLsb' 5 7)
  unfold refillI
  simp only [hread, Res.bind_ok, ← hway]
  generalize hl : itagged { iwayOf (isetAt s (setIndex va)) way with
    valid := true, tag := primaryTag pa, itype := evenWordTypes s.boot.bigEndianMem d.1 4, data := d.1, par := (some par).getD _ } = l
  refine ⟨_, l, rfl, ht.memorySide.trans (Eq.refl _), ⟨?_, ?_, ?_⟩, hwb, hmem, ?_, hsec, ?_, ?_⟩
  rotate_right
  · subst hl
    exact ⟨rfl, rfl, itagBad_itagged _, rfl, rfl⟩
  all_goals
    rw [ht]
    rfl

end

section
variable {s : State} {o : BitVec 16} {b : RegNum} {va : Dword} {pa : PAddr} {c : BitVec 3}

theorem cacheIHitInvalidate_none (hva : va = effectiveAddress s b o) (h : CacheOk s va pa c) (hc : c ≠ 2)
    (hh : ihit (isetAt s (setIndex va)) (primaryTag pa) = none) : exec (.cacheIHitInvalidate o b) s = .next (cacheDone s) := by
  refine cacheOp_done hva h ((cachedOnly_ok hc).trans ?_)
  rw [hh]

theorem cacheIHitInvalidate_some (hva : va = effectiveAddress s b o) (h : CacheOk s va pa c) (hc : c ≠ 2) {way : Bool}
    (hh : ihit (isetAt s (setIndex va)) (primaryTag pa) = some way) :
    exec (.cacheIHitInvalidate o b) s = .next (cacheDone (invalidateI (setIndex va) way s)) := by
  refine cacheOp_done hva h ((cachedOnly_ok hc).trans ?_)
  rw [hh]

theorem cacheIHitWriteback_none (hva : va = effectiveAddress s b o) (h : CacheOk s va pa c) (hc : c ≠ 2)
    (hh : ihit (isetAt s (setIndex va)) (primaryTag pa) = none) : exec (.cacheIHitWriteback o b) s = .next (cacheDone s) := by
  refine cacheOp_done hva h ((cachedOnly_ok hc).trans ?_)
  rw [hh]

/-- A held line of right parity goes into the write buffer with the check bits of its bytes. -/
theorem cacheIHitWriteback_some (hva : va = effectiveAddress s b o) (h : CacheOk s va pa c) (hc : c ≠ 2) {way : Bool} {l : ILine}
    (hh : ihit (isetAt s (setIndex va)) (primaryTag pa) = some way) (hl : l = iwayOf (isetAt s (setIndex va)) way)
    (hpar : wordPar (linePar l.data) 8 = l.par) :
    exec (.cacheIHitWriteback o b) s = .next (cacheDone
      (pushBlock (lineAddress l.tag (setIndex va)) (va.extractLsb' 12 2) true (c == 3) (lineBytes l.data 0 32) (linePar l.data) s)) := by
  refine cacheOp_done hva h ((cachedOnly_ok hc).trans ?_)
  rw [hh]
  dsimp only
  rw [← hl, wordChecks, badWordMarks_zero hpar]
  simp

/-- Index Load Tag writes TagLo and TagHi alone. -/
theorem cacheIIndexLoadTag_ok (hva : va = effectiveAddress s b o) (h : CacheOk s va pa c) :
    ∃ v, exec (.cacheIIndexLoadTag o b) s = .next (cacheDone ((loadTagRegs v s).drawn 3)) ∧
      v.extractLsb' 8 24 = (iwayOf (isetAt s (setIndex va)) (va.getLsbD 14)).tag ∧
      (v.extractLsb' 6 2 = 0 ↔ (iwayOf (isetAt s (setIndex va)) (va.getLsbD 14)).valid = false) := by
  generalize hl : iwayOf (isetAt s (setIndex va)) (va.getLsbD 14) = l
  obtain ⟨htag, hstate⟩ := tagWord_fields l.tag (if l.valid then freeNonzero2 s 1 else 0) ((freeAt s 2).extractLsb' 0 6)
  refine ⟨_, cacheOp_done hva h (by subst hl; rfl), htag, ?_⟩
  rw [hstate]
  cases l.valid with
  | true => simpa using freeNonzero2_ne_zero s 1
  | false => simp

theorem cacheIIndexStoreTag_ok (hva : va = effectiveAddress s b o) (h : CacheOk s va pa c) (ht : (tagLoSeen s).extractLsb' 6 2 = 0) :
    ∃ u l f, exec (.cacheIIndexStoreTag o b) s = .next (cacheDone u) ∧ ICacheOnly s u ∧ l.valid = false ∧
      l.tag = (tagLoSeen s).extractLsb' 8 24 ∧
      u.icache = putAt s.icache (setIndex va) { isetWay (isetAt s (setIndex va)) (va.getLsbD 14) l with fifo := f } := by
  refine ⟨_, _, _, cacheOp_done hva h (if_neg (by simp [ht])), rfl, ?_, ?_, rfl⟩
  · rfl
  · rfl

/-- A Fill that is answered. -/
theorem cacheIFill_ok (hva : va = effectiveAddress s b o) (h : CacheOk s va pa c) (hc : c ≠ 2) {d : LineData}
    (hd : BlockAnswered s pa c d) {way : Bool}
    (hway : way = (ihit (isetAt s (setIndex va)) (primaryTag pa)).getD (isetAt s (setIndex va)).fifo) :
    ∃ u l, exec (.cacheIFill o b) s = .next (cacheDone u) ∧ CacheSide s u ∧ u.cp0 = s.cp0 ∧ SameLink s u ∧ u.wb = [] ∧
      u.mem = (drainAll s).mem ∧ u.dcache = s.dcache ∧ SecondaryFilled pa c d s u ∧
      u.icache = putAt s.icache (setIndex va) { isetWay (isetAt s (setIndex va)) way l with fifo := !way } ∧
      l.valid = true ∧ l.tag = primaryTag pa ∧ itagBad l = false ∧ l.data = d.1 ∧ l.par = (seen .data s).cp0.ecc := by
  obtain ⟨t, l, hfill, hside, hrest⟩ := refillI_filled (va := va) (par := (seen .data s).cp0.ecc) hd hway
  refine ⟨t.addHazard (.icache (setIndex va) (isetAt s (setIndex va))), l, ?_, hside.cacheSide.trans rfl, hside.cp0, hrest⟩
  refine cacheOp_done hva h ((cachedOnly_ok hc).trans ?_)
  dsimp only
  rw [hfill, Res.bind_ok]

end

/-- Settles O39, operation by operation. -/
theorem instructionCacheOperations : Obligations.InstructionCacheOperations := by
  intro s o b va pa c hva h
  refine ⟨?_, fun hc => ?_, ?_, fun ht => ?_, fun d hc hd => ?_, fun hc hh => ?_, fun way l hm hc hh hl hpar => ?_⟩
  · obtain ⟨hframe, hout, hd, hs, hlink⟩ := ICacheOnly.rest (s := s) (u := invalidateI (setIndex va) (va.getLsbD 14) s) rfl
    exact ⟨_, cacheOp_done hva h rfl, hframe, hout, hd, hs, hlink, onlyILine_done rfl rfl⟩
  · cases hh : ihit (isetAt s (setIndex va)) (primaryTag pa) with
    | none =>
      obtain ⟨hframe, hout, hd, hs, hlink⟩ := ICacheOnly.rest (s := s) (u := s) rfl
      exact ⟨_, cacheIHitInvalidate_none hva h hc hh, hframe, hout, hd, hs, hlink, fun _ => sameICache_done rfl rfl, fun _ hw => absurd hw (by simp)⟩
    | some way =>
      obtain ⟨hframe, hout, hd, hs, hlink⟩ := ICacheOnly.rest (s := s) (u := invalidateI (setIndex va) way s) rfl
      refine ⟨_, cacheIHitInvalidate_some hva h hc hh, hframe, hout, hd, hs, hlink, fun hn => absurd hn (by simp), fun w hw => ?_⟩
      cases hw
      exact onlyILine_done rfl rfl
  · obtain ⟨v, hexec, htag, hstate⟩ := cacheIIndexLoadTag_ok hva h
    exact ⟨_, v, hexec, CacheSide.frame (u := (loadTagRegs v s).drawn 3) rfl, htag, hstate, sameICache_done rfl rfl, sameOutside_done rfl rfl, sameDCache_done rfl rfl,
      sameSCache_done rfl rfl, sameLink_done rfl rfl rfl⟩
  · obtain ⟨u, l, f, hexec, honly, hv, htag, hput⟩ := cacheIIndexStoreTag_ok hva h ht
    obtain ⟨hframe, hout, hd, hs, hlink⟩ := honly.rest
    exact ⟨_, l, hexec, hframe, hout, hd, hs, hlink, hv, htag, (putILine_done hput (by rw [honly])).1⟩
  · obtain ⟨u, l, hexec, hside, hcp, hlink, hwb, hmem, hdc, hsec, hput, hv, htag, hbad, hdata, hpar⟩ := cacheIFill_ok hva h hc hd rfl
    refine ⟨_, l, hexec, hcp ▸ hside.frame, sameOutside_done (hwb.trans (drainAll_wb s).symm) hmem, sameDCache_done hdc (by rw [hside]),
      sameLink_done hlink.1 hlink.2.1 hlink.2.2, fun j => (slineAt_cacheDone u j).trans (hsec j), hv, htag, hbad, hdata, hpar, ?_⟩
    rintro way rfl
    exact putILine_done hput (by rw [hside])
  · obtain ⟨hframe, hout, hd, hs, hlink⟩ := ICacheOnly.rest (s := s) (u := s) rfl
    exact ⟨_, cacheIHitWriteback_none hva h hc hh, hframe, hout, sameICache_done rfl rfl, hd, hs, hlink⟩
  · have hout := outsideOnly_pushBlock (lineAddress l.tag (setIndex va)) (va.extractLsb' 12 2) true (c == 3) (lineBytes l.data 0 32)
      (linePar l.data) s
    have hstored := stored_pushBlock hm (lineAddress l.tag (setIndex va)) (va.extractLsb' 12 2) true (c == 3) (lineBytes l.data 0 32)
      (linePar l.data) (by simp [memSize])
    have hsides := sameSides_cacheDone (pushBlock (lineAddress l.tag (setIndex va)) (va.extractLsb' 12 2) true (c == 3)
      (lineBytes l.data 0 32) (linePar l.data) s)
    have hcp := hout.memorySide.cp0
    exact ⟨_, va.extractLsb' 12 2, cacheIHitWriteback_some hva h hc hh hl hpar, hcp ▸ hout.memorySide.cacheSide.frame,
      storedInMemory_congr hstored rfl rfl rfl hsides.mem hsides.physMap hsides.wb, hsides.wb, fun j => slineAt_cacheDone _ j,
      sameICache_done (by rw [hout]) (by rw [hout]), sameDCache_done (by rw [hout]) (by rw [hout]),
      sameLink_done (by rw [hout]) (by rw [hout]) (by rw [hout])⟩

end Sys2Proof.Machine
end

section
/-! SUPPORT. The CACHE operations on the data cache (O40). -/

namespace Sys2Proof.Machine

-- One thread, as in Sys2Proof/Tests: the whole text stays within the check's memory limit.
set_option Elab.async false

/-! ## Lines that leave the data cache (spec/20_memory.md R181, R190) -/

section
variable {s t u : State} {l : DLine} {i : Nat} {way : Bool} {vi : BitVec 2} {d : DSet}

/-- A hit is on a valid line. -/
theorem dvalid_of_dhit {tag : BitVec 24} (h : dhit d tag = some way) : dvalid (dwayOf d way) = true := by
  unfold dhit at h
  split at h
  · cases h
    exact (Bool.and_eq_true_iff.1 ‹_›).1
  · split at h <;> cases h
    exact (Bool.and_eq_true_iff.1 ‹_›).1

/-- Right check bits raise nothing. -/
theorem writebackError_none (cp : Cp0) (h : badBytes l.data l.par = 0) : writebackError cp l = none := by
  simp [writebackError, h]

theorem victimError_none (cp : Cp0) (h : (dvalid l && l.w) = true → badBytes l.data l.par = 0) : victimError cp l = none := by
  unfold victimError
  split
  · exact writebackError_none cp (h ‹_›)
  · rfl

/-- The data cache has no part in what is sent. -/
theorem writeOut_putDSet (l : DLine) (i : Nat) (vi : BitVec 2) (s : State) (j : Nat) (d : DSet) :
    writeOut l i vi (s.putDSet j d) = (writeOut l i vi s).putDSet j d := by
  have hdrain : drainAll (s.putDSet j d) = (drainAll s).putDSet j d := by
    have hdc : (drainAll s).dcache = s.dcache := by rw [outsideOnly_drainAll s]
    rw [State.putDSet, State.putDSet, hdc]
    exact sendAll_setDCache s.wb (putAt s.dcache j d) (s.setWb [])
  unfold writeOut writeBack pushBlock
  rw [hdrain]
  split <;> rfl

theorem secondaryWrittenBack_writeOut (l : DLine) (i : Nat) (vi : BitVec 2) (s : State) : SecondaryWrittenBack l s (writeOut l i vi s) := by
  unfold SecondaryWrittenBack writeOut
  split <;> exact fun _ => rfl

theorem secondaryWrittenBack_congr {s' t' : State} (h : SecondaryWrittenBack l s t) (hs : ∀ j, slineAt s' j = slineAt s j)
    (hd : ∀ j, slineAt (drainAll s') j = slineAt (drainAll s) j) (ht : ∀ j, slineAt t' j = slineAt t j) :
    SecondaryWrittenBack l s' t' := by
  unfold SecondaryWrittenBack at *
  split
  · rw [if_pos ‹_›] at h
    exact fun j => (ht j).trans ((h j).trans (hd j).symm)
  · rw [if_neg ‹_›] at h
    exact fun j => (ht j).trans ((h j).trans (hs j).symm)

/-- The line `l` has left its place of the set `i`, which is now `d`: written back if it was modified, a link to it broken. -/
structure LineLeft (l : DLine) (i : Nat) (d : DSet) (s u : State) : Prop where
  side : MemorySide s u
  memory : WrittenBack l i s u
  secondary : SecondaryWrittenBack l s u
  link : LinkBroken l i s u
  dcache : u.dcache = putAt s.dcache i d
  icache : u.icache = s.icache

theorem lineLeft_writeOut (hm : Memory.wf s.mem) (l : DLine) (i : Nat) (vi : BitVec 2) (d : DSet) :
    LineLeft l i d s ((writeOut l i vi (s.putDSet i d)).lineGone l i) := by
  have hout := outsideOnly_writeOut l i vi (s.putDSet i d)
  have hgone := lineGone_eq (writeOut l i vi (s.putDSet i d)) l i
  have hback := writtenBack_writeOut (s := s.putDSet i d) hm l i vi
  have hsec := secondaryWrittenBack_writeOut l i vi (s.putDSet i d)
  have hlink := linkBroken_lineGone (writeOut l i vi (s.putDSet i d)) l i
  generalize writeOut l i vi (s.putDSet i d) = x at *
  have hside : MemorySide s x := MemorySide.trans (t := s.putDSet i d) rfl hout.memorySide
  refine ⟨hside.trans (memorySide_lineGone x l i), ?_, ?_, ?_, ?_, ?_⟩
  · exact writtenBack_congr hback rfl rfl rfl (by rw [hgone]; rfl) (by rw [hgone]; rfl) (by rw [hgone]; rfl)
  · refine secondaryWrittenBack_congr hsec (fun _ => rfl) (fun j => ?_) fun j => ?_
    · exact slineAt_drainAll_congr (s := s.putDSet i d) (t := s) rfl rfl rfl rfl rfl j
    · rw [hgone]
      rfl
  · have hbit : x.llBit = s.llBit ∧ x.linkAddr = s.linkAddr ∧ x.linkKnown = s.linkKnown := by
      rw [hout]
      exact ⟨rfl, rfl, rfl⟩
    obtain ⟨hl, ha, hk⟩ := hbit
    unfold LinkBroken at hlink ⊢
    rwa [hl, ha, hk] at hlink
  · rw [hgone, hout]
    rfl
  · rw [hgone, hout]
    rfl

/-- A free value drawn before a line leaves has no part in what it leaves. -/
theorem LineLeft.of_drawn {n : Nat} (h : LineLeft l i d (s.drawn n) u) : LineLeft l i d s u where
  side := MemorySide.trans (t := s.drawn n) rfl h.side
  memory := writtenBack_congr h.memory rfl rfl rfl rfl rfl rfl
  secondary := secondaryWrittenBack_congr h.secondary (fun _ => rfl)
    (fun j => slineAt_drainAll_congr (s := s.drawn n) (t := s) rfl rfl rfl rfl rfl j) (fun _ => rfl)
  link := h.link
  dcache := h.dcache
  icache := h.icache

theorem onlyDLine_done (hc : u.dcache = putAt s.dcache i (dsetWay (dsetAt s i) way l)) (hr : u.dcacheRest = s.dcacheRest) :
    OnlyDLine i way l s (cacheDone u) := by
  have h := sameSides_cacheDone u
  exact onlyDLine_of (h.dcache.trans hc) (h.dcacheRest.trans hr)

/-- A way put into its set, whatever the FIFO bit of the set becomes. -/
theorem putDLine_done {f : Bool} (hc : u.dcache = putAt s.dcache i { dsetWay (dsetAt s i) way l with fifo := f })
    (hr : u.dcacheRest = s.dcacheRest) : PutDLine i way l s (cacheDone u) ∧ (dsetAt (cacheDone u) i).fifo = f := by
  have h := sameSides_cacheDone u
  refine ⟨putDLine_of (h.dcache.trans hc) (h.dcacheRest.trans hr) (by simp) (by simp), ?_⟩
  rw [dsetAt_congr (s := s.putDSet i _) (h.dcache.trans hc) (h.dcacheRest.trans hr), dsetAt_putDSet, if_pos rfl]

/-- What stands behind a CACHE instruction whose operation made a line leave. -/
theorem LineLeft.done (h : LineLeft l i d s u) :
    CacheFrame s.cp0 s (cacheDone u) ∧ WrittenBack l i s (cacheDone u) ∧ SecondaryWrittenBack l s (cacheDone u) ∧
      LinkBroken l i s (cacheDone u) ∧ SameICache s (cacheDone u) := by
  have hsides := sameSides_cacheDone u
  exact ⟨h.side.cp0 ▸ h.side.cacheSide.frame, writtenBack_congr h.memory rfl rfl rfl hsides.mem hsides.physMap hsides.wb,
    secondaryWrittenBack_congr h.secondary (fun _ => rfl) (fun _ => rfl) (slineAt_cacheDone u), h.link.sameLink (sameLink_cacheDone u),
    sameICache_done h.icache (by rw [h.side])⟩

/-- A line invalidated behind its write-back, if it had one. -/
theorem invalidateD_writeOut (hl : l = dwayOf (dsetAt s i) way) (vi : BitVec 2) :
    invalidateD i way (writeOut l i vi s) =
      (writeOut l i vi (s.putDSet i (dsetWay (dsetAt s i) way (dtagged { l with state := 0 })))).lineGone l i := by
  have hset : dsetAt (writeOut l i vi s) i = dsetAt s i := by
    have hout := outsideOnly_writeOut l i vi s
    exact dsetAt_congr (by rw [hout]) (by rw [hout]) i
  unfold invalidateD putDLine
  rw [writeOut_putDSet, hset, ← hl]

/-- The write-back goes through where check bits of a modified line are right. -/
theorem writeBackIf_ok {k : State → Res Unit} (hl : l = dwayOf (dsetAt s i) way)
    (hp : (dvalid l && l.w) = true → badBytes l.data l.par = 0) : writeBackIf i way vi false s k = k (writeOut l i vi s) := by
  unfold writeBackIf writeOut
  dsimp only
  rw [← hl]
  split
  · rw [writebackError_none _ (hp ‹_›)]
  · rfl

/-- A modified line that keeps its place. -/
theorem writeBackIf_modified {k : State → Res Unit} {ret : Bool} (hl : l = dwayOf (dsetAt s i) way) (hmod : (dvalid l && l.w) = true)
    (hp : badBytes l.data l.par = 0) : writeBackIf i way vi ret s k = k (writeBack l i vi ret s) := by
  unfold writeBackIf
  dsimp only
  rw [← hl, if_pos hmod, writebackError_none _ hp]

/-- A line made in the place the FIFO bit names. -/
theorem replaceD_ok {cp : Cp0} {new : DLine} (hl : l = dwayOf (dsetAt s i) (dsetAt s i).fifo)
    (hp : (dvalid l && l.w) = true → badBytes l.data l.par = 0) :
    replaceD cp i vi new s = .ok (dsetAt s i).fifo
      ((writeOut l i vi (s.putDSet i { dsetWay (dsetAt s i) (dsetAt s i).fifo new with fifo := !(dsetAt s i).fifo })).lineGone l i) := by
  unfold replaceD
  dsimp only
  rw [← hl, victimError_none cp hp]

/-- Nothing but the data cache, LLbit and the model's own records differs. -/
def DCacheOnly (s u : State) : Prop := u = { s with dcache := u.dcache, llBit := u.llBit, free := u.free, hazards := u.hazards }

theorem DCacheOnly.rest (h : DCacheOnly s u) :
    CacheFrame s.cp0 s (cacheDone u) ∧ SameOutside s (cacheDone u) ∧ SameICache s (cacheDone u) ∧ SameSCache s (cacheDone u) := by
  have hside : CacheSide s u := by unfold DCacheOnly at h; unfold CacheSide; rw [h]
  have hcp : u.cp0 = s.cp0 := by rw [h]
  exact ⟨hcp ▸ hside.frame, sameOutside_done (by rw [h]) (by rw [h]), sameICache_done (by rw [h]) (by rw [h]),
    sameSCache_done (by rw [h]) (by rw [h])⟩

/-- A line put into the data cache, the link to the old one broken. -/
theorem dcacheOnly_lineGone (s : State) (l : DLine) (i : Nat) (d : DSet) :
    DCacheOnly s ((s.putDSet i d).lineGone l i) ∧ LinkBroken l i s ((s.putDSet i d).lineGone l i) ∧
      ((s.putDSet i d).lineGone l i).dcache = putAt s.dcache i d := by
  have hgone := lineGone_eq (s.putDSet i d) l i
  have hlink := linkBroken_lineGone (s.putDSet i d) l i
  generalize (s.putDSet i d).lineGone l i = u at *
  refine ⟨?_, hlink, ?_⟩
  · unfold DCacheOnly
    rw [hgone]
    rfl
  · rw [hgone]
    rfl

/-- The check bits Index Load Tag moves to ECC, in the order of the bits of ECC. -/
theorem laneOrder_getLsbD (big : Bool) (par : BitVec 32) (va : Dword) {k : Nat} (hk : k < 8) :
    (laneOrder big (par.extractLsb' (8 * (va.extractLsb' 3 2).toNat) 8)).getLsbD (if big then 7 - k else k) =
      par.getLsbD (va.toNat / 8 % 4 * 8 + k) := by
  have hplace : 8 * (va.extractLsb' 3 2).toNat = va.toNat / 8 % 4 * 8 := by
    rw [BitVec.extractLsb'_toNat, Nat.shiftRight_eq_div_pow, mul_comm]
  rw [hplace]
  cases big with
  | true =>
    rw [if_pos rfl, laneOrder, if_pos rfl, BitVec.getLsbD_reverse, BitVec.getMsbD]
    simp [hk, show 7 - (7 - k) = k by omega, show 7 - k < 8 by omega]
  | false => simp [laneOrder, hk]

/-- A modified line that has gone to memory and stays, unmodified. -/
theorem writeBack_kept (hm : Memory.wf s.mem) (hmod : (dvalid l && l.w) = true) (vi : BitVec 2) (d : DSet) :
    CacheFrame s.cp0 s (cacheDone ((writeBack l i vi true s).putDSet i d)) ∧
      WrittenBack l i s (cacheDone ((writeBack l i vi true s).putDSet i d)) ∧
      SameSCache (drainAll s) (cacheDone ((writeBack l i vi true s).putDSet i d)) ∧
      SameLink s (cacheDone ((writeBack l i vi true s).putDSet i d)) ∧
      SameICache s (cacheDone ((writeBack l i vi true s).putDSet i d)) := by
  have hsides := sameSides_cacheDone ((writeBack l i vi true s).putDSet i d)
  have hout : OutsideOnly s (writeBack l i vi true s) := outsideOnly_pushBlock _ _ _ _ _ _ _
  have hside : MemorySide s ((writeBack l i vi true s).putDSet i d) := hout.memorySide.trans rfl
  have hstored := storedInMemory_congr (stored_writeBack hm l i vi true) rfl rfl rfl hsides.mem hsides.physMap hsides.wb
  refine ⟨hside.cp0 ▸ hside.cacheSide.frame, ?_, fun j => slineAt_cacheDone _ j, sameLink_done ?_ ?_ ?_, sameICache_done ?_ ?_⟩
  · unfold WrittenBack
    rw [if_pos hmod]
    exact ⟨hstored, vi, true, hsides.wb⟩
  all_goals
    dsimp only [State.putDSet_llBit, State.putDSet_linkAddr, State.putDSet_linkKnown, State.putDSet_icache, State.putDSet_icacheRest]
    rw [hout]

end

/-! ## The operations (spec/45_cp0_system.md R498 to R504) -/

section
variable {s : State} {o : BitVec 16} {b : RegNum} {va : Dword} {pa : PAddr} {c : BitVec 3} {way : Bool} {l : DLine}

theorem cacheDIndexWritebackInvalidate_ok (hva : va = effectiveAddress s b o) (h : CacheOk s va pa c)
    (hl : l = dwayOf (dsetAt s (setIndex va)) (va.getLsbD 14)) (hp : (dvalid l && l.w) = true → badBytes l.data l.par = 0) :
    exec (.cacheDIndexWritebackInvalidate o b) s =
      .next (cacheDone (invalidateD (setIndex va) (va.getLsbD 14) (writeOut l (setIndex va) (va.extractLsb' 12 2) s))) :=
  cacheOp_done hva h (writeBackIf_ok hl hp)

/-- The hit operations have no effect where no line is held. -/
theorem cacheDHit_none (hva : va = effectiveAddress s b o) (h : CacheOk s va pa c) (hc : c ≠ 2)
    (hh : dhit (dsetAt s (setIndex va)) (primaryTag pa) = none) :
    exec (.cacheDHitInvalidate o b) s = .next (cacheDone s) ∧ exec (.cacheDHitWritebackInvalidate o b) s = .next (cacheDone s) ∧
      exec (.cacheDHitWriteback o b) s = .next (cacheDone s) := by
  refine ⟨cacheOp_done hva h ((cachedOnly_ok hc).trans ?_), cacheOp_done hva h ((cachedOnly_ok hc).trans ?_),
    cacheOp_done hva h ((cachedOnly_ok hc).trans ?_)⟩
  all_goals rw [hh]

theorem cacheDHitInvalidate_some (hva : va = effectiveAddress s b o) (h : CacheOk s va pa c) (hc : c ≠ 2)
    (hh : dhit (dsetAt s (setIndex va)) (primaryTag pa) = some way) :
    exec (.cacheDHitInvalidate o b) s = .next (cacheDone (invalidateD (setIndex va) way s)) := by
  refine cacheOp_done hva h ((cachedOnly_ok hc).trans ?_)
  rw [hh]

theorem cacheDHitWritebackInvalidate_some (hva : va = effectiveAddress s b o) (h : CacheOk s va pa c) (hc : c ≠ 2)
    (hh : dhit (dsetAt s (setIndex va)) (primaryTag pa) = some way) (hl : l = dwayOf (dsetAt s (setIndex va)) way)
    (hp : badBytes l.data l.par = 0) :
    exec (.cacheDHitWritebackInvalidate o b) s =
      .next (cacheDone (invalidateD (setIndex va) way (writeOut l (setIndex va) (va.extractLsb' 12 2) s))) := by
  refine cacheOp_done hva h ((cachedOnly_ok hc).trans ?_)
  rw [hh]
  exact writeBackIf_ok hl fun _ => hp

theorem cacheDHitWriteback_modified (hva : va = effectiveAddress s b o) (h : CacheOk s va pa c) (hc : c ≠ 2)
    (hh : dhit (dsetAt s (setIndex va)) (primaryTag pa) = some way) (hl : l = dwayOf (dsetAt s (setIndex va)) way)
    (hw : l.w = true) (hp : badBytes l.data l.par = 0) :
    exec (.cacheDHitWriteback o b) s =
      .next (cacheDone ((writeBack l (setIndex va) (va.extractLsb' 12 2) true s).putDSet (setIndex va)
        (dsetWay (dsetAt s (setIndex va)) way (dtagged { l with w := false })))) := by
  have hmod : (dvalid l && l.w) = true := by rw [hl, dvalid_of_dhit hh, ← hl, hw]; rfl
  have hset : dsetAt (writeBack l (setIndex va) (va.extractLsb' 12 2) true s) (setIndex va) = dsetAt s (setIndex va) := by
    have hout : OutsideOnly s (writeBack l (setIndex va) (va.extractLsb' 12 2) true s) := outsideOnly_pushBlock _ _ _ _ _ _ _
    exact dsetAt_congr (by rw [hout]) (by rw [hout]) _
  refine cacheOp_done hva h ((cachedOnly_ok hc).trans ?_)
  rw [hh]
  dsimp only
  rw [← hl, if_pos hw, writeBackIf_modified hl hmod hp, putDLine, hset, ← hl]

theorem cacheDHitWriteback_unmodified (hva : va = effectiveAddress s b o) (h : CacheOk s va pa c) (hc : c ≠ 2)
    (hh : dhit (dsetAt s (setIndex va)) (primaryTag pa) = some way) (hw : (dwayOf (dsetAt s (setIndex va)) way).w = false) :
    exec (.cacheDHitWriteback o b) s = .next (cacheDone s) := by
  refine cacheOp_done hva h ((cachedOnly_ok hc).trans ?_)
  rw [hh]
  dsimp only
  rw [if_neg (by simp [hw])]

/-- What Index Load Tag leaves: the tag word in TagLo, check bits in ECC. -/
def loadedDTag (v : Word) (p : BitVec 8) (s : State) : State :=
  (((loadTagRegs v s).setCp0 { (loadTagRegs v s).cp0 with ecc := p }).addHazard (.reg 26 s.cp0)).drawn 2

theorem loadTagRegs_cp0 (v : Word) (s : State) : (loadTagRegs v s).cp0 = { s.cp0 with tagLo := v, tagHi := 0 } := rfl

theorem loadedDTag_cp0 (v : Word) (p : BitVec 8) (s : State) :
    (loadedDTag v p s).cp0 = { s.cp0 with tagLo := v, tagHi := 0, ecc := p } := by
  rw [loadedDTag, loadTagRegs_cp0]
  rfl

/-- Nothing but CP0 and the model's own records differs. -/
theorem loadedDTag_side (v : Word) (p : BitVec 8) (s : State) : CacheSide s (loadedDTag v p s) := by
  have hreg : ∀ (u : State) (c : Cp0), CacheSide u (u.setCp0 c) := fun _ _ => rfl
  have hrest : ∀ u : State, CacheSide u ((u.addHazard (.reg 26 s.cp0)).drawn 2) := fun _ => rfl
  have htag : CacheSide s (loadTagRegs v s) := rfl
  exact (htag.trans (hreg _ _)).trans (hrest _)

theorem loadedDTag_sides (v : Word) (p : BitVec 8) (s : State) : SameSides s (loadedDTag v p s) ∧ SameLink s (loadedDTag v p s) := by
  refine ⟨⟨?_, ?_, ?_, ?_, ?_, ?_, ?_, ?_, ?_, ?_⟩, ?_, ?_, ?_⟩
  all_goals simp [loadedDTag, loadTagRegs]

theorem cacheDIndexLoadTag_ok (hva : va = effectiveAddress s b o) (h : CacheOk s va pa c) :
    ∃ v p, exec (.cacheDIndexLoadTag o b) s = .next (cacheDone (loadedDTag v p s)) ∧
      v.extractLsb' 8 24 = (dwayOf (dsetAt s (setIndex va)) (va.getLsbD 14)).tag ∧
      v.extractLsb' 6 2 = (dwayOf (dsetAt s (setIndex va)) (va.getLsbD 14)).state ∧
      ∀ k < 8, p.getLsbD (if s.boot.bigEndianMem then 7 - k else k) =
        (dwayOf (dsetAt s (setIndex va)) (va.getLsbD 14)).par.getLsbD (va.toNat / 8 % 4 * 8 + k) := by
  generalize hl : dwayOf (dsetAt s (setIndex va)) (va.getLsbD 14) = l
  obtain ⟨htag, hstate⟩ := tagWord_fields l.tag l.state ((freeAt s 1).extractLsb' 0 6)
  exact ⟨_, _, cacheOp_done hva h (by subst hl; rfl), htag, hstate, fun k hk => laneOrder_getLsbD s.boot.bigEndianMem l.par va hk⟩

/-- Index Store Tag of a state that may be written. -/
theorem cacheDIndexStoreTag_ok (hva : va = effectiveAddress s b o) (h : CacheOk s va pa c)
    (ht : (tagLoSeen s).extractLsb' 6 2 = 0 ∨ (tagLoSeen s).extractLsb' 6 2 = 3) :
    ∃ (l : DLine) (f : Bool), exec (.cacheDIndexStoreTag o b) s = .next (cacheDone
        (((s.putDSet (setIndex va) { dsetWay (dsetAt s (setIndex va)) (va.getLsbD 14) l with fifo := f }).lineGone
          (dwayOf (dsetAt s (setIndex va)) (va.getLsbD 14)) (setIndex va)).drawn 3)) ∧
      l.state = (tagLoSeen s).extractLsb' 6 2 ∧ l.tag = (tagLoSeen s).extractLsb' 8 24 ∧
      l.data = (dwayOf (dsetAt s (setIndex va)) (va.getLsbD 14)).data := by
  refine ⟨_, _, cacheOp_done hva h (if_neg ?_), rfl, rfl, rfl⟩
  rcases ht with ht | ht <;> simp [ht]

theorem cacheDCreateDirtyExclusive_some (hva : va = effectiveAddress s b o) (h : CacheOk s va pa c) (hc : c ≠ 2)
    (hh : dhit (dsetAt s (setIndex va)) (primaryTag pa) = some way) :
    exec (.cacheDCreateDirtyExclusive o b) s = .next (cacheDone (putDLine (setIndex va) way
      (dtagged { dwayOf (dsetAt s (setIndex va)) way with w := true, wbPage := c == 3 }) s)) := by
  refine cacheOp_done hva h ((cachedOnly_ok hc).trans ?_)
  dsimp only
  rw [hh]

/-- Create Dirty Exclusive where no line is held: a line of right parity is made in the way the FIFO bit names. -/
theorem cacheDCreateDirtyExclusive_none (hm : Memory.wf s.mem) (hva : va = effectiveAddress s b o) (h : CacheOk s va pa c) (hc : c ≠ 2)
    {old : DLine} (hh : dhit (dsetAt s (setIndex va)) (primaryTag pa) = none)
    (hold : old = dwayOf (dsetAt s (setIndex va)) (dsetAt s (setIndex va)).fifo)
    (hp : (dvalid old && old.w) = true → badBytes old.data old.par = 0) :
    ∃ (u : State) (l : DLine), exec (.cacheDCreateDirtyExclusive o b) s = .next (cacheDone u) ∧
      LineLeft old (setIndex va) { dsetWay (dsetAt s (setIndex va)) (dsetAt s (setIndex va)).fifo l with
        fifo := !(dsetAt s (setIndex va)).fifo } s u ∧
      l.state = 3 ∧ l.tag = primaryTag pa ∧ l.w = true ∧ dtagBad l = false ∧ badBytes l.data l.par = 0 := by
  generalize hl : dtagged
    { state := 3, tag := primaryTag pa, w := true, tagPar := false, wPar := false, data := (Config.freeLine s.free 0).extractLsb' 0 256,
      par := linePar ((Config.freeLine s.free 0).extractLsb' 0 256), wbPage := c == 3 } = l
  have hleft := lineLeft_writeOut (s := s.drawn 1) hm old (setIndex va) (va.extractLsb' 12 2)
    { dsetWay (dsetAt s (setIndex va)) (dsetAt s (setIndex va)).fifo l with fifo := !(dsetAt s (setIndex va)).fifo }
  refine ⟨_, l, cacheOp_done hva h ((cachedOnly_ok hc).trans ?_), hleft.of_drawn, ?_⟩
  · dsimp only
    rw [hh]
    dsimp only
    rw [hl, replaceD_ok (s := s.drawn 1) hold hp, Res.bind_ok]
    rfl
  · subst hl
    exact ⟨rfl, rfl, rfl, dtagBad_dtagged _, by simp [badBytes, dtagged]⟩

end

/-- Settles O40, operation by operation. -/
theorem dataCacheOperations : Obligations.DataCacheOperations := by
  refine ⟨fun s o b va pa c hm hva h => ⟨fun l hl hp => ?_, fun hc hh => ?_, fun way l hc hh hl => ⟨?_, fun hp => ⟨?_, fun hw => ?_⟩,
    fun hw => ?_⟩, ?_, fun ht => ?_⟩, fun s o b va pa c hm hva h hc => ⟨fun way hh => ?_, fun old hh hold hp => ?_⟩⟩
  · have hleft := lineLeft_writeOut hm l (setIndex va) (va.extractLsb' 12 2)
      (dsetWay (dsetAt s (setIndex va)) (va.getLsbD 14) (dtagged { l with state := 0 }))
    rw [← invalidateD_writeOut hl] at hleft
    obtain ⟨hframe, hback, hsec, hlink, hi⟩ := hleft.done
    exact ⟨_, cacheDIndexWritebackInvalidate_ok hva h hl hp, hframe, hback, hsec, hlink, hi,
      onlyDLine_done hleft.dcache (by rw [hleft.side])⟩
  · obtain ⟨hinv, hwbinv, hwb⟩ := cacheDHit_none hva h hc hh
    obtain ⟨hframe, hout, hi, hs⟩ := DCacheOnly.rest (s := s) (u := s) rfl
    have hd : SameDCache s (cacheDone s) := sameDCache_done rfl rfl
    have hlink := sameLink_cacheDone s
    exact ⟨⟨_, hinv, hframe, hout, hd, hi, hs, hlink⟩, ⟨_, hwbinv, hframe, hout, hd, hi, hs, hlink⟩,
      ⟨_, hwb, hframe, hout, hd, hi, hs, hlink⟩⟩
  · obtain ⟨honly, hlink, hdc⟩ := dcacheOnly_lineGone s l (setIndex va)
      (dsetWay (dsetAt s (setIndex va)) way (dtagged { l with state := 0 }))
    have hinv : invalidateD (setIndex va) way s = (s.putDSet (setIndex va)
        (dsetWay (dsetAt s (setIndex va)) way (dtagged { l with state := 0 }))).lineGone l (setIndex va) := by
      rw [hl]; rfl
    rw [← hinv] at honly hlink hdc
    obtain ⟨hframe, hout, hi, hs⟩ := honly.rest
    exact ⟨_, cacheDHitInvalidate_some hva h hc hh, hframe, hout, hlink.sameLink (sameLink_cacheDone _), hi, hs,
      onlyDLine_done hdc (by rw [honly])⟩
  · have hleft := lineLeft_writeOut hm l (setIndex va) (va.extractLsb' 12 2)
      (dsetWay (dsetAt s (setIndex va)) way (dtagged { l with state := 0 }))
    rw [← invalidateD_writeOut hl] at hleft
    obtain ⟨hframe, hback, hsec, hlink, hi⟩ := hleft.done
    exact ⟨_, cacheDHitWritebackInvalidate_some hva h hc hh hl hp, hframe, hback, hsec, hlink, hi,
      onlyDLine_done hleft.dcache (by rw [hleft.side])⟩
  · have hmod : (dvalid l && l.w) = true := by rw [hl, dvalid_of_dhit hh, ← hl, hw]; rfl
    have hout : OutsideOnly s (writeBack l (setIndex va) (va.extractLsb' 12 2) true s) := outsideOnly_pushBlock _ _ _ _ _ _ _
    obtain ⟨hframe, hback, hsec, hlink, hi⟩ := writeBack_kept hm hmod (i := setIndex va) (va.extractLsb' 12 2)
      (dsetWay (dsetAt s (setIndex va)) way (dtagged { l with w := false }))
    exact ⟨_, cacheDHitWriteback_modified hva h hc hh hl hw hp, hframe, hback, hsec, hlink, hi,
      onlyDLine_done (by rw [State.putDSet_dcache, hout]) (by rw [State.putDSet_dcacheRest, hout])⟩
  · obtain ⟨hframe, hout, hi, hs⟩ := DCacheOnly.rest (s := s) (u := s) rfl
    exact ⟨_, cacheDHitWriteback_unmodified hva h hc hh (hl ▸ hw), hframe, hout, sameDCache_done rfl rfl, hi, hs, sameLink_cacheDone s⟩
  · obtain ⟨v, p, hexec, htag, hstate, hpar⟩ := cacheDIndexLoadTag_ok hva h
    have hframe := loadedDTag_cp0 v p s ▸ (loadedDTag_side v p s).frame
    obtain ⟨hsides, hll, hla, hlk⟩ := loadedDTag_sides v p s
    exact ⟨_, v, p, hexec, hframe, htag, hstate, hpar, sameDCache_done hsides.dcache hsides.dcacheRest,
      sameICache_done hsides.icache hsides.icacheRest, sameSCache_done hsides.scache hsides.scacheRest,
      sameOutside_done hsides.wb hsides.mem, sameLink_done hll hla hlk⟩
  · obtain ⟨l, f, hexec, hstate, htag, hdata⟩ := cacheDIndexStoreTag_ok hva h ht
    obtain ⟨honly, hlink, hdc⟩ := dcacheOnly_lineGone s (dwayOf (dsetAt s (setIndex va)) (va.getLsbD 14)) (setIndex va)
      { dsetWay (dsetAt s (setIndex va)) (va.getLsbD 14) l with fifo := f }
    generalize (s.putDSet (setIndex va) { dsetWay (dsetAt s (setIndex va)) (va.getLsbD 14) l with fifo := f }).lineGone
      (dwayOf (dsetAt s (setIndex va)) (va.getLsbD 14)) (setIndex va) = u at *
    obtain ⟨hframe, hout, hi, hs⟩ := DCacheOnly.rest (s := s) (u := u.drawn 3) (by unfold DCacheOnly at *; rw [honly]; rfl)
    exact ⟨_, l, hexec, hframe, hout, hi, hs, hstate, htag, hdata, hlink.sameLink (sameLink_cacheDone (u.drawn 3)),
      (putDLine_done (u := u.drawn 3) hdc (show u.dcacheRest = s.dcacheRest by rw [honly])).1⟩
  · obtain ⟨hframe, hout, hi, hs⟩ := DCacheOnly.rest (s := s) (u := putDLine (setIndex va) way
      (dtagged { dwayOf (dsetAt s (setIndex va)) way with w := true, wbPage := c == 3 }) s) rfl
    exact ⟨_, cacheDCreateDirtyExclusive_some hva h hc hh, hframe, hout, hi, sameLink_done rfl rfl rfl, hs, onlyDLine_done rfl rfl⟩
  · obtain ⟨u, l, hexec, hleft, hstate, htag, hw, hbad, hpar⟩ := cacheDCreateDirtyExclusive_none hm hva h hc hh hold hp
    obtain ⟨hframe, hback, hsec, hlink, hi⟩ := hleft.done
    obtain ⟨hput, hfifo⟩ := putDLine_done hleft.dcache (by rw [hleft.side])
    exact ⟨_, l, hexec, hframe, hback, hsec, hlink, hi, hstate, htag, hw, hbad, hpar, hput, hfifo⟩

end Sys2Proof.Machine
end

section
/-! SUPPORT. The CACHE operations on the secondary cache (O41). -/

namespace Sys2Proof.Machine

-- One thread, as in Sys2Proof/Tests: the whole text stays within the check's memory limit.
set_option Elab.async false

section
variable {s u : State}

/-- Nothing but the secondary cache and the model's own records differs. -/
def SCacheOnly (s u : State) : Prop := u = { s with scache := u.scache, scacheRest := u.scacheRest, free := u.free, hazards := u.hazards }

theorem SCacheOnly.rest (h : SCacheOnly s u) :
    CacheFrame s.cp0 s (cacheDone u) ∧ SameOutside s (cacheDone u) ∧ SameDCache s (cacheDone u) ∧ SameICache s (cacheDone u) ∧
      SameLink s (cacheDone u) := by
  have hside : CacheSide s u := by unfold SCacheOnly at h; unfold CacheSide; rw [h]
  have hcp : u.cp0 = s.cp0 := by rw [h]
  exact ⟨hcp ▸ hside.frame, sameOutside_done (by rw [h]) (by rw [h]), sameDCache_done (by rw [h]) (by rw [h]),
    sameICache_done (by rw [h]) (by rw [h]), sameLink_done (by rw [h]) (by rw [h]) (by rw [h])⟩

/-! ## The valid clear (spec/45_cp0_system.md R505) -/

/-- The state with the valid bit of every line of the secondary cache cleared. -/
def scacheCleared (s : State) : State :=
  { s with scache := s.scache.map fun p => (p.1, { p.2 with valid := false }), scacheRest := clearedRest s.scacheRest }

/-- A list of places mapped entry by entry. -/
theorem getAt_map {α β : Type} (f : α → β) (l : List (Nat × α)) (j : Nat) :
    getAt (l.map fun p => (p.1, f p.2)) j = (getAt l j).map f := by
  induction l with
  | nil => rfl
  | cons p l ih =>
    rw [List.map_cons, getAt, getAt, ih]
    split <;> rfl

theorem slineRest_clearedRest (r : Unlisted) (j : Nat) : (slineRest (clearedRest r) j).valid = false := by
  cases r <;> rfl

theorem slineAt_scacheCleared (s : State) (j : Nat) : (slineAt (scacheCleared s) j).valid = false := by
  have hget : getAt (scacheCleared s).scache j = (getAt s.scache j).map fun l => { l with valid := false } :=
    getAt_map (fun l : SLine => ({ l with valid := false } : SLine)) s.scache j
  unfold slineAt
  rw [hget]
  cases getAt s.scache j with
  | none => exact slineRest_clearedRest _ j
  | some l => rfl

/-! ## The tag moves (R506 to R508) -/

/-- The word Index Load Tag makes, bit by bit. -/
theorem stagWord_getLsbD (tag : BitVec 17) (x : BitVec 2) (v : Bool) (y : BitVec 12) (k : Nat) :
    BitVec.getLsbD (w := 32) (tag ++ x ++ bit v ++ y) k =
      if k < 12 then y.getLsbD k else if k - 12 < 1 then (bit v).getLsbD (k - 12)
      else if k - 12 - 1 < 2 then x.getLsbD (k - 12 - 1) else tag.getLsbD (k - 12 - 1 - 2) :=
  BitVec.getLsbD_append.trans (by rw [BitVec.getLsbD_append, BitVec.getLsbD_append])

/-- Tag and valid bit stand in their places. -/
theorem stagWord_fields (tag : BitVec 17) (x : BitVec 2) (v : Bool) (y : BitVec 12) :
    BitVec.extractLsb' (n := 32) 15 17 (tag ++ x ++ bit v ++ y) = tag ∧ BitVec.getLsbD (w := 32) (tag ++ x ++ bit v ++ y) 12 = v := by
  constructor
  · refine BitVec.eq_of_getLsbD_eq fun k hk => ?_
    rw [BitVec.getLsbD_extractLsb', stagWord_getLsbD, if_neg (by omega), if_neg (by omega), if_neg (by omega),
      show 15 + k - 12 - 1 - 2 = k by omega, decide_eq_true hk, Bool.true_and]
  · rw [stagWord_getLsbD, if_neg (by omega), if_pos (by omega)]
    cases v <;> rfl

/-- Storing the tag of TagLo in a row of lines changes the secondary cache alone. -/
theorem scacheOnly_storeSTags (t : Word) (i n : Nat) (s : State) : SCacheOnly s (storeSTags t i n s) := by
  induction n generalizing i s with
  | zero => rfl
  | succ n ih =>
    have hrow := ih (i + 1) (s.putSLine i (storeSTag t (slineAt s i)))
    unfold SCacheOnly at *
    rw [storeSTags, hrow]
    rfl

/-- The lines of the row hold the tag of TagLo, no other line has changed. -/
theorem slineAt_storeSTags (t : Word) (i n : Nat) (s : State) (j : Nat) :
    slineAt (storeSTags t i n s) j = if i ≤ j ∧ j < i + n then storeSTag t (slineAt s j) else slineAt s j := by
  induction n generalizing i s with
  | zero => rw [storeSTags, if_neg (by omega)]
  | succ n ih =>
    rw [storeSTags, ih, slineAt_putSLine]
    by_cases hj : j = i
    · subst hj
      rw [if_neg (by omega), if_pos rfl, if_pos (by omega)]
    · rw [if_neg hj]
      by_cases hrow : i ≤ j ∧ j < i + (n + 1)
      · rw [if_pos hrow, if_pos (by omega)]
      · rw [if_neg hrow, if_neg (by omega)]

theorem pageAligned_extract {pa : PAddr} (h : pa.toNat % 2 ^ 12 = 0) : pa.extractLsb' 0 12 = 0 := by
  refine BitVec.eq_of_toNat_eq ?_
  rw [BitVec.extractLsb'_toNat, Nat.shiftRight_zero, h]
  rfl

end

/-! ## The operations -/

section
variable {s : State} {o : BitVec 16} {b : RegNum} {va : Dword} {pa : PAddr} {c : BitVec 3}

theorem cacheSValidClear_ok (hva : va = effectiveAddress s b o) (h : CacheOk s va pa c) (he : s.boot.scEnable = true)
    (hf : s.boot.scFlashClear = true) : exec (.cacheSValidClear o b) s = .next (cacheDone (scacheCleared s)) := by
  refine cacheOp_done hva h ((needScache_ok he).trans ?_)
  rw [hf]
  rfl

theorem cacheSIndexLoadTag_ok (hva : va = effectiveAddress s b o) (h : CacheOk s va pa c) (he : s.boot.scEnable = true) :
    ∃ v, exec (.cacheSIndexLoadTag o b) s =
        .next (cacheDone (((s.setCp0 { s.cp0 with tagLo := v }).addHazard (.reg 28 s.cp0)).drawn 2)) ∧
      v.extractLsb' 15 17 = (slineAt s (scacheIndex s.boot pa)).tag ∧ v.getLsbD 12 = (slineAt s (scacheIndex s.boot pa)).valid := by
  generalize hl : slineAt s (scacheIndex s.boot pa) = l
  obtain ⟨htag, hvalid⟩ := stagWord_fields l.tag ((freeAt s 1).extractLsb' 0 2) l.valid ((freeAt s 1).extractLsb' 2 12)
  refine ⟨_, cacheOp_done hva h ((needScache_ok he).trans ?_), htag, hvalid⟩
  subst hl
  rfl

theorem cacheSIndexStoreTag_ok (hva : va = effectiveAddress s b o) (h : CacheOk s va pa c) (he : s.boot.scEnable = true) :
    exec (.cacheSIndexStoreTag o b) s = .next (cacheDone
      (s.putSLine (scacheIndex s.boot pa) (storeSTag (tagLoSeen s) (slineAt s (scacheIndex s.boot pa))))) :=
  cacheOp_done hva h (needScache_ok he)

theorem cacheSCachePageInvalidate_ok (hva : va = effectiveAddress s b o) (h : CacheOk s va pa c) (he : s.boot.scEnable = true)
    (ha : pa.toNat % 2 ^ 12 = 0) :
    exec (.cacheSCachePageInvalidate o b) s = .next (cacheDone (storeSTags (tagLoSeen s) (scacheIndex s.boot pa) 128 s)) := by
  refine cacheOp_done hva h ((needScache_ok he).trans (if_neg ?_))
  rw [pageAligned_extract ha]
  decide

end

/-- Settles O41, operation by operation. -/
theorem secondaryCacheOperations : Obligations.SecondaryCacheOperations := by
  intro s o b va pa c hva h he
  refine ⟨fun hf => ?_, ?_, ?_, fun ha => ?_⟩
  · obtain ⟨hframe, hout, hd, hi, hlink⟩ := SCacheOnly.rest (s := s) (u := scacheCleared s) rfl
    refine ⟨_, cacheSValidClear_ok hva h he hf, hframe, hout, hd, hi, hlink, fun j => ?_⟩
    rw [slineAt_cacheDone, slineAt_scacheCleared]
  · obtain ⟨v, hexec, htag, hvalid⟩ := cacheSIndexLoadTag_ok hva h he
    exact ⟨_, v, hexec, CacheSide.frame (u := ((s.setCp0 { s.cp0 with tagLo := v }).addHazard (.reg 28 s.cp0)).drawn 2) rfl,
      sameOutside_done rfl rfl, sameDCache_done rfl rfl, sameICache_done rfl rfl, sameSCache_done rfl rfl, sameLink_done rfl rfl rfl,
      htag, hvalid⟩
  · obtain ⟨hframe, hout, hd, hi, hlink⟩ := SCacheOnly.rest (s := s)
      (u := s.putSLine (scacheIndex s.boot pa) (storeSTag (tagLoSeen s) (slineAt s (scacheIndex s.boot pa)))) rfl
    refine ⟨_, cacheSIndexStoreTag_ok hva h he, hframe, hout, hd, hi, hlink, fun j hj => ?_, ?_⟩
    · rw [slineAt_cacheDone, slineAt_putSLine, if_neg hj]
    · rw [slineAt_cacheDone, slineAt_putSLine, if_pos rfl]
      rfl
  · obtain ⟨hframe, hout, hd, hi, hlink⟩ := (scacheOnly_storeSTags (tagLoSeen s) (scacheIndex s.boot pa) 128 s).rest
    refine ⟨_, cacheSCachePageInvalidate_ok hva h he ha, hframe, hout, hd, hi, hlink, fun j => ?_⟩
    rw [slineAt_cacheDone, slineAt_storeSTags]
    rfl

end Sys2Proof.Machine
end

section
/-! SUPPORT. What a write of a floating-point register leaves; the copies between floating-point registers (O51). -/

namespace Sys2Proof.Machine

-- One thread, as in Sys2Proof/Tests: the whole text stays within the check's memory limit.
set_option Elab.async false

/-! ## Status.FR as a floating-point register access sees it (spec/70_reset_and_hazards.md R870) -/

theorem applyUndo_cp0_congr (u : Undo) {s t : State} (h : t.cp0 = s.cp0) : (applyUndo u t).cp0 = (applyUndo u s).cp0 := by
  cases u with
  | reg n old => exact congrArg (restoreCp0 n old) h
  | tlb | icache | timer | code => exact h

/-- What a consumer sees of CP0 depends on CP0, the pending writes and the choice of the environment alone. -/
theorem seen_cp0_congr (c : Consumer) {s t : State} (hinp : t.inp = s.inp) (hhazards : t.hazards = s.hazards) (hcp : t.cp0 = s.cp0) :
    (seen c t).cp0 = (seen c s).cp0 := by
  unfold seen
  rw [hinp, hhazards]
  generalize s.inp.stale.filter (fun p => p.1 == c) = choices
  generalize s.hazards = hazards
  clear hinp hhazards
  induction choices generalizing s t with
  | nil => exact hcp
  | cons p choices ih =>
    refine ih ?_
    beta_reduce
    cases hazards[p.2]? with
    | none => exact hcp
    | some h => exact applyUndo_cp0_congr h.undo hcp

/-- The floating-point registers are the same, and read and written in the same way. -/
structure SameFprs (s t : State) : Prop where
  fgr : ∀ q, readFgr t q = readFgr s q
  fr : frSeen t = frSeen s

theorem MemorySide.frSeen {s t : State} (h : MemorySide s t) : frSeen t = frSeen s :=
  congrArg (·.status.fr) (seen_cp0_congr .fpRegs (by rw [h]) (by rw [h]) (by rw [h]))

theorem MemorySide.sameFprs {s t : State} (h : MemorySide s t) : SameFprs s t := ⟨readFgr_congr h.fgr, h.frSeen⟩

theorem sameFprs_advance (f : Flow) (s : State) : SameFprs s (advance f s) :=
  ⟨readFgr_congr (advance_fgr f s), congrArg (·.status.fr) (seen_cp0_congr .fpRegs (by simp) (by simp) (by simp))⟩

theorem SameFprs.readFpr {s t : State} (h : SameFprs s t) (f : Fmt) (n : RegNum) : readFpr f t n = readFpr f s n := by
  cases f with
  | S =>
    show zext32 (readFgrS t n) = zext32 (readFgrS s n)
    rw [readFgrS, readFgrS, h.fgr]
  | D =>
    show readFgrD t n = readFgrD s n
    rw [readFgrD, readFgrD, readFgrS, readFgrS, readFgrS, readFgrS, h.fr, h.fgr, h.fgr]

/-! ## A write of a floating-point register -/

/-- Nothing but the floating-point unit and the count of free values differs. -/
def FpOnly (s u : State) : Prop :=
  u = { s with fgr := u.fgr, fcr31 := u.fcr31, fccOld := u.fccOld, free := u.free }

theorem fpOnly_writeFpr (f : Fmt) (n : RegNum) (v : Dword) (s : State) : FpOnly s (writeFpr f n v s) := by
  cases f with
  | S => rfl
  | D =>
    show FpOnly s (writeFgrD n v s)
    unfold writeFgrD
    split <;> rfl

theorem writeFpr_fcr31 (f : Fmt) (n : RegNum) (v : Dword) (s : State) : (writeFpr f n v s).fcr31 = s.fcr31 := by
  cases f with
  | S => rfl
  | D =>
    show (writeFgrD n v s).fcr31 = s.fcr31
    unfold writeFgrD
    split <;> rfl

section
variable {s u : State} (h : FpOnly s u)
include h

theorem FpOnly.frSeen : frSeen u = frSeen s :=
  congrArg (·.status.fr) (seen_cp0_congr .fpRegs (by rw [h]) (by rw [h]) (by rw [h]))

/-- The integer unit, CP0, the platform and memory are as before. -/
theorem FpOnly.same : SameCpu s u ∧ SameSystem s u ∧ SameMemory s u := by
  refine ⟨⟨readGpr_congr ?_, ?_, ?_⟩, ⟨?_, ?_, ⟨?_, ?_, ?_⟩, ⟨?_, ?_, ⟨?_, ?_, ?_⟩, ?_, ?_, ?_, ?_, ?_⟩⟩,
    ⟨fun a => ?_, ?_, ⟨?_, ?_⟩, ⟨?_, ?_⟩, ⟨?_, ?_⟩⟩⟩ <;> rw [h]

theorem FpOnly.pc : u.pc = s.pc := by rw [h]
theorem FpOnly.delay : u.delay = s.delay := by rw [h]

/-- Control then goes on. -/
theorem FpOnly.fpuOnly : FpuOnly s (advance .seq u) := by
  obtain ⟨hcpu, hsystem, hmemory⟩ := h.same
  have hstep := noEffect_advance u
  exact ⟨hcpu.trans hstep.cpu, hsystem.trans hstep.system, by
    constructor <;> simp [hmemory.bytes, hmemory.buffer, hmemory.icache, hmemory.dcache, hmemory.scache], wentOn_advance h.pc h.delay⟩

/-- Memory, caches and link are left as they are. -/
theorem FpOnly.sameSides : SameSides s (advance .seq u) := by
  constructor <;> simp only [advance_mem, advance_wb, advance_icache, advance_icacheRest, advance_dcache, advance_dcacheRest,
    advance_scache, advance_scacheRest, advance_physMap, advance_boot] <;> rw [h]

end

theorem ne_next (n : RegNum) : n ≠ n + 1 := by revert n; decide

theorem low32_append (a b : Word) : low32 (a ++ b) = b := BitVec.setWidth_append_eq_right

/-- A register written in a format: it holds the value, and no other register has changed. -/
theorem writesFpr_writeFpr (f : Fmt) (n : RegNum) (v : Dword) (s : State) : WritesFpr f n v s (writeFpr f n v s) := by
  have hfr := (fpOnly_writeFpr f n v s).frSeen
  cases f with
  | S =>
    have hread : ∀ q, readFgr (writeFpr .S n v s) q = if q = n then upperAfterWord s n ++ low32 v else readFgr s q := fun q =>
      (readFgr_congr (s := s.setFgr n (upperAfterWord s n ++ low32 v)) rfl q).trans (readFgr_setFgr s n q _)
    refine ⟨?_, fun q hq _ => by rw [hread, if_neg hq]⟩
    show zext32 (low32 (readFgr _ n)) = zext32 (low32 v)
    rw [hread, if_pos rfl, low32_append]
  | D =>
    cases hs : frSeen s with
    | true =>
      have hread : ∀ q, readFgr (writeFpr .D n v s) q = if q = n then v else readFgr s q := fun q => by
        rw [writeFpr, writeFgrD, if_pos hs, readFgr_setFgr]
      refine ⟨?_, fun q hq _ => by rw [hread, if_neg hq]⟩
      show readFgrD _ n = v
      rw [readFgrD, hfr, if_pos hs, hread, if_pos rfl]
    | false =>
      have hread : ∀ q, readFgr (writeFpr .D n v s) q =
          if q = n + 1 then (readFgr s (n + 1)).extractLsb' 32 32 ++ v.extractLsb' 32 32
          else if q = n then (readFgr s n).extractLsb' 32 32 ++ v.extractLsb' 0 32 else readFgr s q := fun q => by
        rw [writeFpr, writeFgrD, if_neg (by simp [hs]), readFgr_setFgr, readFgr_setFgr]
      refine ⟨?_, fun q hq hpair => by rw [hread, if_neg (hpair rfl hs), if_neg hq]⟩
      show readFgrD _ n = v
      rw [readFgrD, hfr, if_neg (by simp [hs]), readFgrS, readFgrS, hread, hread, if_pos rfl, if_neg (ne_next n), if_pos rfl, low32_append,
        low32_append, BitVec.extractLsb'_append_extractLsb'_eq_extractLsb' (start₁ := 0) (len₁ := 32) (len₂ := 32) rfl,
        BitVec.extractLsb'_eq_self]

/-- What stands before and behind the write may leave the registers alone. -/
theorem WritesFpr.between {f : Fmt} {n : RegNum} {v : Dword} {s s' t t' : State} (h : WritesFpr f n v s' t') (hs : SameFprs s s')
    (ht : SameFprs t' t) : WritesFpr f n v s t where
  value := (ht.readFpr f n).trans h.value
  others q hq hpair := (ht.fgr q).trans ((h.others q hq fun hf hfr => hpair hf (hs.fr ▸ hfr)).trans (hs.fgr q))

theorem writesFpr_advance (f : Fmt) (n : RegNum) (v : Dword) (s : State) : WritesFpr f n v s (advance .seq (writeFpr f n v s)) :=
  (writesFpr_writeFpr f n v s).between ⟨fun _ => rfl, rfl⟩ (sameFprs_advance _ _)

theorem fpuOnly_writeFpr (f : Fmt) (n : RegNum) (v : Dword) (s : State) : FpuOnly s (advance .seq (writeFpr f n v s)) :=
  (fpOnly_writeFpr f n v s).fpuOnly

theorem advance_writeFpr_fcr31 (f : Fmt) (n : RegNum) (v : Dword) (s : State) : (advance .seq (writeFpr f n v s)).fcr31 = s.fcr31 := by
  rw [advance_fcr31, writeFpr_fcr31]

/-! ## MOV.fmt and the conditional moves (spec/46_fpu_moves.md R540 to R545) -/

/-- All ten forms are one copy behind their gates. -/
theorem exec_of_fpMove {i : Instr} {s : State} {f : FpMoveForm} (h : fpMoveForm s i = some f) :
    exec i s = finish (needCp1 s (if f.mips4 then needMips4 s (moveFpr f.f f.moved f.fd f.fs s)
      else moveFpr f.f f.moved f.fd f.fs s)) := by
  cases i with
  | movS | movD | movzS | movzD => cases h; rfl
  | movfS | movfD => cases h; dsimp only; rw [Bool.decide_eq_false]; rfl
  | movtS | movtD => cases h; dsimp only; rw [Bool.decide_eq_true]; rfl
  | movnS | movnD => cases h; dsimp only; rw [decide_not]; rfl
  | _ => cases h

/-- A copy that depends on a condition writes the register in its format or leaves every register alone. -/
theorem moveFpr_effect (f : Fmt) (c : Bool) {fd fs : RegNum} {s : State} (hn : FprsOk [fd, fs] s) :
    ∃ t, finish (moveFpr f c fd fs s) = .next t ∧ t.fcr31 = s.fcr31 ∧ FpuOnly s t ∧
      if c then WritesFpr f fd (readFpr f s fs) s t else ∀ q, readFgr t q = readFgr s q := by
  rw [moveFpr, evenFprs_ok hn, finish_goOn]
  refine ⟨_, rfl, ?_⟩
  cases c with
  | true => exact ⟨advance_writeFpr_fcr31 _ _ _ _, fpuOnly_writeFpr _ _ _ _, writesFpr_advance _ _ _ _⟩
  | false => exact ⟨advance_fcr31 _ _, FpOnly.fpuOnly (s := s) (u := s) rfl, (sameFprs_advance .seq s).fgr⟩

/-- Settles O51: behind their gates the ten forms are one copy. -/
theorem fpMoves : Obligations.FpMoves := by
  intro i s f hf h1 h4 hn
  rw [exec_of_fpMove hf, needCp1_ok h1, gate_ok h4]
  exact moveFpr_effect f.f f.moved hn

end Sys2Proof.Machine
end

section
/-! SUPPORT. The moves of coprocessor 1, the control registers among them (O52). -/

namespace Sys2Proof.Machine

-- One thread, as in Sys2Proof/Tests: the whole text stays within the check's memory limit.
set_option Elab.async false

/-! ## FCR31 as a word (spec/10_state.md R108, R113) -/

/-- The bits of FCR31 that exist. -/
def fcr31Mask : Word :=
  BitVec.allOnes 7 ++ 1#1 ++ BitVec.allOnes 1 ++ 0#5 ++ BitVec.allOnes 6 ++ BitVec.allOnes 5 ++ BitVec.allOnes 5 ++ BitVec.allOnes 2

/-- A condition field taken from two places stands again in those places. -/
theorem fcc_fields (w : Word) :
    (w.extractLsb' 25 7 ++ w.extractLsb' 23 1 : BitVec 8).extractLsb' 1 7 = w.extractLsb' 25 7 ∧
      (w.extractLsb' 25 7 ++ w.extractLsb' 23 1 : BitVec 8).extractLsb' 0 1 = w.extractLsb' 23 1 :=
  ⟨BitVec.extractLsb'_append_eq_left, BitVec.extractLsb'_append_eq_right⟩

/-- What is written to FCR31 reads back in every bit that exists. -/
theorem packFcr31_unpackFcr31 (w : Word) : packFcr31 (unpackFcr31 w) = w &&& 0xFF83FFFF := by
  obtain ⟨hhigh, hlow⟩ := fcc_fields w
  have htakes : Takes w 0 fcr31Mask (0#7 ++ 0#1 ++ 0#1 ++ 0#5 ++ 0#6 ++ 0#5 ++ 0#5 ++ 0#2) (packFcr31 (unpackFcr31 w)) := by
    unfold packFcr31 unpackFcr31
    dsimp only
    rw [hhigh, hlow]
    exact .append (.append (.append (.append (.append (.append (.append .written .writtenBit) .written) .kept) .written) .written)
      .written) .written
  rw [htakes, masked, BitVec.extractLsb'_eq_self]
  exact BitVec.or_zero

/-- Two sets of exceptions have one in common. -/
theorem and_bne_zero_iff {n : Nat} (a b : BitVec n) : ((a &&& b) != 0) = true ↔ ∃ k < n, a.getLsbD k = true ∧ b.getLsbD k = true := by
  rw [bne_iff_ne]
  constructor
  · intro hne
    by_contra hnone
    refine hne (BitVec.eq_of_getLsbD_eq fun k hk => ?_)
    have hk' : ¬(a.getLsbD k = true ∧ b.getLsbD k = true) := fun hab => hnone ⟨k, hk, hab⟩
    simpa using hk'
  · rintro ⟨k, -, ha, hb⟩ hzero
    have hbit : (a &&& b).getLsbD k = true := by rw [BitVec.getLsbD_and, ha, hb]; rfl
    rw [hzero] at hbit
    simp at hbit

/-- FCR31 raises the Floating-Point exception by its Cause field (spec/48_fpu_exceptions.md R651, R652). -/
theorem fpTraps_iff (t : Fcr31) : fpTraps t = true ↔ TrapsUnder t t.cause := by
  rw [fpTraps, Bool.or_eq_true, and_bne_zero_iff]
  refine or_congr_right (exists_congr fun k => and_congr_right fun hk => ?_)
  rw [BitVec.getLsbD_extractLsb', decide_eq_true hk, Bool.true_and, Nat.zero_add]

/-- A word written to FCR31 raises it by bit 17, or by a bit of 16:12 with its Enable bit in 11:7. -/
theorem fpTraps_unpackFcr31_iff (w : Word) :
    fpTraps (unpackFcr31 w) = true ↔
      w.getLsbD 17 = true ∨ ∃ k < 5, w.getLsbD (12 + k) = true ∧ w.getLsbD (7 + k) = true := by
  have hcause : ∀ k < 6, (unpackFcr31 w).cause.getLsbD k = w.getLsbD (12 + k) := fun k hk => by simp [unpackFcr31, hk]
  have henables : ∀ k < 5, (unpackFcr31 w).enables.getLsbD k = w.getLsbD (7 + k) := fun k hk => by simp [unpackFcr31, hk]
  rw [fpTraps_iff, TrapsUnder, hcause 5 (by decide)]
  refine or_congr_right (exists_congr fun k => and_congr_right fun hk => ?_)
  rw [hcause k (by omega), henables k hk]

/-! ## The control registers (spec/46_fpu_moves.md R537, R538) -/

/-- The state behind CTC1 to FCR31 with no operation in flight: a condition read may still see the old condition bits. -/
def fcr31Written (w : Word) (s : State) : State := (s.setFcr31 (unpackFcr31 w)).setFccOld (some (2, s.fcr31.fcc))

theorem fpOnly_fcr31Written (w : Word) (s : State) : FpOnly s (fcr31Written w s) := rfl

theorem fcr31_fcr31Written (w : Word) (s : State) : packFcr31 (fcr31Written w s).fcr31 = w &&& 0xFF83FFFF := packFcr31_unpackFcr31 w

section
variable {s : State} (h1 : Cp1Ok s) (rt : RegNum)
include h1

theorem exec_cfc1_0 : exec (.cfc1 rt 0) s = .next (advance .seq (s.writeGpr rt (sext32 fcr0))) := by
  show execCfc1 rt 0 s = _
  rw [execCfc1, needCp1_ok h1, if_pos rfl, finish_goOn]

theorem exec_cfc1_31 :
    exec (.cfc1 rt 31) s = .next (advance .seq ((s.writeGpr rt (sext32 (packFcr31 s.fcr31))).setFpBusy false)) := by
  show execCfc1 rt 31 s = _
  rw [execCfc1, needCp1_ok h1, if_neg (by decide), if_pos rfl, finish_goOn]

theorem exec_ctc1_0 : exec (.ctc1 rt 0) s = .next (advance .seq s) := by
  show execCtc1 rt 0 s = _
  rw [execCtc1, needCp1_ok h1, if_neg (by decide), if_pos rfl, finish_goOn]

/-- With no operation in flight CTC1 writes the word given, and then takes the exception or goes on. -/
theorem exec_ctc1_31 (hbusy : s.fpBusy = false) :
    exec (.ctc1 rt 31) s = finish (if fpTraps (unpackFcr31 (low32 (readGpr s rt))) then
      .exc .floatingPoint (fcr31Written (low32 (readGpr s rt)) s) else goOn (fcr31Written (low32 (readGpr s rt)) s)) := by
  show execCtc1 rt 31 s = _
  rw [execCtc1, needCp1_ok h1, if_pos rfl, ctc1Value, hbusy]
  rfl

/-- The other control registers do not exist (log entry 4). -/
theorem reservedFcr_refused {fs : RegNum} (hfs : fcrExists fs = false) :
    exec (.cfc1 rt fs) s = .refused .reservedFcr ∧ exec (.ctc1 rt fs) s = .refused .reservedFcr := by
  obtain ⟨h0, h31⟩ : fs ≠ 0 ∧ fs ≠ 31 := by simpa [fcrExists] using hfs
  constructor
  · show execCfc1 rt fs s = _
    rw [execCfc1, needCp1_ok h1, if_neg h0, if_neg h31, finish_refuse]
  · show execCtc1 rt fs s = _
    rw [execCtc1, needCp1_ok h1, if_neg h31, if_neg h0, finish_refuse]

end

theorem advance_seq_setFpBusy (s : State) (b : Bool) : advance .seq (s.setFpBusy b) = (advance .seq s).setFpBusy b := by
  unfold advance
  cases hd : s.delay <;> simp only [State.setFpBusy_delay, hd] <;> rfl

/-- That no operation is in flight is said of nothing else. -/
theorem WritesGpr.setFpBusy {r : RegNum} {v : Dword} {s t : State} (h : WritesGpr r v s t) (b : Bool) :
    WritesGpr r v s (t.setFpBusy b) where
  gpr := h.gpr
  hiLo := h.hiLo
  fpu := { h.fpu with }
  system := ⟨h.system.cp0, h.system.tlb, h.system.link, { h.system.platform with }⟩
  memory := { h.memory with }
  control := h.control

/-! ## Moves of the general and floating-point registers (R546 to R549) -/

/-- A word by its signed value. -/
theorem word32_s32 (d : Dword) : word32 (s32 d) = sext32 (low32 d) := congrArg sext32 (BitVec.ofInt_toInt ..)

section
variable {s : State} (h1 : Cp1Ok s) (rt fs : RegNum)
include h1

theorem exec_mfc1 : exec (.mfc1 rt fs) s = .next (advance .seq (s.writeGpr rt (sext32 (readFgrS s fs)))) := by
  show execMfc1 rt fs s = _
  rw [execMfc1, needCp1_ok h1, finish_goOn]

theorem exec_mtc1 : exec (.mtc1 rt fs) s = .next (advance .seq (writeFpr .S fs (readGpr s rt) s)) := by
  show execMtc1 rt fs s = _
  rw [execMtc1, needCp1_ok h1, finish_goOn]
  rfl

theorem exec_dmfc1 (h64 : WideOk true s) (hn : FprsOk [fs] s) :
    exec (.dmfc1 rt fs) s = .next (advance .seq (s.writeGpr rt (readFpr .D s fs))) := by
  show execDmfc1 rt fs s = _
  rw [execDmfc1, needCp1_ok h1, need64_ok (h64 rfl), evenFprs_ok hn, finish_goOn]
  rfl

theorem exec_dmtc1 (h64 : WideOk true s) (hn : FprsOk [fs] s) :
    exec (.dmtc1 rt fs) s = .next (advance .seq (writeFpr .D fs (readGpr s rt) s)) := by
  show execDmtc1 rt fs s = _
  rw [execDmtc1, needCp1_ok h1, need64_ok (h64 rfl), evenFprs_ok hn, finish_goOn]
  rfl

end

/-- Settles O52, move by move; CTC1 to FCR31 by whether the word it writes traps. -/
theorem movesOfCoprocessor1 : Obligations.MovesOfCoprocessor1 := by
  refine ⟨fun s rt fs h1 => ⟨⟨_, exec_mfc1 h1 rt fs, ?_⟩, ⟨_, exec_mtc1 h1 rt fs, ?_⟩, fun h64 hn =>
    ⟨⟨_, exec_dmfc1 h1 rt fs h64 hn, ?_⟩, ⟨_, exec_dmtc1 h1 rt fs h64 hn, ?_⟩⟩⟩, ?_⟩
  · rw [word32_s32]
    exact writesGpr_advance s rt _
  · exact ⟨writesFpr_advance _ _ _ _, advance_writeFpr_fcr31 _ _ _ _, fpuOnly_writeFpr _ _ _ _⟩
  · exact writesGpr_advance s rt _
  · exact ⟨writesFpr_advance _ _ _ _, advance_writeFpr_fcr31 _ _ _ _, fpuOnly_writeFpr _ _ _ _⟩
  rintro s rt w h1 rfl
  refine ⟨⟨_, exec_cfc1_0 h1 rt, writesGpr_advance s rt _⟩, ⟨_, exec_cfc1_31 h1 rt, ?_⟩,
    ⟨_, exec_ctc1_0 h1 rt, noEffect_advance s⟩, fun hbusy hE hnone => ?_, fun hbusy htrap => ?_, fun fs hfs => reservedFcr_refused h1 rt hfs⟩
  · rw [advance_seq_setFpBusy]
    exact (writesGpr_advance s rt _).setFpBusy false
  · have hgo : ¬fpTraps (unpackFcr31 (low32 (readGpr s rt))) = true := by
      rw [fpTraps_unpackFcr31_iff]
      rintro (h17 | ⟨k, hk, hcause, henable⟩)
      · exact Bool.false_ne_true (hE.symm.trans h17)
      · exact Bool.false_ne_true ((hnone k hk hcause).symm.trans henable)
    refine ⟨_, by rw [exec_ctc1_31 h1 rt hbusy, if_neg hgo, finish_goOn], ?_, ?_, (fpOnly_fcr31Written _ s).fpuOnly⟩
    · rw [advance_fcr31]
      exact fcr31_fcr31Written _ s
    · exact readFgr_congr (advance_fgr _ _)
  · obtain ⟨hcpu, hsystem, hmemory⟩ := (fpOnly_fcr31Written (low32 (readGpr s rt)) s).same
    exact ⟨_, by rw [exec_ctc1_31 h1 rt hbusy, if_pos ((fpTraps_unpackFcr31_iff _).2 htrap), finish_exc], fcr31_fcr31Written _ s,
      fun _ => rfl, rfl, rfl, hcpu, hsystem, hmemory⟩

end Sys2Proof.Machine
end

section
/-! SUPPORT. The loads and stores of floating-point registers (O53). -/

namespace Sys2Proof.Machine

-- One thread, as in Sys2Proof/Tests: the whole text stays within the check's memory limit.
set_option Elab.async false

theorem fmtBytes_dvd (f : Fmt) : fmtBytes f ∣ 8 := by cases f <;> decide

/-! ## The region of an indexed address (spec/46_fpu_moves.md R524) -/

/-- An indexed address whose region is not its base's. -/
theorem needRegion_not {α : Type} {store : Bool} {base : RegNum} {va : Dword} {s : State} {k : Res α}
    (h : va.toNat / 2 ^ 62 ≠ (readGpr s base).toNat / 2 ^ 62) : needRegion store base va s k = .exc (.addressError store va) s := by
  have hregion : ∀ v : Dword, (v.extractLsb' 62 2).toNat = v.toNat / 2 ^ 62 := fun v => by
    rw [BitVec.extractLsb'_toNat, Nat.shiftRight_eq_div_pow, Nat.mod_eq_of_lt (by have := v.isLt; omega)]
  refine if_neg fun heq => h ?_
  rw [← hregion, ← hregion, beq_iff_eq.1 heq]

/-- Only an indexed form can leave the region. -/
theorem FpMemForm.gates_of_not_sameRegion {f : FpMemForm} {store : Bool} {s : State} {k : Res Flow} (hm : Mips4Ok s)
    (hr : ¬SameRegion f s) : f.gates store s k = .exc (.addressError store f.va) s := by
  unfold SameRegion at hr
  push Not at hr
  obtain ⟨b, hb, hne⟩ := hr
  unfold FpMemForm.gates
  rw [hb]
  exact (needMips4_ok hm).trans (needRegion_not hne)

/-! ## Loads (R526, R527, R530, R531) -/

theorem MemorySide.samePlatform {s t : State} (h : MemorySide s t) : SamePlatform s t :=
  ⟨h.intReg, h.intPin, ⟨h.nmiPin, h.nmiSeen, h.nmiPending⟩, h.timerInt, h.standby, h.boot, h.physMap, h.entered⟩

/-- A register of the floating-point unit written behind an access to memory: everything else but the memory side and the link is as
before. -/
theorem loadsFpr_advance {s t : State} (h : MemorySide s t) (f : Fmt) (n : RegNum) (v : Dword) :
    LoadsFpr f n v s (advance .seq (writeFpr f n v t)) := by
  obtain ⟨hcpu, hsystem, -⟩ := (fpOnly_writeFpr f n v t).same
  have hstep := noEffect_advance (writeFpr f n v t)
  exact
    { register := (writesFpr_writeFpr f n v t).between h.sameFprs (sameFprs_advance _ _)
      fcr31 := (advance_writeFpr_fcr31 f n v t).trans h.fcr31
      cpu := (SameCpu.trans ⟨readGpr_congr h.gpr, h.hi, h.lo⟩ hcpu).trans hstep.cpu
      cp0 := hstep.system.cp0.trans (hsystem.cp0.trans h.cp0)
      tlb := hstep.system.tlb.trans (hsystem.tlb.trans h.tlb)
      platform := (h.samePlatform.trans hsystem.platform).trans hstep.system.platform
      control := wentOn_advance ((fpOnly_writeFpr f n v t).pc.trans h.pc) ((fpOnly_writeFpr f n v t).delay.trans h.delay) }

section
variable {i : Instr} {s : State} {f : FpMemForm} {pa : PAddr} {c : BitVec 3}

/-- A load of the floating-point unit delivers the bytes it reads to its register. -/
theorem deliversRead_fpLoad (hf : fpLoadForm s i = some f) (hok : FpMemOk f s) (hregion : SameRegion f s)
    (hr : Reaches s .load f.va (fmtBytes f.f) pa c) : DeliversRead f.va pa c (fmtBytes f.f) (f.delivers s) s (exec i s) := by
  intro bs t hlen ht hside
  obtain ⟨ha, hd⟩ := hr
  have h8 := Nat.le_of_dvd (by decide) (fmtBytes_dvd f.f)
  have hvalue : word64 (natOfBytes s.boot.bigEndianMem bs) = valueOfBytes s.boot.bigEndianMem bs := by
    rw [word64_natCast, ← (valueOfBytes_toNat _ (hlen ▸ h8)).1, BitVec.ofNat_toNat, BitVec.setWidth_eq]
  have hwrite := fpOnly_writeFpr f.f f.reg (valueOfBytes s.boot.bigEndianMem bs) t
  refine ⟨_, ?_, ?_, hwrite.sameSides, hwrite.fpuOnly.system.link⟩
  · rw [exec_of_fpLoad hf hok hregion ha, loadValue_of_address hd, ht, Res.bind_ok, Res.bind_ok, finish_goOn]
  · rw [FpMemForm.delivers, hvalue]
    exact loadsFpr_advance hside _ _ _

/-! ## Stores (R528, R529, R532, R533) -/

/-- A store of the floating-point unit sends the bytes of its register and leaves the registers alone. -/
theorem makesStore_fpStore (hf : fpStoreForm s i = some f) (hok : FpMemOk f s) (hregion : SameRegion f s)
    (hr : Reaches s .store f.va (fmtBytes f.f) pa c) : MakesStore f.va pa c (f.bytes s) (StoreRest s) s (exec i s) :=
  makesStore_storeRest ((exec_of_fpStore hf hok hregion).trans (congrArg finish (storeBytes_of_reaches _ hr)))

end

/-- Settles O53: a load delivers what its read answers, a store sends the bytes of its register, and an indexed form outside the region of
its base stops before the access. -/
theorem fpLoadsAndStores : Obligations.FpLoadsAndStores := by
  refine ⟨fun i s f pa c n hm hf hok hregion _ hn hr => ?_, fun i s f pa c hm hf hok hregion hp hr => ?_,
    fun i s f hf h1 h4 hregion => ?_, fun i s f hf h1 h4 hregion => ?_⟩
  · subst hn
    have hread := deliversRead_fpLoad hf hok hregion hr
    refine ⟨fun hc => ?_, fun hc => ⟨hread.loadHit hc, hread.loadMiss hm hc⟩⟩
    subst hc
    exact hread.uncachedLoad
  · have hlen : (f.bytes s).length = fmtBytes f.f := bytesOfValue_length _ _ _
    have hfit : lineOffset pa % 8 + (f.bytes s).length ≤ 8 := by
      rw [hlen]
      exact lineOffset_fits hp hr (fmtBytes_dvd f.f)
    have hstore := makesStore_fpStore hf hok hregion hr
    refine ⟨fun hc => ?_, fun hc => ⟨hstore.storeHit hm hc hfit, hstore.storeMiss hm hc hfit⟩⟩
    subst hc
    exact hstore.uncachedStore hm (by simp only [memSize]; omega)
  · rw [exec_of_fpLoadForm hf, needCp1_ok h1, FpMemForm.gates_of_not_sameRegion h4 hregion, finish_exc]
  · rw [exec_of_fpStoreForm hf, needCp1_ok h1, FpMemForm.gates_of_not_sameRegion h4 hregion, finish_exc]

end Sys2Proof.Machine
end

section
/-! SUPPORT. The branches on a condition bit (O13). -/

namespace Sys2Proof.Machine

-- One thread, as in Sys2Proof/Tests: the whole text stays within the check's memory limit.
set_option Elab.async false

/-! ## Branches on a condition bit (spec/47_fpu_arith.md R640 to R644) -/

/-- The four forms are one branch under two tests; its condition is the bit that the instruction sees. -/
theorem exec_of_fpBranch {i : Instr} {s : State} {cc : BitVec 3} (h : fpBranchBit i = some cc) :
    ∃ b, fpBranchForm (conditionRead s cc) s i = some b ∧
      exec i s = finish (needCp1 s (needCc cc s (notInSlot s (.ok b.flow (b.linked s))))) := by
  have hfalse : (conditionRead s cc == false) = !conditionRead s cc := beq_false _
  have htrue : (conditionRead s cc == true) = conditionRead s cc := beq_true _
  cases i with
  | bc1f _ o | bc1fl _ o =>
    cases h
    refine ⟨_, rfl, ?_⟩
    rw [relativeTarget_eq, BranchForm.flow, ← hfalse]
    rfl
  | bc1t _ o | bc1tl _ o =>
    cases h
    refine ⟨_, rfl, ?_⟩
    rw [relativeTarget_eq, BranchForm.flow, ← htrue]
    rfl
  | _ => cases h

/-- Settles O13: behind its gates each form is one transfer of control on the bit it sees. -/
theorem conditionBranches : Obligations.ConditionBranches := by
  intro i s cc hi h1 h4 hslot
  obtain ⟨b, hform, hexec⟩ := exec_of_fpBranch (s := s) hi
  exact ⟨conditionRead s cc, b, _, fun hsettled => conditionRead_of_fccSettled hsettled cc, hform,
    by rw [hexec, needCp1_ok h1, needCc_ok h4, notInSlot_ok hslot, finish_ok], b.branched s⟩

end Sys2Proof.Machine
end

section
/-! SUPPORT. The patterns of floating-point numbers: their fields, kinds and values, and their order on the number line. -/

namespace Sys2Proof.Machine

-- One thread, as in Sys2Proof/Tests: the whole text stays within the check's memory limit.
set_option Elab.async false

section
variable {f : Fmt} {v : Dword}

/-! ## The fields of a pattern (spec/47_fpu_arith.md R571) -/

theorem fpFrac_lt (f : Fmt) (v : Dword) : fpFrac f v < 2 ^ f.frac := Nat.mod_lt _ (Nat.two_pow_pos _)
theorem fpExp_lt (f : Fmt) (v : Dword) : fpExp f v < 2 ^ f.expBits := Nat.mod_lt _ (Nat.two_pow_pos _)

theorem Fmt.expMax_eq (f : Fmt) : f.expMax = 2 * f.bias + 1 := by cases f <;> rfl
theorem Fmt.two_pow_expBits (f : Fmt) : 2 ^ f.expBits = 2 * f.bias + 2 := by cases f <;> rfl
theorem Fmt.bias_pos (f : Fmt) : 0 < f.bias := by cases f <;> decide
theorem Fmt.frac_pos (f : Fmt) : 0 < f.frac := by cases f <;> decide
theorem Fmt.prec_eq (f : Fmt) : f.prec = f.frac + 1 := rfl

theorem fpExp_le (f : Fmt) (v : Dword) : fpExp f v ≤ f.expMax := by
  have := fpExp_lt f v
  rw [f.two_pow_expBits] at this
  rw [f.expMax_eq]
  omega

/-- The place of a pattern on the number line, without its sign. -/
def fpPlace (f : Fmt) (v : Dword) : ℕ := fpExp f v * 2 ^ f.frac + fpFrac f v

theorem fpPlace_eq (f : Fmt) (v : Dword) : fpPlace f v = v.toNat % 2 ^ f.signBit := by
  rw [fpPlace, fpExp, fpFrac, Fmt.signBit, Nat.pow_add, Nat.mod_mul]
  ring

theorem fpSign_iff (f : Fmt) (v : Dword) : fpSign f v = true ↔ v.toNat / 2 ^ f.signBit % 2 = 1 := by
  rw [fpSign, BitVec.getLsbD, Nat.testBit_eq_decide_div_mod_eq, decide_eq_true_iff]

/-- The fields of a pattern made of fields. -/
theorem fpPattern_fields {neg : Bool} {e m : ℕ} (he : e < 2 ^ f.expBits) (hm : m < 2 ^ f.frac) :
    fpSign f (fpPattern f neg e m) = neg ∧ fpExp f (fpPattern f neg e m) = e ∧ fpFrac f (fpPattern f neg e m) = m := by
  have hfit : (if neg then 2 ^ f.signBit else 0) + e * 2 ^ f.frac + m < 2 ^ 64 := by
    cases f <;> cases neg <;> simp only [Fmt.signBit, Fmt.frac, Fmt.expBits, if_true] at he hm ⊢ <;> simp <;> omega
  have hnat : (fpPattern f neg e m).toNat = (if neg then 2 ^ f.signBit else 0) + e * 2 ^ f.frac + m := by
    rw [fpPattern, BitVec.toNat_ofNat, Nat.mod_eq_of_lt hfit]
  refine ⟨?_, ?_, ?_⟩
  · rw [Bool.eq_iff_iff, fpSign_iff, hnat]
    cases f <;> cases neg <;> simp [Fmt.signBit, Fmt.frac, Fmt.expBits] at he hm ⊢ <;> omega
  · rw [fpExp, hnat]
    cases f <;> cases neg <;> simp [Fmt.signBit, Fmt.frac, Fmt.expBits] at he hm ⊢ <;> omega
  · rw [fpFrac, hnat]
    cases f <;> cases neg <;> simp [Fmt.signBit, Fmt.frac, Fmt.expBits] at he hm ⊢ <;> omega

/-- Exponent and fraction are the two parts of the place. -/
theorem fpExp_eq_place (f : Fmt) (v : Dword) : fpExp f v = fpPlace f v / 2 ^ f.frac := by
  rw [fpPlace, mul_comm, Nat.mul_add_div (Nat.two_pow_pos _), Nat.div_eq_of_lt (fpFrac_lt f v), Nat.add_zero]

theorem fpFrac_eq_place (f : Fmt) (v : Dword) : fpFrac f v = fpPlace f v % 2 ^ f.frac := by
  rw [fpPlace, mul_comm, Nat.mul_add_mod, Nat.mod_eq_of_lt (fpFrac_lt f v)]

theorem getLsbD_fpNegate (f : Fmt) (v : Dword) {k : ℕ} (hk : k < 64) :
    (fpNegate f v).getLsbD k = (v.getLsbD k ^^ decide (f.signBit = k)) := by
  rw [fpNegate, BitVec.getLsbD_xor, BitVec.getLsbD_ofNat, decide_eq_true hk, Bool.true_and, Nat.testBit_two_pow]

theorem Fmt.signBit_lt (f : Fmt) : f.signBit < 64 := by cases f <;> decide

@[simp] theorem fpSign_fpNegate (f : Fmt) (v : Dword) : fpSign f (fpNegate f v) = !fpSign f v := by
  rw [fpSign, getLsbD_fpNegate f v f.signBit_lt, decide_eq_true rfl, Bool.xor_true, fpSign]

@[simp] theorem fpPlace_fpNegate (f : Fmt) (v : Dword) : fpPlace f (fpNegate f v) = fpPlace f v := by
  have hsize : 2 ^ f.signBit < 2 ^ 64 := Nat.pow_lt_pow_right (by decide) f.signBit_lt
  rw [fpPlace_eq, fpPlace_eq, fpNegate, BitVec.toNat_xor, BitVec.toNat_ofNat, Nat.mod_eq_of_lt hsize, Nat.xor_mod_two_pow, Nat.mod_self,
    Nat.xor_zero]

@[simp] theorem fpExp_fpNegate (f : Fmt) (v : Dword) : fpExp f (fpNegate f v) = fpExp f v := by
  rw [fpExp_eq_place, fpExp_eq_place, fpPlace_fpNegate]

@[simp] theorem fpFrac_fpNegate (f : Fmt) (v : Dword) : fpFrac f (fpNegate f v) = fpFrac f v := by
  rw [fpFrac_eq_place, fpFrac_eq_place, fpPlace_fpNegate]

/-! ## Kinds (Table 3.5) -/

@[simp] theorem fpKind_fpNegate (f : Fmt) (v : Dword) : fpKind f (fpNegate f v) = fpKind f v := by
  have hquiet : (fpNegate f v).getLsbD (f.frac - 1) = v.getLsbD (f.frac - 1) := by
    rw [getLsbD_fpNegate f v (by cases f <;> decide), decide_eq_false (by cases f <;> decide), Bool.xor_false]
  rw [fpKind, fpKind, fpExp_fpNegate, fpFrac_fpNegate, hquiet]

theorem fpKind_zero_iff : fpKind f v = .zero ↔ fpExp f v = 0 ∧ fpFrac f v = 0 := by
  have := f.expMax_eq
  unfold fpKind
  split_ifs <;> simp_all

theorem fpKind_infinity_iff : fpKind f v = .infinity ↔ fpExp f v = f.expMax ∧ fpFrac f v = 0 := by
  unfold fpKind
  split_ifs <;> simp_all

theorem fpKind_normal_iff : fpKind f v = .normal ↔ 0 < fpExp f v ∧ fpExp f v < f.expMax := by
  have hle := fpExp_le f v
  have := f.expMax_eq
  unfold fpKind
  split_ifs <;> simp_all; omega

theorem fpIsNaN_iff : fpIsNaN f v = true ↔ fpExp f v = f.expMax ∧ fpFrac f v ≠ 0 := by
  unfold fpIsNaN fpKind
  split_ifs <;> simp_all

theorem fpIsNaN_eq_false_iff : fpIsNaN f v = false ↔ fpKind f v ≠ .quietNaN ∧ fpKind f v ≠ .signalingNaN := by
  rw [fpIsNaN, Bool.or_eq_false_iff, beq_eq_false_iff_ne, beq_eq_false_iff_ne]

/-- A finite number is no infinity and no NaN. -/
theorem fpFinite_iff_kind :
    fpFinite f v ↔ fpKind f v ≠ .infinity ∧ fpKind f v ≠ .quietNaN ∧ fpKind f v ≠ .signalingNaN := by
  unfold fpFinite fpKind
  split_ifs <;> simp_all

theorem Ordinary.finite (h : Ordinary f v) : fpFinite f v := by
  rw [fpFinite_iff_kind]
  rcases h with h | h <;> rw [h] <;> decide

/-! ## Values (R571) -/

/-- The exponent of the unit in which every finite number of the format is an integer. -/
def Fmt.least (f : Fmt) : ℤ := 1 - f.bias - f.frac

/-- The magnitude of the number at a place, in the least unit. -/
def numberAt (f : Fmt) (p : ℕ) : ℕ := if p < 2 ^ f.frac then p else (2 ^ f.frac + p % 2 ^ f.frac) * 2 ^ (p / 2 ^ f.frac - 1)

theorem numberAt_succ (f : Fmt) (p : ℕ) : numberAt f (p + 1) = numberAt f p + 2 ^ (p / 2 ^ f.frac - 1) := by
  have hB : 0 < 2 ^ f.frac := Nat.two_pow_pos _
  unfold numberAt
  generalize 2 ^ f.frac = B at hB ⊢
  rcases lt_or_ge p B with hp | hp
  · rw [if_pos hp, Nat.div_eq_of_lt hp]
    rcases Nat.lt_or_eq_of_le (Nat.add_one_le_of_lt hp) with hnext | hnext
    · exact if_pos hnext
    · rw [if_neg (by omega), hnext, Nat.mod_self, Nat.div_self hB]
      omega
  · have ha : 1 ≤ p / B := (Nat.one_le_div_iff hB).2 hp
    obtain ⟨a, ha⟩ : ∃ a, p / B = a + 1 := ⟨p / B - 1, by omega⟩
    have hmod := Nat.mod_lt p hB
    have hp' := Nat.div_add_mod p B
    rw [if_neg (by omega), if_neg (by omega), ha]
    rcases Nat.lt_or_eq_of_le (Nat.add_one_le_of_lt hmod) with hnext | hnext
    · have hsum : p + 1 = (p % B + 1) + B * (a + 1) := by rw [← ha]; omega
      rw [hsum, Nat.add_mul_mod_self_left, Nat.add_mul_div_left _ _ hB, Nat.mod_eq_of_lt hnext, Nat.div_eq_of_lt hnext,
        Nat.zero_add, Nat.add_sub_cancel]
      ring
    · have hsum : p + 1 = B * (a + 2) := by rw [← hp', ha, Nat.add_assoc, hnext]; ring
      have hB' : p % B = B - 1 := by omega
      rw [hsum, Nat.mul_mod_right, Nat.mul_div_cancel_left _ hB, hB', Nat.add_sub_cancel, show a + 2 - 1 = a + 1 from rfl, Nat.add_zero]
      obtain ⟨c, rfl⟩ : ∃ c, B = c + 1 := ⟨B - 1, by omega⟩
      simp only [Nat.add_sub_cancel]
      ring

theorem numberAt_strictMono (f : Fmt) : StrictMono (numberAt f) :=
  strictMono_nat_of_lt_succ fun p => by
    rw [numberAt_succ]
    exact Nat.lt_add_of_pos_right (Nat.two_pow_pos _)

theorem numberAt_zero (f : Fmt) : numberAt f 0 = 0 := if_pos (Nat.two_pow_pos _)

/-- The magnitude of a finite pattern is that of its place. -/
theorem fpMagnitude_eq (f : Fmt) (v : Dword) :
    ((fpMagnitude f v).1 : ℚ) * 2 ^ (fpMagnitude f v).2 = numberAt f (fpPlace f v) * 2 ^ f.least := by
  have hfrac := fpFrac_lt f v
  rw [numberAt, ← fpFrac_eq_place, ← fpExp_eq_place, fpMagnitude]
  rcases Nat.eq_zero_or_pos (fpExp f v) with he | he
  · rw [if_pos he, if_pos (by rw [fpPlace, he]; omega), fpPlace, he, Nat.zero_mul, Nat.zero_add, Fmt.least]
  · have hplace : ¬fpPlace f v < 2 ^ f.frac := by
      have := Nat.le_mul_of_pos_left (2 ^ f.frac) he
      rw [fpPlace]
      omega
    have hexp : (fpExp f v : ℤ) - f.bias - f.frac = (fpExp f v - 1 : ℕ) + f.least := by rw [Fmt.least]; omega
    rw [if_neg (by omega), if_neg hplace, hexp, zpow_add₀ two_ne_zero, zpow_natCast]
    push_cast
    ring

/-- The value of a finite pattern in the least unit. -/
def fpInteger (f : Fmt) (v : Dword) : ℤ := if fpSign f v then -numberAt f (fpPlace f v) else numberAt f (fpPlace f v)

theorem fpValue_eq_fpInteger (f : Fmt) (v : Dword) : fpValue f v = fpInteger f v * 2 ^ f.least := by
  rw [fpValue, mul_assoc, fpMagnitude_eq, fpInteger]
  cases fpSign f v <;> push_cast <;> simp

/-! ## The order of values (spec/47_fpu_arith.md R620) -/

theorem fpOrder_eq (f : Fmt) (v : Dword) : fpOrder f v = if fpSign f v then -(fpPlace f v : ℤ) else fpPlace f v := by
  rw [fpOrder, fpPlace_eq]
  push_cast
  rfl

/-- Values are ordered as their places on the number line. -/
theorem fpOrder_lt_iff (f : Fmt) (a b : Dword) : fpOrder f a < fpOrder f b ↔ fpInteger f a < fpInteger f b := by
  have hab : numberAt f (fpPlace f a) < numberAt f (fpPlace f b) ↔ fpPlace f a < fpPlace f b := (numberAt_strictMono f).lt_iff_lt
  have hba : numberAt f (fpPlace f b) < numberAt f (fpPlace f a) ↔ fpPlace f b < fpPlace f a := (numberAt_strictMono f).lt_iff_lt
  have hpos : ∀ p, 0 < numberAt f p ↔ 0 < p := fun p => by
    simpa only [numberAt_zero] using (numberAt_strictMono f).lt_iff_lt (a := 0) (b := p)
  have ha := hpos (fpPlace f a)
  have hb := hpos (fpPlace f b)
  rw [fpOrder_eq, fpOrder_eq, fpInteger, fpInteger]
  cases fpSign f a <;> cases fpSign f b <;> simp only [if_true, Bool.false_eq_true, if_false] <;> omega

theorem fpOrder_lt_iff_value (f : Fmt) (a b : Dword) : fpOrder f a < fpOrder f b ↔ fpValue f a < fpValue f b := by
  rw [fpOrder_lt_iff, fpValue_eq_fpInteger, fpValue_eq_fpInteger, mul_lt_mul_iff_left₀ (by positivity), Int.cast_lt]

theorem fpOrder_eq_iff_value (f : Fmt) (a b : Dword) : fpOrder f a = fpOrder f b ↔ fpValue f a = fpValue f b := by
  rw [le_antisymm_iff, le_antisymm_iff, ← not_lt, ← not_lt, ← not_lt, ← not_lt, fpOrder_lt_iff_value, fpOrder_lt_iff_value]

end

end Sys2Proof.Machine
end

section
/-! SUPPORT. The compares (O47). -/

namespace Sys2Proof.Machine

-- One thread, as in Sys2Proof/Tests: the whole text stays within the check's memory limit.
set_option Elab.async false

/-! ## The relation of two patterns (spec/47_fpu_arith.md R620) -/

section
variable {f : Fmt} {a b : Dword}

theorem fpRelation_unordered_iff : fpRelation f a b = .unordered ↔ fpIsNaN f a = true ∨ fpIsNaN f b = true := by
  rw [← Bool.or_eq_true, fpRelation]
  split_ifs with h <;> simp [h]

/-- Without a NaN the relation is that of the places on the number line. -/
theorem fpRelation_iff (ha : fpIsNaN f a = false) (hb : fpIsNaN f b = false) :
    (fpRelation f a b = .less ↔ fpOrder f a < fpOrder f b) ∧ (fpRelation f a b = .equal ↔ fpOrder f a = fpOrder f b) ∧
      (fpRelation f a b = .greater ↔ fpOrder f b < fpOrder f a) := by
  rw [fpRelation, ha, hb]
  rcases lt_trichotomy (fpOrder f a) (fpOrder f b) with h | h | h
  · simp [h, h.ne, h.le]
  · simp [h]
  · simp [h, h.ne', h.not_gt]

theorem fpFinite.notNaN (h : fpFinite f a) : fpIsNaN f a = false := by
  obtain ⟨-, hq, hs⟩ := fpFinite_iff_kind.1 h
  exact fpIsNaN_eq_false_iff.2 ⟨hq, hs⟩

/-- The place of infinity. -/
def Fmt.top (f : Fmt) : ℕ := f.expMax * 2 ^ f.frac

theorem Fmt.top_pos (f : Fmt) : 0 < f.top := Nat.mul_pos (by rw [f.expMax_eq]; omega) (Nat.two_pow_pos _)

/-- Every pattern that is no NaN stands below infinity, or is one. -/
theorem fpPlace_infinity_iff (ha : fpIsNaN f a = false) :
    fpPlace f a ≤ f.top ∧ (fpKind f a = .infinity ↔ fpPlace f a = f.top) := by
  have hfrac := fpFrac_lt f a
  rw [fpKind_infinity_iff, fpPlace, Fmt.top]
  rcases Nat.lt_or_eq_of_le (fpExp_le f a) with he | he
  · have hmul := Nat.mul_le_mul_right (2 ^ f.frac) (Nat.add_one_le_of_lt he)
    rw [Nat.succ_mul] at hmul
    omega
  · have h0 : fpFrac f a = 0 := by
      by_contra hne
      rw [fpIsNaN_iff.2 ⟨he, hne⟩] at ha
      cases ha
    simp [he, h0]

theorem kindSign_infinity_iff (ha : fpIsNaN f a = false) (neg : Bool) :
    KindSign f .infinity neg a ↔ fpOrder f a = if neg then -(f.top : ℤ) else (f.top : ℤ) := by
  obtain ⟨hle, hinf⟩ := fpPlace_infinity_iff ha
  have htop := f.top_pos
  rw [KindSign, hinf, fpOrder_eq]
  cases neg <;> cases fpSign f a <;> simp <;> omega

theorem fpOrder_bounds (ha : fpIsNaN f a = false) :
    -(f.top : ℤ) ≤ fpOrder f a ∧ fpOrder f a ≤ (f.top : ℤ) := by
  have hle := (fpPlace_infinity_iff ha).1
  rw [fpOrder_eq]
  split_ifs <;> omega

/-- An infinity of either sign. -/
theorem infinity_iff_kindSign : fpKind f a = .infinity ↔ KindSign f .infinity true a ∨ KindSign f .infinity false a := by
  unfold KindSign
  cases fpSign f a <;> simp

/-- The relation of numbers is that of their values. -/
theorem fpRelation_finite (ha : fpFinite f a) (hb : fpFinite f b) :
    (fpRelation f a b = .less ↔ fpValue f a < fpValue f b) ∧ (fpRelation f a b = .equal ↔ fpValue f a = fpValue f b) ∧
      (fpRelation f a b = .greater ↔ fpValue f b < fpValue f a) := by
  obtain ⟨hless, hequal, hgreater⟩ := fpRelation_iff ha.notNaN hb.notNaN
  exact ⟨hless.trans (fpOrder_lt_iff_value f a b), hequal.trans (fpOrder_eq_iff_value f a b), hgreater.trans (fpOrder_lt_iff_value f b a)⟩

/-- An infinity stands at the end of the number line on the side of its sign. -/
theorem fpRelation_infinity (ha : fpIsNaN f a = false) (hb : fpIsNaN f b = false) (h : fpKind f a = .infinity ∨ fpKind f b = .infinity) :
    (fpRelation f a b = .equal ↔ ∃ neg, KindSign f .infinity neg a ∧ KindSign f .infinity neg b) ∧
      (fpRelation f a b = .less ↔ KindSign f .infinity true a ∧ ¬KindSign f .infinity true b ∨
        KindSign f .infinity false b ∧ ¬KindSign f .infinity false a) ∧
      (fpRelation f a b = .greater ↔ KindSign f .infinity false a ∧ ¬KindSign f .infinity false b ∨
        KindSign f .infinity true b ∧ ¬KindSign f .infinity true a) := by
  obtain ⟨hless, hequal, hgreater⟩ := fpRelation_iff ha hb
  have htop := f.top_pos
  have hboundA := fpOrder_bounds ha
  have hboundB := fpOrder_bounds hb
  simp only [infinity_iff_kindSign, kindSign_infinity_iff ha, kindSign_infinity_iff hb, if_true, Bool.false_eq_true, if_false] at h
  rw [hless, hequal, hgreater, Bool.exists_bool]
  simp only [kindSign_infinity_iff ha, kindSign_infinity_iff hb, if_true, Bool.false_eq_true, if_false]
  refine ⟨?_, ?_, ?_⟩ <;> omega

end

/-! ## What a compare does (R621, spec/48_fpu_exceptions.md R651) -/

theorem conditionBit_setCondition (t : Fcr31) (cc k : BitVec 3) (b : Bool) :
    conditionBit (setCondition t cc b) k = if k = cc then b else conditionBit t k := by
  have hk : k.toNat < 8 := k.isLt
  have hone : (1#8 <<< cc.toNat).getLsbD k.toNat = decide (k = cc) := by
    rw [← BitVec.twoPow_eq, BitVec.getLsbD_twoPow, decide_eq_true cc.isLt, Bool.true_and, decide_eq_decide, BitVec.toNat_inj, eq_comm]
  have hbit : ((bit b).setWidth 8 <<< cc.toNat).getLsbD k.toNat = (b && decide (k = cc)) := by
    cases b with
    | true => exact hone
    | false =>
      have hzero : (bit false).setWidth 8 = 0#8 := rfl
      rw [hzero, BitVec.zero_shiftLeft, BitVec.getLsbD_zero, Bool.false_and]
  rw [conditionBit, setCondition, BitVec.getLsbD_or, BitVec.getLsbD_and, BitVec.getLsbD_not, hone, hbit, conditionBit]
  by_cases h : k = cc <;> simp [h, hk]

theorem fpCondition_iff (cond : BitVec 4) (r : FpRelation) :
    fpCondition cond r = true ↔ (r = .less ∧ cond.getLsbD 2 = true) ∨ (r = .equal ∧ cond.getLsbD 1 = true) ∨
      (r = .unordered ∧ cond.getLsbD 0 = true) := by
  cases r <;> simp [fpCondition]

/-- An operation on floating-point registers traps with Cause written, or collects its exceptions and goes on (R651). -/
theorem fpComplete_of_traps {busy : Bool} {x : BitVec 6} {k : State → State} {s : State} (h : TrapsWith s x) :
    fpComplete busy x k s = .exc .floatingPoint (s.setFcr31 { s.fcr31 with cause := x }) :=
  if_pos ((fpTraps_iff { s.fcr31 with cause := x }).2 h)

theorem fpComplete_of_not_traps {busy : Bool} {x : BitVec 6} {k : State → State} {s : State} (h : ¬TrapsWith s x) :
    fpComplete busy x k s = goOn (k ((s.setFcr31 (fcr31After s x)).setFpBusy (s.fpBusy || busy))) :=
  if_neg fun ht => h ((fpTraps_iff { s.fcr31 with cause := x }).1 ht)

/-- The exceptions of a compare, as the statement says them. -/
theorem compareExceptions_eq (f : Fmt) (cond : BitVec 4) (a b : Dword) :
    compareExceptions f cond a b = if fpKind f a = .signalingNaN ∨ fpKind f b = .signalingNaN ∨
      cond.getLsbD 3 = true ∧ fpRelation f a b = .unordered then xV else 0 := by
  unfold compareExceptions
  refine if_congr ?_ rfl rfl
  simp [or_assoc]

/-- The state behind a compare that does not trap: the condition bit written, the old bits kept for a while (R872). -/
def compared (cc : BitVec 3) (b : Bool) (old : BitVec 8) (u : State) : State :=
  (u.setFcr31 (setCondition u.fcr31 cc b)).setFccOld (some (2, old))

theorem fpOnly_compared (x : BitVec 6) (cc : BitVec 3) (b : Bool) (old : BitVec 8) (s : State) :
    FpOnly s (compared cc b old ((s.setFcr31 (fcr31After s x)).setFpBusy (s.fpBusy || false))) := by
  rw [Bool.or_false]
  rfl

/-- A compare behind its gates. -/
theorem fpCompare_ok {f : Fmt} {cond : BitVec 4} {cc : BitVec 3} {fs ft : RegNum} {s : State} (h1 : Cp1Ok s) (h4 : cc ≠ 0 → Mips4Ok s)
    (hn : FprsOk [fs, ft] s) :
    fpCompare f cond cc fs ft s = fpComplete false (compareExceptions f cond (readFpr f s fs) (readFpr f s ft))
      (compared cc (fpCondition cond (fpRelation f (readFpr f s fs) (readFpr f s ft))) s.fcr31.fcc) s := by
  rw [fpCompare, needCp1_ok h1, needCc_ok h4, evenFprs_ok hn]
  rfl

/-- Settles O47: behind its gates each of the sixteen conditions in both formats is one compare; the relation is that of the values. -/
theorem fpCompares : Obligations.FpCompares := by
  refine ⟨fun i s c x r hc h1 h4 hn hr hx => ?_, fun f a b => ⟨fpRelation_finite, fpRelation_infinity, fpRelation_unordered_iff.symm⟩⟩
  subst hr
  rw [← compareExceptions_eq] at hx
  rw [exec_of_compareForm hc, fpCompare_ok h1 h4 hn, ← hx]
  refine ⟨fun ht => by rw [fpComplete_of_traps ht, finish_exc], fun ht => ?_⟩
  rw [fpComplete_of_not_traps ht, finish_goOn]
  refine ⟨_, rfl, fun k => ?_, ?_, readFgr_congr (advance_fgr _ _), (fpOnly_compared x _ _ _ s).fpuOnly⟩
  · rw [advance_fcr31, compared, State.setFccOld_fcr31, State.setFcr31_fcr31, conditionBit_setCondition]
    split
    · exact propext (fpCondition_iff _ _)
    · rfl
  · rw [advance_fcr31]
    rfl

end Sys2Proof.Machine
end

section
/-! SUPPORT. What a number rounds to with unbounded exponent: the two neighbours of its precision, and which of them the model takes. -/

namespace Sys2Proof.Machine

-- One thread, as in Sys2Proof/Tests: the whole text stays within the check's memory limit.
set_option Elab.async false

/-! ## Numbers of a precision -/

theorem digits_of_le {p q : ℕ} (u : ℤ) (hp : 0 < p) (hq : q ≤ 2 ^ p) : Digits p (q * (2 : ℝ) ^ u) := by
  rcases Nat.lt_or_eq_of_le hq with h | rfl
  · exact ⟨q, u, by rw [Int.abs_natCast]; exact_mod_cast h, by simp⟩
  · refine ⟨1, u + p, ?_, ?_⟩
    · rw [abs_one]
      exact_mod_cast Nat.one_lt_two_pow hp.ne'
    · rw [zpow_add₀ two_ne_zero, zpow_natCast]
      push_cast
      ring

theorem Digits.neg {p : ℕ} {c : ℝ} (h : Digits p c) : Digits p (-c) := by
  obtain ⟨n, e, hn, rfl⟩ := h
  exact ⟨-n, e, by rwa [abs_neg], by push_cast; ring⟩

theorem digits_neg_iff {p : ℕ} {c : ℝ} : Digits p (-c) ↔ Digits p c := ⟨fun h => neg_neg c ▸ h.neg, Digits.neg⟩

theorem digits_zero (p : ℕ) : Digits p 0 := ⟨0, 0, by simp, by simp⟩

section
variable {f : Fmt} {q : ℕ} (hq : 2 ^ f.frac ≤ q) (u : ℤ)
include hq

/-- Between two multiples of the unit in the last place stands no other number of the precision. -/
theorem Digits.gap {c : ℝ} (hc : Digits f.prec c) : c ≤ q * (2 : ℝ) ^ u ∨ (q + 1) * (2 : ℝ) ^ u ≤ c := by
  obtain ⟨n, e, hn, rfl⟩ := hc
  have hu : (0 : ℝ) < 2 ^ u := by positivity
  rcases le_or_gt u e with he | he
  · obtain ⟨k, rfl⟩ : ∃ k : ℕ, e = k + u := ⟨(e - u).toNat, by omega⟩
    rw [zpow_add₀ two_ne_zero, zpow_natCast, ← mul_assoc, mul_le_mul_iff_left₀ hu, mul_le_mul_iff_left₀ hu]
    rcases lt_or_ge (q : ℤ) (n * 2 ^ k) with h | h
    · exact .inr (by exact_mod_cast h)
    · exact .inl (by exact_mod_cast h)
  · obtain ⟨k, rfl⟩ : ∃ k : ℕ, u = e + 1 + k := ⟨(u - e - 1).toNat, by omega⟩
    refine .inl ?_
    have hn' : (n : ℝ) ≤ 2 ^ f.frac * 2 := by exact_mod_cast (lt_of_abs_lt hn).le
    have hq' : (2 : ℝ) ^ f.frac ≤ q := by exact_mod_cast hq
    have hk : (1 : ℝ) ≤ 2 ^ k := one_le_pow₀ one_le_two
    have he : (0 : ℝ) < 2 ^ e := by positivity
    calc (n : ℝ) * 2 ^ e ≤ 2 ^ f.frac * 2 * 2 ^ e := by gcongr
      _ ≤ q * 2 * 2 ^ e * 2 ^ k := by
        rw [mul_assoc, mul_assoc, mul_assoc]
        gcongr
        exact le_mul_of_one_le_right (by positivity) hk
      _ = q * 2 ^ (e + 1 + k) := by rw [zpow_add₀ two_ne_zero, zpow_add₀ two_ne_zero, zpow_natCast, zpow_one]; ring

/-- A multiple of the unit in the last place has an even last digit exactly if one digit less holds it. -/
theorem digits_frac_iff (hq' : q ≤ 2 ^ f.prec) : Digits f.frac (q * (2 : ℝ) ^ u) ↔ q % 2 = 0 := by
  constructor
  · rintro ⟨n, e, hn, heq⟩
    rcases le_or_gt e u with he | he
    · obtain ⟨k, rfl⟩ : ∃ k : ℕ, u = k + e := ⟨(u - e).toNat, by omega⟩
      rw [zpow_add₀ two_ne_zero, zpow_natCast, ← mul_assoc, mul_left_inj' (by positivity)] at heq
      have hn' : n = q * 2 ^ k := by exact_mod_cast heq.symm
      have hlt : q * 2 ^ k < 2 ^ f.frac := by rw [hn'] at hn; exact_mod_cast lt_of_abs_lt hn
      exact absurd (hq.trans (Nat.le_mul_of_pos_right q (Nat.two_pow_pos k))) (not_le.2 hlt)
    · obtain ⟨k, rfl⟩ : ∃ k : ℕ, e = k + 1 + u := ⟨(e - u - 1).toNat, by omega⟩
      rw [zpow_add₀ two_ne_zero, ← mul_assoc, mul_left_inj' (by positivity), ← Nat.cast_succ, zpow_natCast, pow_succ] at heq
      have hn' : (q : ℤ) = n * 2 ^ k * 2 := by rw [mul_assoc]; exact_mod_cast heq
      omega
  · intro heven
    obtain ⟨k, rfl⟩ : ∃ k, q = 2 * k := ⟨q / 2, by omega⟩
    have hk : k ≤ 2 ^ f.frac := by
      rw [f.prec_eq, pow_succ] at hq'
      omega
    have hd := digits_of_le (u + 1) f.frac_pos hk
    rw [zpow_add₀ two_ne_zero, zpow_one] at hd
    convert hd using 1
    push_cast
    ring

end

/-! ## The neighbours of a positive number -/

/-- Two neighbouring numbers of the precision of the format, of which the lower has an odd last digit or an even one. -/
structure Neighbours (f : Fmt) (odd : Bool) (a b : ℝ) : Prop where
  pos : 0 < a
  lt : a < b
  lower : Digits f.prec a
  upper : Digits f.prec b
  gap : ∀ c, Digits f.prec c → c ≤ a ∨ b ≤ c
  lowerEven : Digits f.frac a ↔ odd = false
  upperEven : Digits f.frac b ↔ odd = true

theorem neighbours {f : Fmt} {q : ℕ} (hq : 2 ^ f.frac ≤ q) (hq' : q < 2 ^ f.prec) (u : ℤ) :
    Neighbours f (q % 2 == 1) (q * (2 : ℝ) ^ u) ((q + 1 : ℕ) * (2 : ℝ) ^ u) where
  pos := by
    have : (0 : ℝ) < q := by exact_mod_cast (Nat.two_pow_pos _).trans_le hq
    positivity
  lt := by
    have hu : (0 : ℝ) < 2 ^ u := by positivity
    push_cast
    linarith
  lower := digits_of_le u (Nat.succ_pos _) hq'.le
  upper := digits_of_le u (Nat.succ_pos _) hq'
  gap c hc := by exact_mod_cast hc.gap hq u
  lowerEven := by rw [digits_frac_iff hq u hq'.le, beq_eq_false_iff_ne]; omega
  upperEven := by rw [digits_frac_iff (hq.trans (Nat.le_succ q)) u hq', beq_iff_eq]; omega

/-- A positive number that stands between two neighbours rounds to the upper one. -/
def RoundsUp (rm : BitVec 2) (odd : Bool) (a b r : ℝ) : Prop :=
  rm = 0 ∧ (a + b < 2 * r ∨ a + b = 2 * r ∧ odd = true) ∨ rm = 2 ∧ a < r

/-! RoundsFree mode by mode. -/

section
variable {f : Fmt} {y r : ℝ}

theorem roundsFree_nearest : RoundsFree f 0 y r ↔ Digits f.prec y ∧
    ∀ c, Digits f.prec c → |y - r| ≤ |c - r| ∧ (c ≠ y → |y - r| = |c - r| → Digits f.frac y) := by
  simp [RoundsFree]

theorem roundsFree_towardZero : RoundsFree f 1 y r ↔ Digits f.prec y ∧
    0 ≤ y * r ∧ |y| ≤ |r| ∧ ∀ c, Digits f.prec c → |c| ≤ |r| → |c| ≤ |y| := by
  simp [RoundsFree]

theorem roundsFree_above : RoundsFree f 2 y r ↔ Digits f.prec y ∧ r ≤ y ∧ ∀ c, Digits f.prec c → r ≤ c → y ≤ c := by
  simp [RoundsFree]

theorem roundsFree_below : RoundsFree f 3 y r ↔ Digits f.prec y ∧ y ≤ r ∧ ∀ c, Digits f.prec c → c ≤ r → c ≤ y := by
  simp [RoundsFree]

theorem roundingMode_cases (rm : BitVec 2) : rm = 0 ∨ rm = 1 ∨ rm = 2 ∨ rm = 3 := by revert rm; decide

end

section
variable {f : Fmt} {odd : Bool} {a b r y : ℝ} (h : Neighbours f odd a b) (ha : a ≤ r) (hb : r < b)
include h ha hb

/-- To the nearest: the nearer of the two, of two equally near ones that with an even last digit. -/
theorem Neighbours.roundsNearest_iff :
    RoundsFree f 0 y r ↔ y = b ∧ (a + b < 2 * r ∨ a + b = 2 * r ∧ odd = true) ∨
      y = a ∧ (2 * r < a + b ∨ a + b = 2 * r ∧ odd = false) := by
  have below : ∀ c, c ≤ a → |c - r| = r - c := fun c hc => by rw [abs_sub_comm, abs_of_nonneg (by linarith)]
  have above : ∀ c, b ≤ c → |c - r| = c - r := fun c hc => abs_of_nonneg (by linarith)
  rw [roundsFree_nearest]
  constructor
  · rintro ⟨hd, hnear⟩
    obtain ⟨hnearA, htieA⟩ := hnear a h.lower
    obtain ⟨hnearB, htieB⟩ := hnear b h.upper
    rw [below a le_rfl] at hnearA htieA
    rw [above b le_rfl] at hnearB htieB
    rcases h.gap y hd with hy | hy
    · rw [below y hy] at hnearA hnearB htieB
      obtain rfl : y = a := by linarith
      rcases hnearB.lt_or_eq with hlt | heq
      · exact .inr ⟨rfl, .inl (by linarith)⟩
      · exact .inr ⟨rfl, .inr ⟨by linarith, h.lowerEven.1 (htieB h.lt.ne' heq)⟩⟩
    · rw [above y hy] at hnearA hnearB htieA
      obtain rfl : y = b := by linarith
      rcases hnearA.lt_or_eq with hlt | heq
      · exact .inl ⟨rfl, .inl (by linarith)⟩
      · exact .inl ⟨rfl, .inr ⟨by linarith, h.upperEven.1 (htieA h.lt.ne heq)⟩⟩
  · rintro (⟨rfl, hup⟩ | ⟨rfl, hdown⟩)
    · refine ⟨h.upper, fun c hc => ?_⟩
      rw [above y le_rfl]
      rcases h.gap c hc with hca | hcb
      · rw [below c hca]
        refine ⟨by rcases hup with hup | ⟨hup, -⟩ <;> linarith, fun _ heq => h.upperEven.2 ?_⟩
        rcases hup with hup | ⟨-, hodd⟩
        · linarith
        · exact hodd
      · rw [above c hcb]
        exact ⟨by linarith, fun hne heq => absurd (by linarith) hne⟩
    · refine ⟨h.lower, fun c hc => ?_⟩
      rw [below y le_rfl]
      rcases h.gap c hc with hca | hcb
      · rw [below c hca]
        exact ⟨by linarith, fun hne heq => absurd (by linarith) hne⟩
      · rw [above c hcb]
        refine ⟨by rcases hdown with hdown | ⟨hdown, -⟩ <;> linarith, fun _ heq => h.lowerEven.2 ?_⟩
        rcases hdown with hdown | ⟨-, heven⟩
        · linarith
        · exact heven

theorem Neighbours.roundsTowardZero_iff : RoundsFree f 1 y r ↔ y = a := by
  have hpos := h.pos
  have hr : |r| = r := abs_of_pos (by linarith)
  rw [roundsFree_towardZero, hr]
  constructor
  · rintro ⟨hd, hsign, hle, hgreatest⟩
    have hy : |y| = y := abs_of_nonneg (nonneg_of_mul_nonneg_left hsign (by linarith))
    have hay := hgreatest a h.lower (by rwa [abs_of_pos hpos])
    rw [hy, abs_of_pos hpos] at hay
    rcases h.gap y hd with hya | hyb <;> linarith
  · rintro rfl
    rw [abs_of_pos hpos]
    refine ⟨h.lower, mul_nonneg hpos.le (by linarith), ha, fun c hc hle => ?_⟩
    have habs : Digits f.prec |c| := by
      rcases abs_choice c with heq | heq <;> rw [heq]
      · exact hc
      · exact hc.neg
    rcases h.gap _ habs with hca | hcb <;> linarith

theorem Neighbours.roundsBelow_iff : RoundsFree f 3 y r ↔ y = a := by
  rw [roundsFree_below]
  constructor
  · rintro ⟨hd, hle, hgreatest⟩
    have hay := hgreatest a h.lower ha
    rcases h.gap y hd with hya | hyb <;> linarith
  · rintro rfl
    exact ⟨h.lower, ha, fun c hc hle => (h.gap c hc).elim id fun hcb => by linarith⟩

theorem Neighbours.roundsAbove_iff : RoundsFree f 2 y r ↔ a < r ∧ y = b ∨ a = r ∧ y = a := by
  rw [roundsFree_above]
  constructor
  · rintro ⟨hd, hge, hleast⟩
    rcases ha.lt_or_eq with hlt | heq
    · have hyb := hleast b h.upper hb.le
      rcases h.gap y hd with hya | hby
      · linarith
      · exact .inl ⟨hlt, by linarith⟩
    · have hya := hleast a h.lower heq.ge
      exact .inr ⟨heq, by linarith⟩
  · rintro (⟨hlt, rfl⟩ | ⟨heq, rfl⟩)
    · refine ⟨h.upper, hb.le, fun c hc hrc => (h.gap c hc).elim (fun hca => ?_) id⟩
      linarith
    · exact ⟨h.lower, heq.ge, fun c _ hrc => by linarith⟩

/-- What a positive number rounds to. -/
theorem Neighbours.roundsFree_iff (rm : BitVec 2) :
    (RoundsUp rm odd a b r → (RoundsFree f rm y r ↔ y = b)) ∧ (¬RoundsUp rm odd a b r → (RoundsFree f rm y r ↔ y = a)) := by
  rcases roundingMode_cases rm with rfl | rfl | rfl | rfl
  · have hup : RoundsUp 0 odd a b r ↔ a + b < 2 * r ∨ a + b = 2 * r ∧ odd = true := by simp [RoundsUp]
    have hdown : ¬RoundsUp 0 odd a b r ↔ 2 * r < a + b ∨ a + b = 2 * r ∧ odd = false := by
      rw [hup, not_or, not_lt, not_and, Bool.not_eq_true, le_iff_lt_or_eq, eq_comm (a := 2 * r)]
      constructor
      · rintro ⟨hlt | heq, heven⟩
        · exact .inl hlt
        · exact .inr ⟨heq, heven heq⟩
      · rintro (hlt | ⟨heq, heven⟩)
        · exact ⟨.inl hlt, fun heq => absurd heq hlt.ne'⟩
        · exact ⟨.inr heq, fun _ => heven⟩
    rw [h.roundsNearest_iff ha hb, ← hup, ← hdown]
    exact ⟨fun hu => ⟨fun hy => hy.elim And.left fun hd => absurd hu hd.2, fun hy => .inl ⟨hy, hu⟩⟩,
      fun hd => ⟨fun hy => hy.elim (fun hu => absurd hu.2 hd) And.left, fun hy => .inr ⟨hy, hd⟩⟩⟩
  · rw [h.roundsTowardZero_iff ha hb]
    exact ⟨fun hu => by simp [RoundsUp] at hu, fun _ => Iff.rfl⟩
  · have hup : RoundsUp 2 odd a b r ↔ a < r := by simp [RoundsUp]
    rw [h.roundsAbove_iff ha hb, hup]
    exact ⟨fun hlt => by simp [hlt, hlt.ne], fun hle => by simp [ha.antisymm (not_lt.1 hle)]⟩
  · rw [h.roundsBelow_iff ha hb]
    exact ⟨fun hu => by simp [RoundsUp] at hu, fun _ => Iff.rfl⟩

end

/-! ## Exact numbers and negative numbers -/

section
variable {f : Fmt} {rm : BitVec 2} {y r : ℝ}

/-- A number of the precision rounds to itself. -/
theorem roundsFree_iff_of_digits (hr : Digits f.prec r) : RoundsFree f rm y r ↔ y = r := by
  constructor
  · intro h
    rcases roundingMode_cases rm with rfl | rfl | rfl | rfl
    · have hnear := ((roundsFree_nearest.1 h).2 r hr).1
      rw [sub_self, abs_zero] at hnear
      exact sub_eq_zero.1 (abs_nonpos_iff.1 hnear)
    · obtain ⟨-, hsign, hle, hgreatest⟩ := roundsFree_towardZero.1 h
      have habs := le_antisymm hle (hgreatest r hr le_rfl)
      rcases abs_eq_abs.1 habs with heq | heq
      · exact heq
      · have h0 : r = 0 := by
          rw [heq] at hsign
          nlinarith
        rw [heq, h0, neg_zero]
    · obtain ⟨-, hle, hleast⟩ := roundsFree_above.1 h
      exact le_antisymm (hleast r hr le_rfl) hle
    · obtain ⟨-, hle, hgreatest⟩ := roundsFree_below.1 h
      exact le_antisymm hle (hgreatest r hr le_rfl)
  · rintro rfl
    rcases roundingMode_cases rm with rfl | rfl | rfl | rfl
    · refine roundsFree_nearest.2 ⟨hr, fun c _ => ?_⟩
      rw [sub_self, abs_zero]
      exact ⟨abs_nonneg _, fun hne heq => absurd (sub_eq_zero.1 (abs_eq_zero.1 heq.symm)) hne⟩
    · exact roundsFree_towardZero.2 ⟨hr, mul_self_nonneg y, le_rfl, fun _ _ hc => hc⟩
    · exact roundsFree_above.2 ⟨hr, le_rfl, fun _ _ hc => hc⟩
    · exact roundsFree_below.2 ⟨hr, le_rfl, fun _ _ hc => hc⟩

/-- The mode that does to a number what `rm` does to its opposite. -/
def oppositeMode (rm : BitVec 2) : BitVec 2 := if rm = 2 then 3 else if rm = 3 then 2 else rm

theorem RoundsFree.neg (h : RoundsFree f rm y r) : RoundsFree f (oppositeMode rm) (-y) (-r) := by
  have hflip : ∀ x z : ℝ, |-x - -z| = |x - z| := fun x z => by rw [neg_sub_neg, abs_sub_comm]
  have hflip' : ∀ x z : ℝ, |x - -z| = |-x - z| := fun x z => by rw [← abs_neg]; congr 1; ring
  rcases roundingMode_cases rm with rfl | rfl | rfl | rfl
  · show RoundsFree f 0 (-y) (-r)
    obtain ⟨hd, hnear⟩ := roundsFree_nearest.1 h
    refine roundsFree_nearest.2 ⟨hd.neg, fun c hc => ?_⟩
    obtain ⟨hle, htie⟩ := hnear (-c) hc.neg
    rw [hflip, hflip' c]
    exact ⟨hle, fun hne heq => (htie (fun h => hne (by rw [← h, neg_neg])) heq).neg⟩
  · show RoundsFree f 1 (-y) (-r)
    obtain ⟨hd, hsign, hle, hgreatest⟩ := roundsFree_towardZero.1 h
    rw [roundsFree_towardZero, neg_mul_neg, abs_neg, abs_neg]
    exact ⟨hd.neg, hsign, hle, hgreatest⟩
  · show RoundsFree f 3 (-y) (-r)
    obtain ⟨hd, hle, hleast⟩ := roundsFree_above.1 h
    exact roundsFree_below.2 ⟨hd.neg, neg_le_neg hle, fun c hc hcr => by linarith [hleast (-c) hc.neg (by linarith)]⟩
  · show RoundsFree f 2 (-y) (-r)
    obtain ⟨hd, hle, hgreatest⟩ := roundsFree_below.1 h
    exact roundsFree_above.2 ⟨hd.neg, neg_le_neg hle, fun c hc hcr => by linarith [hgreatest (-c) hc.neg (by linarith)]⟩

theorem oppositeMode_oppositeMode (rm : BitVec 2) : oppositeMode (oppositeMode rm) = rm := by revert rm; decide

theorem roundsFree_neg_iff : RoundsFree f (oppositeMode rm) (-y) (-r) ↔ RoundsFree f rm y r :=
  ⟨fun h => by simpa [oppositeMode_oppositeMode] using h.neg, RoundsFree.neg⟩

end

end Sys2Proof.Machine
end

section
/-! SUPPORT. The model's rounding and encoding: the number an exact magnitude rounds to, and the outcome it is encoded as. -/

namespace Sys2Proof.Machine

-- One thread, as in Sys2Proof/Tests: the whole text stays within the check's memory limit.
set_option Elab.async false

/-! ## Rounding a magnitude (spec/47_fpu_arith.md R575 (c)) -/

/-- A magnitude is `m * 2 ^ e`, or with a sticky bit strictly between that and the next multiple of `2 ^ e`. -/
def Stands (m : ℕ) (e : ℤ) (sticky : Bool) (x : ℝ) : Prop :=
  ∃ δ : ℝ, x = (m + δ) * 2 ^ e ∧ if sticky then 0 < δ ∧ δ < 1 else δ = 0

theorem stands_exact (m : ℕ) (e : ℤ) : Stands m e false (m * 2 ^ e) := ⟨0, by rw [add_zero], rfl⟩

/-- A magnitude from `m * 2 ^ e` to the next multiple of `2 ^ e`, of which it is known whether it is the former. -/
theorem stands_of_bounds {m : ℕ} {e : ℤ} {sticky : Bool} {x : ℝ} (hlow : m * (2 : ℝ) ^ e ≤ x) (hhigh : x < (m + 1) * (2 : ℝ) ^ e)
    (hs : sticky = true ↔ x ≠ m * (2 : ℝ) ^ e) : Stands m e sticky x := by
  have he : (0 : ℝ) < 2 ^ e := by positivity
  refine ⟨x / 2 ^ e - m, by field_simp; ring, ?_⟩
  rw [sub_pos, sub_lt_iff_lt_add', sub_eq_zero, lt_div_iff₀ he, div_lt_iff₀ he, div_eq_iff he.ne']
  cases sticky with
  | true => exact ⟨hlow.lt_of_ne (hs.1 rfl).symm, hhigh⟩
  | false => exact not_not.1 fun hne => Bool.false_ne_true (hs.2 hne)

theorem Stands.bounds {m : ℕ} {e : ℤ} {sticky : Bool} {x : ℝ} (h : Stands m e sticky x) :
    m * (2 : ℝ) ^ e ≤ x ∧ x < (m + 1) * (2 : ℝ) ^ e := by
  obtain ⟨δ, rfl, hδ⟩ := h
  have he : (0 : ℝ) < 2 ^ e := by positivity
  have hδ' : 0 ≤ δ ∧ δ < 1 := by
    cases sticky with
    | true => exact ⟨hδ.1.le, hδ.2⟩
    | false => exact ⟨ge_of_eq hδ, hδ ▸ one_pos⟩
  constructor <;> gcongr <;> linarith

/-- How many bits of a magnitude do not fit the precision. -/
def droppedBits (f : Fmt) (m : ℕ) : ℕ := m.log2 + 1 - f.prec

/-- The magnitude that `m` rounds to, in units of its last place. -/
def roundedMagnitude (f : Fmt) (rm : BitVec 2) (neg : Bool) (m : ℕ) (sticky : Bool) : ℕ :=
  if roundsUp rm neg (m / 2 ^ droppedBits f m % 2 == 1) (m % 2 ^ droppedBits f m) (2 ^ droppedBits f m) sticky
  then m / 2 ^ droppedBits f m + 1 else m / 2 ^ droppedBits f m

theorem fpRound_eq (f : Fmt) (t : Fcr31) (neg : Bool) (m : ℕ) (e : ℤ) (sticky : Bool) :
    fpRound f t neg m e sticky = fpEncode f t neg (roundedMagnitude f t.rm neg m sticky) (e + droppedBits f m)
      (m % 2 ^ droppedBits f m != 0 || sticky) := rfl

theorem roundsUp_true (rm : BitVec 2) (odd : Bool) (rem full : ℕ) (sticky : Bool) :
    roundsUp rm true odd rem full sticky = roundsUp (oppositeMode rm) false odd rem full sticky := by
  rcases roundingMode_cases rm with rfl | rfl | rfl | rfl <;> rfl

theorem roundedMagnitude_true (f : Fmt) (rm : BitVec 2) (m : ℕ) (sticky : Bool) :
    roundedMagnitude f rm true m sticky = roundedMagnitude f (oppositeMode rm) false m sticky := by
  rw [roundedMagnitude, roundsUp_true]
  rfl

/-- To the nearest: `rem` and what is below it, `δ`, against half of the unit in the last place. -/
theorem roundsUp_nearest_iff {odd sticky : Bool} {rem k : ℕ} {δ : ℝ} (hδ : if sticky then 0 < δ ∧ δ < 1 else δ = 0)
    (hk : sticky = true → 0 < k) :
    roundsUp 0 false odd rem (2 ^ k) sticky = true ↔
      ((2 ^ k : ℕ) : ℝ) < 2 * rem + 2 * δ ∨ ((2 ^ k : ℕ) : ℝ) = 2 * rem + 2 * δ ∧ odd = true := by
  have hmodel : roundsUp 0 false odd rem (2 ^ k) sticky = true ↔ 2 ^ k < 2 * rem ∨ 2 * rem = 2 ^ k ∧ (sticky = true ∨ odd = true) := by
    simp [roundsUp]
  rw [hmodel]
  cases sticky with
  | true =>
    obtain ⟨hδ0, hδ1⟩ := hδ
    obtain ⟨j, rfl⟩ : ∃ j, k = j + 1 := ⟨k - 1, by have := hk rfl; omega⟩
    rw [pow_succ]
    have hup : (((2 ^ j * 2 : ℕ) : ℝ) < 2 * rem + 2 * δ) ↔ 2 ^ j ≤ rem := by
      rw [← Nat.lt_add_one_iff]
      constructor
      · intro h
        have hreal : ((2 ^ j : ℕ) : ℝ) < (rem + 1 : ℕ) := by push_cast at h ⊢; linarith
        exact_mod_cast hreal
      · intro h
        have hreal : ((2 ^ j : ℕ) : ℝ) ≤ rem := by exact_mod_cast Nat.lt_add_one_iff.1 h
        push_cast at hreal ⊢
        linarith
    have hno : ¬((2 ^ j * 2 : ℕ) : ℝ) = 2 * rem + 2 * δ := by
      intro h
      have hle : 2 ^ j ≤ rem ∨ rem + 1 ≤ 2 ^ j := by omega
      rcases hle with hle | hle
      · have hreal : ((2 ^ j : ℕ) : ℝ) ≤ rem := by exact_mod_cast hle
        push_cast at h hreal
        linarith
      · have hreal : ((rem + 1 : ℕ) : ℝ) ≤ (2 ^ j : ℕ) := by exact_mod_cast hle
        push_cast at h hreal
        linarith
    simp only [hup, hno, false_and, or_false, and_true, true_or]
    omega
  | false =>
    obtain rfl : δ = 0 := hδ
    have hlt : ((2 ^ k : ℕ) : ℝ) < 2 * rem + 2 * 0 ↔ 2 ^ k < 2 * rem := by rw [mul_zero, add_zero]; exact_mod_cast Iff.rfl
    have heq : ((2 ^ k : ℕ) : ℝ) = 2 * rem + 2 * 0 ↔ 2 * rem = 2 ^ k := by
      rw [mul_zero, add_zero, eq_comm]; exact_mod_cast Iff.rfl
    rw [hlt, heq]
    simp

/-- Toward positive infinity: something is dropped. -/
theorem roundsUp_above_iff {odd sticky : Bool} {rem full : ℕ} {δ : ℝ} (hδ : if sticky then 0 < δ ∧ δ < 1 else δ = 0) :
    roundsUp 2 false odd rem full sticky = true ↔ 0 < (rem : ℝ) + δ := by
  have hmodel : roundsUp 2 false odd rem full sticky = true ↔ rem ≠ 0 ∨ sticky = true := by simp [roundsUp]
  have hrem : (0 : ℝ) ≤ rem := Nat.cast_nonneg _
  rw [hmodel]
  cases sticky with
  | true => exact iff_of_true (.inr rfl) (by linarith [hδ.1])
  | false =>
    obtain rfl : δ = 0 := hδ
    simp [Nat.pos_iff_ne_zero]

/-- The model rounds a positive magnitude up where the rule does: `q` and `rem` are its kept and its dropped part. -/
theorem roundsUp_iff {rm : BitVec 2} {odd sticky : Bool} {q rem k : ℕ} {e : ℤ} {x : ℝ} (hx : Stands (2 ^ k * q + rem) e sticky x)
    (hk : sticky = true → 0 < k) :
    roundsUp rm false odd rem (2 ^ k) sticky = true ↔
      RoundsUp rm odd (q * (2 : ℝ) ^ (e + k)) ((q + 1 : ℕ) * (2 : ℝ) ^ (e + k)) x := by
  obtain ⟨δ, rfl, hδ⟩ := hx
  have he : (0 : ℝ) < 2 ^ e := by positivity
  have hsum : q * (2 : ℝ) ^ (e + k) + (q + 1 : ℕ) * (2 : ℝ) ^ (e + k) = (2 * (2 ^ k * q) + 2 ^ k) * 2 ^ e := by
    rw [zpow_add₀ two_ne_zero, zpow_natCast]
    push_cast
    ring
  have hlow : q * (2 : ℝ) ^ (e + k) = 2 ^ k * q * 2 ^ e := by rw [zpow_add₀ two_ne_zero, zpow_natCast]; ring
  have hnearer : q * (2 : ℝ) ^ (e + k) + (q + 1 : ℕ) * (2 : ℝ) ^ (e + k) < 2 * (((2 ^ k * q + rem : ℕ) + δ) * 2 ^ e) ↔
      ((2 ^ k : ℕ) : ℝ) < 2 * rem + 2 * δ := by
    rw [hsum, ← mul_assoc 2 _ ((2 : ℝ) ^ e), mul_lt_mul_iff_left₀ he]
    push_cast
    constructor <;> intro h <;> linarith
  have htie : q * (2 : ℝ) ^ (e + k) + (q + 1 : ℕ) * (2 : ℝ) ^ (e + k) = 2 * (((2 ^ k * q + rem : ℕ) + δ) * 2 ^ e) ↔
      ((2 ^ k : ℕ) : ℝ) = 2 * rem + 2 * δ := by
    rw [hsum, ← mul_assoc 2 _ ((2 : ℝ) ^ e), mul_left_inj' he.ne']
    push_cast
    constructor <;> intro h <;> linarith
  have habove : q * (2 : ℝ) ^ (e + k) < ((2 ^ k * q + rem : ℕ) + δ) * 2 ^ e ↔ 0 < rem + δ := by
    rw [hlow, mul_lt_mul_iff_left₀ he]
    push_cast
    constructor <;> intro h <;> linarith
  rw [RoundsUp, hnearer, htie, habove]
  rcases roundingMode_cases rm with rfl | rfl | rfl | rfl
  · rw [roundsUp_nearest_iff hδ hk]
    simp
  · simp [roundsUp]
  · rw [roundsUp_above_iff hδ]
    simp
  · simp [roundsUp]

/-- Exact is what leaves nothing behind. -/
theorem stands_multiple_iff {q rem k : ℕ} {e : ℤ} {sticky : Bool} {x : ℝ} (hx : Stands (2 ^ k * q + rem) e sticky x) :
    q * (2 : ℝ) ^ (e + k) < x ↔ (rem != 0 || sticky) = true := by
  obtain ⟨δ, rfl, hδ⟩ := hx
  have hlow : q * (2 : ℝ) ^ (e + k) = 2 ^ k * q * 2 ^ e := by rw [zpow_add₀ two_ne_zero, zpow_natCast]; ring
  have hmodel : (rem != 0 || sticky) = roundsUp 2 false false rem 0 sticky := rfl
  rw [hmodel, roundsUp_above_iff hδ, hlow, mul_lt_mul_iff_left₀ (by positivity)]
  push_cast
  constructor <;> intro h <;> linarith

/-! ## What the model rounds a magnitude to -/

section
variable {f : Fmt} {m : ℕ} {e : ℤ} {sticky : Bool} {x : ℝ}

/-- A magnitude split at the unit in the last place. -/
theorem keptPart_bounds (hm : m ≠ 0) : m / 2 ^ droppedBits f m < 2 ^ f.prec ∧ 0 < m / 2 ^ droppedBits f m ∧
    (0 < droppedBits f m → 2 ^ f.frac ≤ m / 2 ^ droppedBits f m) := by
  have hlow : 2 ^ m.log2 ≤ m := Nat.log2_self_le hm
  have hhigh : m < 2 ^ (m.log2 + 1) := Nat.lt_log2_self
  have hle : droppedBits f m ≤ m.log2 := by rw [droppedBits, f.prec_eq]; omega
  refine ⟨?_, ?_, fun hk => ?_⟩
  · rw [Nat.div_lt_iff_lt_mul (Nat.two_pow_pos _), ← Nat.pow_add]
    exact hhigh.trans_le (Nat.pow_le_pow_right (by decide) (by rw [droppedBits]; omega))
  · exact Nat.div_pos ((Nat.pow_le_pow_right (by decide) hle).trans hlow) (Nat.two_pow_pos _)
  · rw [Nat.le_div_iff_mul_le (Nat.two_pow_pos _), ← Nat.pow_add]
    exact (Nat.pow_le_pow_right (by decide) (by rw [droppedBits, f.prec_eq] at *; omega)).trans hlow

/-- A number with a sign. -/
def withSign (neg : Bool) (x : ℝ) : ℝ := if neg then -x else x

/-- What the model rounds a magnitude to has the precision of the format. -/
theorem roundedMagnitude_bounds (rm : BitVec 2) (neg : Bool) (hm : m ≠ 0) :
    0 < roundedMagnitude f rm neg m sticky ∧ roundedMagnitude f rm neg m sticky ≤ 2 ^ f.prec := by
  obtain ⟨hlt, hpos, -⟩ := keptPart_bounds (f := f) hm
  rw [roundedMagnitude]
  split <;> omega

/-- A magnitude that the precision holds stays as it is. -/
theorem roundedMagnitude_of_fits (rm : BitVec 2) (neg : Bool) (hk : droppedBits f m = 0) : roundedMagnitude f rm neg m false = m := by
  have hdown : roundsUp rm neg (m / 2 ^ 0 % 2 == 1) (m % 2 ^ 0) (2 ^ 0) false = false := by
    rcases roundingMode_cases rm with rfl | rfl | rfl | rfl <;> simp [roundsUp, Nat.mod_one]
  rw [roundedMagnitude, hk, hdown, if_neg Bool.false_ne_true, pow_zero, Nat.div_one]

/-- A positive magnitude rounds to what the model makes of it; it is exact unless something is dropped. -/
theorem roundedMagnitude_positive (rm : BitVec 2) (hm : m ≠ 0) (hx : Stands m e sticky x) (hs : sticky = true → 0 < droppedBits f m)
    (y : ℝ) :
    (RoundsFree f rm y x ↔ y = roundedMagnitude f rm false m sticky * (2 : ℝ) ^ (e + droppedBits f m)) ∧
      (roundedMagnitude f rm false m sticky * (2 : ℝ) ^ (e + droppedBits f m) ≠ x ↔
        (m % 2 ^ droppedBits f m != 0 || sticky) = true) := by
  obtain ⟨hlt, -, hge⟩ := keptPart_bounds (f := f) hm
  rcases Nat.eq_zero_or_pos (droppedBits f m) with hk | hk
  · obtain rfl : sticky = false := Bool.eq_false_iff.2 fun h => by have := hs h; omega
    obtain ⟨δ, rfl, hδ⟩ := hx
    obtain rfl : δ = 0 := hδ
    rw [hk, pow_zero, Nat.div_one] at hlt
    rw [roundedMagnitude_of_fits rm false hk, hk, add_zero, Nat.cast_zero, add_zero, pow_zero, Nat.mod_one]
    exact ⟨roundsFree_iff_of_digits (digits_of_le e (Nat.succ_pos _) hlt.le), by simp⟩
  · obtain ⟨hlow, hhigh⟩ := hx.bounds
    have hN := neighbours (hge hk) hlt (e + droppedBits f m)
    rw [← Nat.div_add_mod m (2 ^ droppedBits f m)] at hx
    have hup := roundsUp_iff (rm := rm) (odd := m / 2 ^ droppedBits f m % 2 == 1) hx hs
    have hexact := stands_multiple_iff hx
    have hpow : ∀ c : ℕ, c * (2 : ℝ) ^ (e + droppedBits f m) = (c * 2 ^ droppedBits f m : ℕ) * 2 ^ e := fun c => by
      rw [zpow_add₀ two_ne_zero, zpow_natCast]
      push_cast
      ring
    have ha : (m / 2 ^ droppedBits f m : ℕ) * (2 : ℝ) ^ (e + droppedBits f m) ≤ x := by
      rw [hpow]
      refine le_trans ?_ hlow
      gcongr
      exact Nat.div_mul_le_self m _
    have hb : x < (m / 2 ^ droppedBits f m + 1 : ℕ) * (2 : ℝ) ^ (e + droppedBits f m) := by
      rw [hpow]
      refine hhigh.trans_le ?_
      gcongr
      have hnext := Nat.lt_div_mul_add (a := m) (Nat.two_pow_pos (droppedBits f m))
      rw [← Nat.succ_mul] at hnext
      exact_mod_cast hnext
    obtain ⟨hroundsUp, hroundsDown⟩ := hN.roundsFree_iff (y := y) ha hb rm
    rw [← hexact, roundedMagnitude]
    by_cases hru : RoundsUp rm (m / 2 ^ droppedBits f m % 2 == 1) ((m / 2 ^ droppedBits f m : ℕ) * (2 : ℝ) ^ (e + droppedBits f m))
      ((m / 2 ^ droppedBits f m + 1 : ℕ) * (2 : ℝ) ^ (e + droppedBits f m)) x
    · rw [hroundsUp hru, if_pos (hup.2 hru)]
      refine ⟨Iff.rfl, iff_of_true hb.ne' ?_⟩
      have hlt := hN.lt
      rcases hru with ⟨-, hru | ⟨hru, -⟩⟩ | ⟨-, hru⟩ <;> linarith
    · rw [hroundsDown hru, if_neg fun h => hru (hup.1 h)]
      exact ⟨Iff.rfl, ⟨fun hne => ha.lt_of_ne hne, fun hlt => hlt.ne⟩⟩

theorem withSign_inj {neg : Bool} {x y : ℝ} : withSign neg x = withSign neg y ↔ x = y := by
  cases neg with
  | true => exact neg_inj
  | false => exact Iff.rfl

/-- A magnitude with its sign rounds to what the model makes of it. -/
theorem roundedMagnitude_spec (rm : BitVec 2) (neg : Bool) (hm : m ≠ 0) (hx : Stands m e sticky x)
    (hs : sticky = true → 0 < droppedBits f m) (y : ℝ) :
    (RoundsFree f rm y (withSign neg x) ↔
      y = withSign neg (roundedMagnitude f rm neg m sticky * (2 : ℝ) ^ (e + droppedBits f m))) ∧
      (withSign neg (roundedMagnitude f rm neg m sticky * (2 : ℝ) ^ (e + droppedBits f m)) ≠ withSign neg x ↔
        (m % 2 ^ droppedBits f m != 0 || sticky) = true) := by
  rw [ne_eq, withSign_inj]
  cases neg with
  | false => exact roundedMagnitude_positive rm hm hx hs y
  | true =>
    obtain ⟨hround, hexact⟩ := roundedMagnitude_positive (oppositeMode rm) hm hx hs (-y)
    rw [roundedMagnitude_true]
    refine ⟨?_, hexact⟩
    show RoundsFree f rm y (-x) ↔ y = -_
    rw [← roundsFree_neg_iff, neg_neg, hround, neg_eq_iff_eq_neg]

end

end Sys2Proof.Machine
end

section
/-! SUPPORT. Encoding: the patterns of zeros, infinities and the ends of the normal range, and the outcome of a rounded number. -/

namespace Sys2Proof.Machine

-- One thread, as in Sys2Proof/Tests: the whole text stays within the check's memory limit.
set_option Elab.async false

/-! ## Patterns by their fields -/

section
variable {f : Fmt} {neg : Bool}

theorem kindSign_fpZero (f : Fmt) (neg : Bool) : KindSign f .zero neg (fpZero f neg) := by
  obtain ⟨hs, he, hm⟩ := fpPattern_fields (f := f) (neg := neg) (e := 0) (m := 0) (Nat.two_pow_pos _) (Nat.two_pow_pos _)
  exact ⟨fpKind_zero_iff.2 ⟨he, hm⟩, hs⟩

theorem kindSign_fpInfinity (f : Fmt) (neg : Bool) : KindSign f .infinity neg (fpInfinity f neg) := by
  obtain ⟨hs, he, hm⟩ := fpPattern_fields (f := f) (neg := neg) (e := f.expMax) (m := 0)
    (by rw [f.expMax_eq, f.two_pow_expBits]; omega) (Nat.two_pow_pos _)
  exact ⟨fpKind_infinity_iff.2 ⟨he, hm⟩, hs⟩

theorem withSign_eq_mul (neg : Bool) (x : ℝ) : withSign neg x = (if neg then -1 else 1) * x := by cases neg <;> simp [withSign]

/-- The value of a pattern as a real number. -/
theorem fpValue_cast (f : Fmt) (v : Dword) :
    (fpValue f v : ℝ) = withSign (fpSign f v) ((fpMagnitude f v).1 * 2 ^ (fpMagnitude f v).2) := by
  rw [withSign_eq_mul, fpValue, mul_assoc]
  push_cast
  cases fpSign f v <;> simp

/-- A normalized pattern by its significand and the exponent of its unit in the last place. -/
theorem fpPattern_normal {e sig : ℕ} (he : 0 < e) (he' : e < f.expMax) (hlow : 2 ^ f.frac ≤ sig) (hhigh : sig < 2 ^ f.prec) :
    KindSign f .normal neg (fpPattern f neg e (sig - 2 ^ f.frac)) ∧
      (fpValue f (fpPattern f neg e (sig - 2 ^ f.frac)) : ℝ) = withSign neg (sig * 2 ^ ((e : ℤ) - f.bias - f.frac)) := by
  have hfit : e < 2 ^ f.expBits := by rw [f.two_pow_expBits]; rw [f.expMax_eq] at he'; omega
  have hm : sig - 2 ^ f.frac < 2 ^ f.frac := by rw [f.prec_eq, pow_succ] at hhigh; omega
  obtain ⟨hs, hexp, hfrac⟩ := fpPattern_fields (neg := neg) hfit hm
  refine ⟨⟨fpKind_normal_iff.2 ⟨by rw [hexp]; exact he, by rw [hexp]; exact he'⟩, hs⟩, ?_⟩
  rw [fpValue_cast, hs, fpMagnitude, hexp, hfrac, if_neg he.ne', Nat.add_sub_cancel' hlow]

/-! ## The ends of the normal range (R571) -/

theorem minNormal_cast (f : Fmt) : (minNormal f : ℝ) = 2 ^ (1 - f.bias : ℤ) := by rw [minNormal]; push_cast; rfl
theorem maxFinite_cast (f : Fmt) : (maxFinite f : ℝ) = (2 ^ f.prec - 1) * 2 ^ (f.bias - f.frac : ℤ) := by
  rw [maxFinite]; push_cast; rfl

theorem minNormal_pos (f : Fmt) : (0 : ℝ) < minNormal f := by rw [minNormal_cast]; positivity

/-- A magnitude of the precision whose highest bit is at `exp` lies in the normal range exactly if `exp` is that of a normalized number. -/
theorem normalRange_iff {sig : ℕ} (hlow : 2 ^ f.frac ≤ sig) (hhigh : sig < 2 ^ f.prec) (exp : ℤ) :
    ((minNormal f : ℝ) ≤ sig * 2 ^ (exp - f.frac) ↔ 1 - f.bias ≤ exp) ∧ ((maxFinite f : ℝ) < sig * 2 ^ (exp - f.frac) ↔ f.bias < exp) := by
  have hsig : (2 : ℝ) ^ f.frac ≤ sig := by exact_mod_cast hlow
  have hsig' : (sig : ℝ) + 1 ≤ 2 ^ f.prec := by exact_mod_cast hhigh
  have hpos : (0 : ℝ) < 2 ^ (exp - f.frac) := by positivity
  have hge : (2 : ℝ) ^ exp ≤ sig * 2 ^ (exp - f.frac) := by
    calc (2 : ℝ) ^ exp = 2 ^ f.frac * 2 ^ (exp - f.frac) := by rw [← zpow_natCast, ← zpow_add₀ two_ne_zero, add_sub_cancel]
      _ ≤ _ := by gcongr
  have hlt : sig * (2 : ℝ) ^ (exp - f.frac) < 2 ^ (exp + 1) := by
    calc sig * (2 : ℝ) ^ (exp - f.frac) < 2 ^ f.prec * 2 ^ (exp - f.frac) := by gcongr; linarith
      _ = 2 ^ (exp + 1) := by rw [← zpow_natCast, ← zpow_add₀ two_ne_zero, f.prec_eq]; congr 1; push_cast; ring
  rw [minNormal_cast, maxFinite_cast]
  constructor
  · constructor
    · intro h
      have := (zpow_lt_zpow_iff_right₀ (one_lt_two (α := ℝ))).1 (h.trans_lt hlt)
      omega
    · intro h
      exact (zpow_le_zpow_right₀ one_le_two h).trans hge
  · constructor
    · intro h
      by_contra hle
      have hmono : (2 : ℝ) ^ (exp - f.frac) ≤ 2 ^ (f.bias - f.frac : ℤ) := zpow_le_zpow_right₀ one_le_two (by omega)
      refine absurd h (not_lt.2 ?_)
      gcongr <;> linarith
    · intro h
      refine lt_of_lt_of_le ?_ hge
      calc ((2 : ℝ) ^ f.prec - 1) * 2 ^ (f.bias - f.frac : ℤ) < 2 ^ f.prec * 2 ^ (f.bias - f.frac : ℤ) := by gcongr; linarith
        _ = 2 ^ (f.bias + 1 : ℤ) := by rw [← zpow_natCast, ← zpow_add₀ two_ne_zero, f.prec_eq]; congr 1; push_cast; ring
        _ ≤ 2 ^ exp := zpow_le_zpow_right₀ one_le_two (by omega)

theorem minNormal_le_maxFinite (f : Fmt) : (minNormal f : ℝ) ≤ maxFinite f := by
  obtain ⟨hmin, hmax⟩ := normalRange_iff (f := f) le_rfl (Nat.pow_lt_pow_right (by decide) (Nat.lt_succ_self _)) (0 : ℤ)
  have hbias := f.bias_pos
  exact (hmin.2 (by omega)).trans (not_lt.1 fun h => by have := hmax.1 h; omega)

@[simp] theorem abs_withSign (neg : Bool) (x : ℝ) : |withSign neg x| = |x| := by
  cases neg with
  | true => exact abs_neg x
  | false => rfl

theorem fpMinNorm_spec (f : Fmt) (neg : Bool) : KindSign f .normal neg (fpMinNorm f neg) ∧ |fpValue f (fpMinNorm f neg)| = minNormal f := by
  obtain ⟨hkind, hvalue⟩ := fpPattern_normal (f := f) (neg := neg) one_pos (by have := f.bias_pos; rw [f.expMax_eq]; omega)
    (le_refl (2 ^ f.frac)) (Nat.pow_lt_pow_right (by decide) (Nat.lt_succ_self _))
  rw [Nat.sub_self] at hkind hvalue
  refine ⟨hkind, (Rat.cast_inj (α := ℝ)).1 ?_⟩
  rw [Rat.cast_abs, fpMinNorm, hvalue, minNormal_cast, abs_withSign, abs_of_nonneg (by positivity)]
  push_cast
  rw [← zpow_natCast, ← zpow_add₀ two_ne_zero]
  congr 1
  ring

theorem fpMaxFinite_spec (f : Fmt) (neg : Bool) :
    KindSign f .normal neg (fpMaxFinite f neg) ∧ |fpValue f (fpMaxFinite f neg)| = maxFinite f := by
  have hpow : 2 ^ f.prec = 2 ^ f.frac + 2 ^ f.frac := by rw [f.prec_eq, pow_succ]; omega
  have hone : 0 < 2 ^ f.frac := Nat.two_pow_pos _
  have hexp : f.expMax - 1 = f.bias + f.bias := by rw [f.expMax_eq]; omega
  obtain ⟨hkind, hvalue⟩ := fpPattern_normal (f := f) (neg := neg) (e := f.expMax - 1) (sig := 2 ^ f.prec - 1)
    (by have := f.bias_pos; omega) (by rw [f.expMax_eq]; omega) (by omega) (by omega)
  rw [show 2 ^ f.prec - 1 - 2 ^ f.frac = 2 ^ f.frac - 1 by omega] at hkind hvalue
  refine ⟨hkind, (Rat.cast_inj (α := ℝ)).1 ?_⟩
  rw [Rat.cast_abs, fpMaxFinite, hvalue, maxFinite_cast, abs_withSign, abs_of_nonneg (by positivity), hexp, Nat.cast_sub (by omega)]
  push_cast
  congr 2
  ring

/-! ## Overflow and underflow (spec/48_fpu_exceptions.md R656, R657) -/

theorem overflowed_overflowValue (f : Fmt) (rm : BitVec 2) (neg : Bool) : Overflowed f rm neg (overflowValue f rm neg) := by
  unfold Overflowed overflowValue
  rcases roundingMode_cases rm with rfl | rfl | rfl | rfl <;> cases neg <;>
    simp [kindSign_fpInfinity, (fpMaxFinite_spec f _).1, (fpMaxFinite_spec f _).2]

theorem flushed_flushValue (f : Fmt) (rm : BitVec 2) (neg : Bool) : Flushed f rm neg (flushValue f rm neg) := by
  unfold Flushed flushValue
  rcases roundingMode_cases rm with rfl | rfl | rfl | rfl <;> cases neg <;>
    simp [kindSign_fpZero, (fpMinNorm_spec f _).1, (fpMinNorm_spec f _).2]

/-- A tiny result is Unimplemented Operation, or flushed (R657). -/
theorem tinyOut_spec (f : Fmt) (t : Fcr31) (neg : Bool) :
    if t.fs = true ∧ t.enables.getLsbD 1 = false ∧ t.enables.getLsbD 0 = false then
      (tinyOut f t neg).x = xUI ∧ Flushed f t.rm neg (tinyOut f t neg).value
    else tinyOut f t neg = fpUnimplemented := by
  have hflush := flushed_flushValue f t.rm neg
  unfold tinyOut
  cases t.fs <;> cases t.enables.getLsbD 1 <;> cases t.enables.getLsbD 0 <;> simp [hflush]

/-! ## The outcome of a rounded number (R575 (d) to (f)) -/

section
variable {t : Fcr31} {y : ℝ} {inexact : Prop} {o : FpOut}

theorem OutcomeOf.of_zero (hy : y = 0) (hx : o.x = 0) (hk : fpKind f o.value = .zero) : OutcomeOf f t y inexact o := by
  have hmin := minNormal_pos f
  have hmax := minNormal_le_maxFinite f
  subst hy
  rw [← abs_zero] at hmin
  exact ⟨fun _ => ⟨hx, hk⟩, fun h => absurd hmin (not_lt.2 h), fun h => absurd h (not_lt.2 (hmin.le.trans hmax)),
    fun h => absurd abs_zero h.ne'⟩

theorem OutcomeOf.of_normal (hlow : (minNormal f : ℝ) ≤ |y|) (hhigh : |y| ≤ (maxFinite f : ℝ))
    (hx : o.x = 0 ∧ ¬inexact ∨ o.x = xI ∧ inexact) (hk : fpKind f o.value = .normal) (hv : (fpValue f o.value : ℝ) = y) :
    OutcomeOf f t y inexact o := by
  refine ⟨fun h => ?_, fun _ _ => ⟨hx, hk, hv⟩, fun h => absurd h (not_lt.2 hhigh), fun _ h => absurd h (not_lt.2 hlow)⟩
  rw [h, abs_zero] at hlow
  exact absurd (minNormal_pos f) (not_lt.2 hlow)

theorem OutcomeOf.of_overflow {neg : Bool} (hhigh : (maxFinite f : ℝ) < |y|) (hneg : neg = true ↔ y < 0) (hx : o.x = xOI)
    (hv : Overflowed f t.rm neg o.value) : OutcomeOf f t y inexact o := by
  have hlow := (minNormal_le_maxFinite f).trans_lt hhigh
  refine ⟨fun h => ?_, fun _ h => absurd hhigh (not_lt.2 h), fun _ => ⟨hx, neg, hneg, hv⟩, fun _ h => absurd hlow h.not_gt⟩
  rw [h, abs_zero] at hlow
  exact absurd (minNormal_pos f) hlow.not_gt

theorem OutcomeOf.of_tiny {neg : Bool} (hpos : 0 < |y|) (hlow : |y| < (minNormal f : ℝ)) (hneg : neg = true ↔ y < 0) :
    OutcomeOf f t y inexact (tinyOut f t neg) := by
  have hspec := tinyOut_spec f t neg
  refine ⟨fun h => absurd (by rw [h, abs_zero]) hpos.ne', fun h => absurd hlow (not_lt.2 h),
    fun h => absurd (hlow.trans_le (minNormal_le_maxFinite f)) h.not_gt, fun _ _ => ?_⟩
  split at hspec
  · next h => rw [if_pos h]; exact ⟨hspec.1, neg, hneg, hspec.2⟩
  · next h => rw [if_neg h, hspec]; rfl

end

/-- The significand of a magnitude: its bits with the highest at the place of the hidden bit. -/
def significand (f : Fmt) (m : ℕ) : ℕ := m * 2 ^ (f.frac - m.log2) / 2 ^ (m.log2 - f.frac)

theorem significand_bounds {m : ℕ} (hm : m ≠ 0) : 2 ^ f.frac ≤ significand f m ∧ significand f m < 2 ^ f.prec := by
  have hlow : 2 ^ m.log2 ≤ m := Nat.log2_self_le hm
  have hhigh : m < 2 ^ (m.log2 + 1) := Nat.lt_log2_self
  rw [significand, Nat.le_div_iff_mul_le (Nat.two_pow_pos _), Nat.div_lt_iff_lt_mul (Nat.two_pow_pos _), ← Nat.pow_add, ← Nat.pow_add,
    f.prec_eq]
  constructor
  · calc 2 ^ (f.frac + (m.log2 - f.frac)) = 2 ^ m.log2 * 2 ^ (f.frac - m.log2) := by rw [← Nat.pow_add]; congr 1; omega
      _ ≤ _ := Nat.mul_le_mul_right _ hlow
  · calc m * 2 ^ (f.frac - m.log2) < 2 ^ (m.log2 + 1) * 2 ^ (f.frac - m.log2) := Nat.mul_lt_mul_of_pos_right hhigh (Nat.two_pow_pos _)
      _ = _ := by rw [← Nat.pow_add]; congr 1; omega

/-- A magnitude that the precision holds is its significand at the exponent of its highest bit. -/
theorem significand_mul {m : ℕ} (hm : m ≠ 0) (hfit : m ≤ 2 ^ f.prec) (e : ℤ) :
    (significand f m : ℝ) * 2 ^ (e + m.log2 - f.frac) = m * 2 ^ e := by
  have hnat : significand f m * 2 ^ m.log2 = m * 2 ^ f.frac := by
    rcases Nat.lt_or_eq_of_le hfit with hlt | rfl
    · have hlog : m.log2 ≤ f.frac := Nat.lt_succ_iff.1 ((Nat.log2_lt hm).2 hlt)
      rw [significand, Nat.sub_eq_zero_of_le hlog, pow_zero, Nat.div_one, mul_assoc, ← Nat.pow_add, Nat.sub_add_cancel hlog]
    · rw [significand, Nat.log2_two_pow, f.prec_eq, Nat.sub_eq_zero_of_le (Nat.le_succ _), pow_zero, mul_one,
        Nat.add_sub_cancel_left, Nat.pow_div (by omega) (by decide), Nat.add_sub_cancel, mul_comm]
  have hreal : (significand f m : ℝ) * 2 ^ m.log2 = m * 2 ^ f.frac := by exact_mod_cast hnat
  calc (significand f m : ℝ) * 2 ^ (e + m.log2 - f.frac) = significand f m * 2 ^ m.log2 * (2 ^ e / 2 ^ f.frac) := by
        rw [zpow_sub₀ two_ne_zero, zpow_add₀ two_ne_zero, zpow_natCast, zpow_natCast]; ring
    _ = m * 2 ^ e := by rw [hreal]; field_simp

/-- The encoding of a magnitude that is not zero, by the exponent of its highest bit. -/
theorem fpEncode_of_ne_zero (f : Fmt) (t : Fcr31) (neg : Bool) {m : ℕ} (hm : m ≠ 0) (e : ℤ) (inexact : Bool) :
    fpEncode f t neg m e inexact =
      if (f.bias : ℤ) < e + m.log2 then ⟨xOI, overflowValue f t.rm neg⟩
      else if e + m.log2 < 1 - (f.bias : ℤ) then tinyOut f t neg
      else ⟨if inexact then xI else 0, fpPattern f neg (e + m.log2 + f.bias).toNat (significand f m - 2 ^ f.frac)⟩ := if_neg hm

theorem withSign_neg_iff {neg : Bool} {x : ℝ} (hx : 0 < x) : neg = true ↔ withSign neg x < 0 := by
  cases neg with
  | true => exact iff_of_true rfl (neg_lt_zero.2 hx)
  | false => exact iff_of_false Bool.false_ne_true hx.not_gt

/-- A magnitude of the precision, with its sign, is encoded as its outcome. -/
theorem fpEncode_outcome (t : Fcr31) (neg : Bool) {m : ℕ} (hm : m ≠ 0) (hfit : m ≤ 2 ^ f.prec) (e : ℤ) (inexact : Bool) :
    OutcomeOf f t (withSign neg (m * 2 ^ e)) (inexact = true) (fpEncode f t neg m e inexact) := by
  have hpos : (0 : ℝ) < m * 2 ^ e := mul_pos (by exact_mod_cast Nat.pos_of_ne_zero hm) (by positivity)
  have hneg := withSign_neg_iff (neg := neg) hpos
  have habs : |withSign neg (m * 2 ^ e)| = significand f m * 2 ^ (e + m.log2 - f.frac) := by
    rw [abs_withSign, abs_of_pos hpos, significand_mul hm hfit]
  obtain ⟨hlow, hhigh⟩ := significand_bounds (f := f) hm
  obtain ⟨hmin, hmax⟩ := normalRange_iff hlow hhigh (e + m.log2)
  rw [← habs] at hmin hmax
  rw [fpEncode_of_ne_zero f t neg hm]
  by_cases hover : (f.bias : ℤ) < e + m.log2
  · rw [if_pos hover]
    exact .of_overflow (hmax.2 hover) hneg rfl (overflowed_overflowValue f t.rm neg)
  by_cases htiny : e + m.log2 < 1 - (f.bias : ℤ)
  · rw [if_neg hover, if_pos htiny]
    refine .of_tiny ?_ (not_le.1 fun h => by have := hmin.1 h; omega) hneg
    rw [abs_withSign]
    exact abs_pos.2 hpos.ne'
  · obtain ⟨hkind, hvalue⟩ := fpPattern_normal (neg := neg) (e := (e + m.log2 + f.bias).toNat) (by omega)
      (by rw [f.expMax_eq]; omega) hlow hhigh
    rw [if_neg hover, if_neg htiny]
    refine .of_normal (hmin.2 (by omega)) (not_lt.1 fun h => hover (hmax.1 h)) ?_ hkind.1 ?_
    · cases inexact <;> simp
    · rw [hvalue, Int.toNat_of_nonneg (by omega), ← significand_mul hm hfit]
      congr 3
      ring

/-- What a magnitude rounds to, and the outcome of that. -/
theorem fpRound_outcome (t : Fcr31) (neg : Bool) {m : ℕ} {e : ℤ} {sticky : Bool} {x : ℝ} (hm : m ≠ 0) (hx : Stands m e sticky x)
    (hs : sticky = true → 0 < droppedBits f m) :
    ∃ y, (∀ y', RoundsFree f t.rm y' (withSign neg x) ↔ y' = y) ∧ y ≠ 0 ∧
      OutcomeOf f t y (y ≠ withSign neg x) (fpRound f t neg m e sticky) := by
  have hspec := roundedMagnitude_spec t.rm neg hm hx hs
  obtain ⟨hpos, hfit⟩ := roundedMagnitude_bounds (f := f) (sticky := sticky) t.rm neg hm
  have hout := fpEncode_outcome t neg hpos.ne' hfit (e + droppedBits f m) (m % 2 ^ droppedBits f m != 0 || sticky)
  rw [← (hspec 0).2, ← fpRound_eq] at hout
  refine ⟨_, fun y' => (hspec y').1, ?_, hout⟩
  rw [← abs_pos, abs_withSign, abs_pos]
  exact mul_ne_zero (by exact_mod_cast hpos.ne') (by positivity)

end

end Sys2Proof.Machine
end

section
/-! SUPPORT. The operations on zeros and normalized numbers round their exact results. -/

namespace Sys2Proof.Machine

-- One thread, as in Sys2Proof/Tests: the whole text stays within the check's memory limit.
set_option Elab.async false

/-! ## Screening (spec/47_fpu_arith.md R575 (a)) -/

section
variable {f : Fmt} {ops : List Dword} {k : FpOut}

theorem fpScreen_unimplemented (h : ∃ v ∈ ops, fpKind f v = .denormal ∨ fpKind f v = .quietNaN) : fpScreen f ops k = fpUnimplemented := by
  refine if_pos (List.any_eq_true.2 ?_)
  obtain ⟨v, hv, hk⟩ := h
  exact ⟨v, hv, by simpa using hk⟩

/-- Without a denormalized number or a quiet NaN. -/
theorem fpScreen_of_no_trap (h : ∀ v ∈ ops, fpKind f v ≠ .denormal ∧ fpKind f v ≠ .quietNaN) :
    fpScreen f ops k = if ops.any (fun v => fpKind f v == .signalingNaN) then fpInvalid f else k := by
  refine if_neg fun hany => ?_
  obtain ⟨v, hv, hk⟩ := List.any_eq_true.1 hany
  simp [h v hv] at hk

theorem fpScreen_invalid (h : ∀ v ∈ ops, fpKind f v ≠ .denormal ∧ fpKind f v ≠ .quietNaN)
    (hs : ∃ v ∈ ops, fpKind f v = .signalingNaN) : fpScreen f ops k = fpInvalid f := by
  obtain ⟨v, hv, hk⟩ := hs
  rw [fpScreen_of_no_trap h, if_pos (List.any_eq_true.2 ⟨v, hv, by simp [hk]⟩)]

/-- A zero, a normalized number or an infinity. -/
def Plain (f : Fmt) (v : Dword) : Prop := Ordinary f v ∨ fpKind f v = .infinity

theorem fpScreen_pass (h : ∀ v ∈ ops, Plain f v) : fpScreen f ops k = k := by
  have hkind : ∀ v ∈ ops, fpKind f v ≠ .denormal ∧ fpKind f v ≠ .quietNaN ∧ fpKind f v ≠ .signalingNaN := fun v hv => by
    rcases h v hv with (h | h) | h <;> rw [h] <;> decide
  rw [fpScreen_of_no_trap fun v hv => ⟨(hkind v hv).1, (hkind v hv).2.1⟩, if_neg]
  intro hany
  obtain ⟨v, hv, hk⟩ := List.any_eq_true.1 hany
  exact (hkind v hv).2.2 (beq_iff_eq.1 hk)

theorem fpScreen_pass_one {a : Dword} (ha : Plain f a) : fpScreen f [a] k = k := fpScreen_pass (List.forall_mem_singleton.2 ha)

theorem fpScreen_pass_two {a b : Dword} (ha : Plain f a) (hb : Plain f b) : fpScreen f [a, b] k = k :=
  fpScreen_pass (List.forall_mem_cons.2 ⟨ha, List.forall_mem_singleton.2 hb⟩)

end

/-! ## Values of zeros and normalized numbers -/

section
variable {f : Fmt} {v : Dword}

theorem fpMagnitude_fpNegate (f : Fmt) (v : Dword) : fpMagnitude f (fpNegate f v) = fpMagnitude f v := by
  rw [fpMagnitude, fpMagnitude, fpExp_fpNegate, fpFrac_fpNegate]

theorem fpValue_fpNegate (f : Fmt) (v : Dword) : fpValue f (fpNegate f v) = -fpValue f v := by
  rw [fpValue, fpValue, fpMagnitude_fpNegate, fpSign_fpNegate]
  cases fpSign f v <;> simp

theorem ordinary_fpNegate_iff : Ordinary f (fpNegate f v) ↔ Ordinary f v := by rw [Ordinary, Ordinary, fpKind_fpNegate]

theorem fpMagnitude_zero (h : fpKind f v = .zero) : (fpMagnitude f v).1 = 0 := by
  obtain ⟨he, hm⟩ := fpKind_zero_iff.1 h
  rw [fpMagnitude, if_pos he, hm]

theorem fpValue_zero (h : fpKind f v = .zero) : fpValue f v = 0 := by
  rw [fpValue, fpMagnitude_zero h]
  simp

/-- The significand of a normalized number. -/
theorem fpMagnitude_normal (h : fpKind f v = .normal) :
    2 ^ f.frac ≤ (fpMagnitude f v).1 ∧ (fpMagnitude f v).1 < 2 ^ f.prec ∧
      (fpMagnitude f v).2 = (fpExp f v : ℤ) - f.bias - f.frac := by
  have hpos := (fpKind_normal_iff.1 h).1
  have hfrac := fpFrac_lt f v
  rw [fpMagnitude, if_neg hpos.ne', f.prec_eq, pow_succ]
  dsimp only
  omega

theorem fpMagnitude_normal_pos (h : fpKind f v = .normal) : 0 < (fpMagnitude f v).1 :=
  (Nat.two_pow_pos _).trans_le (fpMagnitude_normal h).1

/-- A normalized number is in the normal range. -/
theorem abs_fpValue_normal (h : fpKind f v = .normal) : (minNormal f : ℝ) ≤ |(fpValue f v : ℝ)| ∧ |(fpValue f v : ℝ)| ≤ maxFinite f := by
  obtain ⟨hlow, hhigh, he⟩ := fpMagnitude_normal h
  obtain ⟨hpos, hmax⟩ := fpKind_normal_iff.1 h
  obtain ⟨hmin', hmax'⟩ := normalRange_iff hlow hhigh ((fpExp f v : ℤ) - f.bias)
  rw [← he] at hmin' hmax'
  rw [f.expMax_eq] at hmax
  rw [fpValue_cast, abs_withSign, abs_of_nonneg (by positivity)]
  exact ⟨hmin'.2 (by omega), not_lt.1 fun hlt => by have := hmax'.1 hlt; omega⟩

/-- A finite number has the precision of its format. -/
theorem digits_fpValue (f : Fmt) (v : Dword) : Digits f.prec (fpValue f v) := by
  have hfrac := fpFrac_lt f v
  have hle : (fpMagnitude f v).1 ≤ 2 ^ f.prec := by
    rw [fpMagnitude, f.prec_eq, pow_succ]
    split <;> dsimp only <;> omega
  rw [fpValue_cast]
  cases fpSign f v with
  | true => exact (digits_of_le _ (Nat.succ_pos _) hle).neg
  | false => exact digits_of_le _ (Nat.succ_pos _) hle

theorem fpValue_ne_zero (h : fpKind f v = .normal) : fpValue f v ≠ 0 := fun h0 => by
  have hmin := (abs_fpValue_normal h).1
  rw [h0, Rat.cast_zero, abs_zero] at hmin
  exact absurd (minNormal_pos f) (not_lt.2 hmin)

/-- The sign of a normalized number is that of its pattern. -/
theorem fpSign_iff_fpValue_neg (h : fpKind f v = .normal) : fpSign f v = true ↔ fpValue f v < 0 := by
  have hpos : (0 : ℝ) < (fpMagnitude f v).1 * 2 ^ (fpMagnitude f v).2 :=
    mul_pos (by exact_mod_cast fpMagnitude_normal_pos h) (by positivity)
  rw [withSign_neg_iff hpos, ← fpValue_cast]
  exact_mod_cast Iff.rfl

end

/-! ## Rounded outcomes -/

/-- The outcome of what the exact value `r` rounds to; only zero rounds to zero. -/
def RoundedOutcome (f : Fmt) (t : Fcr31) (r : ℝ) (o : FpOut) : Prop :=
  ∃ y, (∀ y', RoundsFree f t.rm y' r ↔ y' = y) ∧ (y = 0 → r = 0) ∧ OutcomeOf f t y (y ≠ r) o

section
variable {f : Fmt} {t : Fcr31}

theorem roundedOutcome_zero {o : FpOut} (hx : o.x = 0) (hk : fpKind f o.value = .zero) : RoundedOutcome f t 0 o :=
  ⟨0, fun _ => roundsFree_iff_of_digits (digits_zero _), fun _ => rfl, .of_zero rfl hx hk⟩

/-- A zero or a normalized number delivered as it is. -/
theorem roundedOutcome_fpExact {v : Dword} (hv : Ordinary f v) : RoundedOutcome f t (fpValue f v) (fpExact v) := by
  rcases hv with hzero | hnormal
  · rw [fpValue_zero hzero, Rat.cast_zero]
    exact roundedOutcome_zero rfl hzero
  · obtain ⟨hmin, hmax⟩ := abs_fpValue_normal hnormal
    exact ⟨_, fun _ => roundsFree_iff_of_digits (digits_fpValue f v), id,
      .of_normal hmin hmax (.inl ⟨rfl, not_not.2 rfl⟩) hnormal rfl⟩

theorem roundedOutcome_of_stands (neg : Bool) {m : ℕ} {e : ℤ} {sticky : Bool} {x : ℝ} (hm : m ≠ 0) (hx : Stands m e sticky x)
    (hs : sticky = true → 0 < droppedBits f m) : RoundedOutcome f t (withSign neg x) (fpRound f t neg m e sticky) := by
  obtain ⟨y, hround, hne, hout⟩ := fpRound_outcome t neg hm hx hs
  exact ⟨y, hround, fun h => absurd h hne, hout⟩

theorem roundedOutcome_fpRound (neg : Bool) {m : ℕ} (hm : m ≠ 0) (e : ℤ) :
    RoundedOutcome f t (withSign neg (m * 2 ^ e)) (fpRound f t neg m e false) :=
  roundedOutcome_of_stands neg hm (stands_exact m e) fun h => nomatch h

/-- A quotient or a root computed to more bits than the precision. -/
theorem roundedOutcome_fpRound_sticky (neg : Bool) {m : ℕ} {e : ℤ} {sticky : Bool} {x : ℝ} (hm : 2 ^ f.prec ≤ m)
    (hx : Stands m e sticky x) : RoundedOutcome f t (withSign neg x) (fpRound f t neg m e sticky) := by
  have hpos : m ≠ 0 := ((Nat.two_pow_pos _).trans_le hm).ne'
  refine roundedOutcome_of_stands neg hpos hx fun _ => ?_
  have := (Nat.le_log2 hpos).2 hm
  rw [droppedBits]
  omega

/-- An integer at an exponent. -/
theorem roundedOutcome_fpRound_int {n : ℤ} (hn : n ≠ 0) (e : ℤ) :
    RoundedOutcome f t (n * 2 ^ e) (fpRound f t (n < 0) n.natAbs e false) := by
  have hvalue : (n : ℝ) * 2 ^ e = withSign (n < 0) (n.natAbs * 2 ^ e) := by
    rcases lt_or_gt_of_ne hn with h | h
    · rw [decide_eq_true h, Nat.cast_natAbs, abs_of_neg h]
      simp [withSign]
    · rw [decide_eq_false h.not_gt, Nat.cast_natAbs, abs_of_pos h]
      rfl
  rw [hvalue]
  exact roundedOutcome_fpRound _ (Int.natAbs_ne_zero.2 hn) e

/-! ## Sums (R580, R581) -/

theorem scaled_eq (f : Fmt) (v : Dword) (e : ℤ) :
    scaled f v e = if fpSign f v then -((fpMagnitude f v).1 * 2 ^ ((fpMagnitude f v).2 - e).toNat : ℤ)
      else (fpMagnitude f v).1 * 2 ^ ((fpMagnitude f v).2 - e).toNat := rfl

theorem scaled_mul (f : Fmt) (v : Dword) {e : ℤ} (he : e ≤ (fpMagnitude f v).2) : (scaled f v e : ℝ) * 2 ^ e = fpValue f v := by
  obtain ⟨k, hk⟩ : ∃ k : ℕ, (fpMagnitude f v).2 = k + e := ⟨((fpMagnitude f v).2 - e).toNat, by omega⟩
  rw [fpValue_cast, scaled_eq, hk, Int.add_sub_cancel, Int.toNat_natCast, zpow_add₀ two_ne_zero, zpow_natCast]
  cases fpSign f v <;> simp [withSign] <;> ring

theorem addFinite_outcome (a b : Dword) : RoundedOutcome f t (fpValue f a + fpValue f b) (addFinite f t a b) := by
  have hsum := congrArg₂ (· + ·) (scaled_mul f a (min_le_left (fpMagnitude f a).2 (fpMagnitude f b).2))
    (scaled_mul f b (min_le_right (fpMagnitude f a).2 (fpMagnitude f b).2))
  rw [← add_mul, ← Int.cast_add] at hsum
  rw [addFinite, ← hsum]
  split
  · next h0 =>
    rw [h0, Int.cast_zero, zero_mul]
    exact roundedOutcome_zero rfl (kindSign_fpZero f _).1
  · next h => exact roundedOutcome_fpRound_int h _

theorem Ordinary.not_infinity {v : Dword} (h : Ordinary f v) : fpKind f v ≠ .infinity := by
  rcases h with h | h <;> rw [h] <;> decide

theorem addScreened_ordinary {a b : Dword} (ha : Ordinary f a) (hb : Ordinary f b) : addScreened f t a b = addFinite f t a b := by
  rw [addScreened, if_neg ha.not_infinity, if_neg hb.not_infinity]

theorem fpAdd_outcome {a b : Dword} (ha : Ordinary f a) (hb : Ordinary f b) :
    RoundedOutcome f t (fpValue f a + fpValue f b) (fpAdd f t a b) := by
  rw [fpAdd, fpScreen_pass_two (.inl ha) (.inl hb), addScreened_ordinary ha hb]
  exact addFinite_outcome a b

theorem fpSub_outcome {a b : Dword} (ha : Ordinary f a) (hb : Ordinary f b) :
    RoundedOutcome f t (fpValue f a - fpValue f b) (fpSub f t a b) := by
  rw [fpSub, fpScreen_pass_two (.inl ha) (.inl hb), addScreened_ordinary ha (ordinary_fpNegate_iff.2 hb), sub_eq_add_neg, ← Rat.cast_neg,
    ← fpValue_fpNegate]
  exact addFinite_outcome a _

end

end Sys2Proof.Machine
end

section
/-! SUPPORT. Products, quotients, square roots and conversions on zeros and normalized numbers round their exact results. -/

namespace Sys2Proof.Machine

-- One thread, as in Sys2Proof/Tests: the whole text stays within the check's memory limit.
set_option Elab.async false

section
variable {f : Fmt} {t : Fcr31} {a b : Dword}

/-! ## Products (spec/47_fpu_arith.md R582) -/

theorem mulScreened_normal (ha : fpKind f a = .normal) (hb : fpKind f b = .normal) :
    mulScreened f t a b = fpRound f t (fpSign f a != fpSign f b) ((fpMagnitude f a).1 * (fpMagnitude f b).1)
      ((fpMagnitude f a).2 + (fpMagnitude f b).2) false := by
  simp [mulScreened, ha, hb]

theorem mulScreened_zero (h : fpKind f a = .zero ∧ Ordinary f b ∨ Ordinary f a ∧ fpKind f b = .zero) :
    mulScreened f t a b = fpExact (fpZero f (fpSign f a != fpSign f b)) := by
  rcases h with ⟨ha, hb | hb⟩ | ⟨ha | ha, hb⟩ <;> simp [mulScreened, ha, hb]

theorem withSign_mul (s s' : Bool) (x y : ℝ) : withSign s x * withSign s' y = withSign (s != s') (x * y) := by
  cases s <;> cases s' <;> simp [withSign]

theorem mulScreened_outcome (ha : Ordinary f a) (hb : Ordinary f b) :
    RoundedOutcome f t (fpValue f a * fpValue f b) (mulScreened f t a b) := by
  rcases ha with ha0 | ha1
  · rw [fpValue_zero ha0, Rat.cast_zero, zero_mul, mulScreened_zero (.inl ⟨ha0, hb⟩)]
    exact roundedOutcome_zero rfl (kindSign_fpZero f _).1
  rcases hb with hb0 | hb1
  · rw [fpValue_zero hb0, Rat.cast_zero, mul_zero, mulScreened_zero (.inr ⟨.inr ha1, hb0⟩)]
    exact roundedOutcome_zero rfl (kindSign_fpZero f _).1
  have hne := (Nat.mul_pos (fpMagnitude_normal_pos ha1) (fpMagnitude_normal_pos hb1)).ne'
  have hout := roundedOutcome_fpRound (f := f) (t := t) (fpSign f a != fpSign f b) hne ((fpMagnitude f a).2 + (fpMagnitude f b).2)
  rw [mulScreened_normal ha1 hb1, fpValue_cast, fpValue_cast, withSign_mul]
  convert hout using 2
  rw [zpow_add₀ two_ne_zero]
  push_cast
  ring

theorem fpMul_outcome (ha : Ordinary f a) (hb : Ordinary f b) : RoundedOutcome f t (fpValue f a * fpValue f b) (fpMul f t a b) := by
  rw [fpMul, fpScreen_pass_two (.inl ha) (.inl hb)]
  exact mulScreened_outcome ha hb

/-! ## Quotients (R583) -/

/-- A quotient of integers, of which the rest says whether it is exact. -/
theorem stands_quotient (m : ℕ) {n : ℕ} (hn : 0 < n) (e : ℤ) : Stands (m / n) e (m % n != 0) ((m / n : ℝ) * 2 ^ e) := by
  have hn' : (0 : ℝ) < n := by exact_mod_cast hn
  have hsplit : (m : ℝ) = n * (m / n : ℕ) + (m % n : ℕ) := by exact_mod_cast (Nat.div_add_mod m n).symm
  refine ⟨((m % n : ℕ) : ℝ) / n, ?_, ?_⟩
  · rw [hsplit]
    field_simp
  · by_cases h0 : m % n = 0
    · simp [h0]
    · rw [if_pos (bne_iff_ne.2 h0), div_lt_one hn']
      exact ⟨div_pos (by exact_mod_cast Nat.pos_of_ne_zero h0) hn', by exact_mod_cast Nat.mod_lt m hn⟩

theorem fpDiv_normal (ha : fpKind f a = .normal) (hb : fpKind f b = .normal) :
    fpDiv f t a b = fpRound f t (fpSign f a != fpSign f b) ((fpMagnitude f a).1 * 2 ^ (f.prec + 2) / (fpMagnitude f b).1)
      ((fpMagnitude f a).2 - (fpMagnitude f b).2 - (f.prec + 2 : ℕ))
      ((fpMagnitude f a).1 * 2 ^ (f.prec + 2) % (fpMagnitude f b).1 != 0) := by
  rw [fpDiv, fpScreen_pass_two (.inl (.inr ha)) (.inl (.inr hb))]
  simp [ha, hb]

theorem fpDiv_zero (ha : fpKind f a = .zero) (hb : fpKind f b = .normal) :
    fpDiv f t a b = fpExact (fpZero f (fpSign f a != fpSign f b)) := by
  rw [fpDiv, fpScreen_pass_two (.inl (.inl ha)) (.inl (.inr hb))]
  simp [ha, hb]

theorem withSign_div (s s' : Bool) (x y : ℝ) : withSign s x / withSign s' y = withSign (s != s') (x / y) := by
  cases s <;> cases s' <;> simp [withSign, neg_div, div_neg]

theorem fpDiv_outcome (ha : Ordinary f a) (hb : fpKind f b = .normal) :
    RoundedOutcome f t (fpValue f a / fpValue f b) (fpDiv f t a b) := by
  rcases ha with ha0 | ha1
  · rw [fpValue_zero ha0, Rat.cast_zero, zero_div, fpDiv_zero ha0 hb]
    exact roundedOutcome_zero rfl (kindSign_fpZero f _).1
  obtain ⟨halow, -, -⟩ := fpMagnitude_normal ha1
  obtain ⟨-, hbhigh, -⟩ := fpMagnitude_normal hb
  have hbpos := fpMagnitude_normal_pos hb
  have hbits : 2 ^ f.prec ≤ (fpMagnitude f a).1 * 2 ^ (f.prec + 2) / (fpMagnitude f b).1 := by
    rw [Nat.le_div_iff_mul_le hbpos]
    calc 2 ^ f.prec * (fpMagnitude f b).1 ≤ 2 ^ f.prec * 2 ^ f.prec := Nat.mul_le_mul_left _ hbhigh.le
      _ ≤ 2 ^ f.frac * 2 ^ (f.prec + 2) := by
        rw [← Nat.pow_add, ← Nat.pow_add]
        exact Nat.pow_le_pow_right (by decide) (by rw [f.prec_eq]; omega)
      _ ≤ _ := Nat.mul_le_mul_right _ halow
  have hout := roundedOutcome_fpRound_sticky (f := f) (t := t) (fpSign f a != fpSign f b) hbits
    (stands_quotient _ hbpos ((fpMagnitude f a).2 - (fpMagnitude f b).2 - (f.prec + 2 : ℕ)))
  rw [fpDiv_normal ha1 hb, fpValue_cast, fpValue_cast, withSign_div]
  convert hout using 2
  have hb0 : ((fpMagnitude f b).1 : ℝ) ≠ 0 := by exact_mod_cast hbpos.ne'
  rw [zpow_sub₀ two_ne_zero, zpow_sub₀ two_ne_zero, zpow_natCast]
  push_cast
  field_simp

/-! ## Square roots (R584) -/

/-- The bitwise root is the integer square root of what its bits can hold. -/
theorem isqrt_eq_sqrt (m n r : ℕ) (hr : r * r ≤ m) (hm : m < (r + 2 ^ n) * (r + 2 ^ n)) : isqrt m n r = m.sqrt := by
  induction n generalizing r with
  | zero =>
    show r = m.sqrt
    exact Nat.eq_sqrt.2 ⟨hr, by simpa using hm⟩
  | succ n ih =>
    rw [isqrt]
    split
    · next h =>
      refine ih _ h ?_
      rwa [add_assoc, ← two_mul, ← pow_succ']
    · next h => exact ih _ hr (not_le.1 h)

theorem isqrt_zero_eq_sqrt {m n : ℕ} (hm : m < 2 ^ (2 * n)) : isqrt m n 0 = m.sqrt :=
  isqrt_eq_sqrt m n 0 (Nat.zero_le _) (by rwa [Nat.zero_add, ← Nat.pow_add, ← two_mul])

/-- An integer square root, of which the square says whether it is exact. -/
theorem stands_sqrt (m : ℕ) (e : ℤ) : Stands m.sqrt e (m.sqrt * m.sqrt != m) (Real.sqrt m * 2 ^ e) := by
  have he : (0 : ℝ) < 2 ^ e := by positivity
  have hlow : (m.sqrt : ℝ) ≤ Real.sqrt m := Real.le_sqrt_of_sq_le (by exact_mod_cast Nat.sqrt_le' m)
  refine stands_of_bounds (by gcongr) ?_ ?_
  · gcongr
    rw [Real.sqrt_lt' (by positivity)]
    exact_mod_cast Nat.lt_succ_sqrt' m
  · rw [bne_iff_ne, not_iff_not, mul_left_inj' he.ne', Real.sqrt_eq_iff_mul_self_eq (Nat.cast_nonneg _) (Nat.cast_nonneg _)]
    exact_mod_cast eq_comm

/-- The same magnitude at an even exponent. -/
theorem evenExponent_spec (p : ℕ × ℤ) :
    (evenExponent p).2 % 2 = 0 ∧ ((evenExponent p).1 : ℝ) * 2 ^ (evenExponent p).2 = p.1 * 2 ^ p.2 ∧ p.1 ≤ (evenExponent p).1 ∧
      (evenExponent p).1 ≤ 2 * p.1 := by
  unfold evenExponent
  split
  · next h => exact ⟨h, rfl, le_rfl, by omega⟩
  · refine ⟨by dsimp only; omega, ?_, by dsimp only; omega, le_rfl⟩
    rw [zpow_sub₀ two_ne_zero, zpow_one]
    push_cast
    field_simp

theorem sqrt_two_zpow {e : ℤ} (he : e % 2 = 0) : Real.sqrt (2 ^ e) = 2 ^ (e / 2) := by
  rw [Real.sqrt_eq_iff_mul_self_eq (by positivity) (by positivity), ← zpow_add₀ two_ne_zero]
  congr 1
  omega

/-- The even exponent and the significand at it, of a normalized number. -/
theorem evenExponent_normal (ha : fpKind f a = .normal) :
    2 ^ f.frac ≤ (evenExponent (fpMagnitude f a)).1 ∧ (evenExponent (fpMagnitude f a)).1 < 2 ^ (f.prec + 1) := by
  obtain ⟨hlow, hhigh, -⟩ := fpMagnitude_normal ha
  obtain ⟨-, -, hge, hle⟩ := evenExponent_spec (fpMagnitude f a)
  exact ⟨hlow.trans hge, by rw [pow_succ]; omega⟩

theorem fpSqrt_normal (ha : fpKind f a = .normal) (hs : fpSign f a = false) :
    fpSqrt f t a = fpRound f t false (isqrt ((evenExponent (fpMagnitude f a)).1 * 2 ^ (2 * (f.prec + 2))) (2 * f.prec + 3) 0)
      ((evenExponent (fpMagnitude f a)).2 / 2 - (f.prec + 2 : ℕ))
      (isqrt ((evenExponent (fpMagnitude f a)).1 * 2 ^ (2 * (f.prec + 2))) (2 * f.prec + 3) 0 *
        isqrt ((evenExponent (fpMagnitude f a)).1 * 2 ^ (2 * (f.prec + 2))) (2 * f.prec + 3) 0 !=
        (evenExponent (fpMagnitude f a)).1 * 2 ^ (2 * (f.prec + 2))) := by
  rw [fpSqrt, fpScreen_pass_one (.inl (.inr ha))]
  simp [ha, hs]

theorem fpSqrt_zero (ha : fpKind f a = .zero) : fpSqrt f t a = fpExact a := by
  rw [fpSqrt, fpScreen_pass_one (.inl (.inl ha))]
  simp [ha]

theorem fpSqrt_outcome (ha : Ordinary f a) (h0 : 0 ≤ fpValue f a) : RoundedOutcome f t (Real.sqrt (fpValue f a)) (fpSqrt f t a) := by
  rcases ha with ha0 | ha1
  · have hout := roundedOutcome_fpExact (t := t) (Or.inl ha0 : Ordinary f a)
    rw [fpValue_zero ha0, Rat.cast_zero] at hout ⊢
    rwa [Real.sqrt_zero, fpSqrt_zero ha0]
  have hs : fpSign f a = false := Bool.eq_false_iff.2 fun h => absurd ((fpSign_iff_fpValue_neg ha1).1 h) (not_lt.2 h0)
  obtain ⟨hlow, hhigh⟩ := evenExponent_normal ha1
  obtain ⟨heven, hvalue, -⟩ := evenExponent_spec (fpMagnitude f a)
  rw [fpSqrt_normal ha1 hs, fpValue_cast, hs]
  show RoundedOutcome f t (Real.sqrt ((fpMagnitude f a).1 * 2 ^ (fpMagnitude f a).2)) _
  rw [← hvalue]
  generalize (evenExponent (fpMagnitude f a)).1 = m at hlow hhigh ⊢
  generalize (evenExponent (fpMagnitude f a)).2 = e at heven ⊢
  have hfits : m * 2 ^ (2 * (f.prec + 2)) < 2 ^ (2 * (2 * f.prec + 3)) := by
    calc m * 2 ^ (2 * (f.prec + 2)) < 2 ^ (f.prec + 1) * 2 ^ (2 * (f.prec + 2)) :=
          Nat.mul_lt_mul_of_pos_right hhigh (Nat.two_pow_pos _)
      _ ≤ _ := by rw [← Nat.pow_add]; exact Nat.pow_le_pow_right (by decide) (by omega)
  have hbits : 2 ^ f.prec ≤ (m * 2 ^ (2 * (f.prec + 2))).sqrt := by
    rw [Nat.le_sqrt, ← Nat.pow_add]
    calc 2 ^ (f.prec + f.prec) ≤ 2 ^ f.frac * 2 ^ (2 * (f.prec + 2)) := by
          rw [← Nat.pow_add]; exact Nat.pow_le_pow_right (by decide) (by omega)
      _ ≤ _ := Nat.mul_le_mul_right _ hlow
  have hout := roundedOutcome_fpRound_sticky (f := f) (t := t) false hbits
    (stands_sqrt (m * 2 ^ (2 * (f.prec + 2))) (e / 2 - (f.prec + 2 : ℕ)))
  rw [isqrt_zero_eq_sqrt hfits]
  convert hout using 1
  have hroot : Real.sqrt ((2 : ℝ) ^ (2 * (f.prec + 2))) = 2 ^ (f.prec + 2) := by
    rw [mul_comm, pow_mul, Real.sqrt_sq (by positivity)]
  rw [Real.sqrt_mul (Nat.cast_nonneg _), sqrt_two_zpow heven, zpow_sub₀ two_ne_zero, zpow_natCast]
  push_cast
  rw [Real.sqrt_mul (Nat.cast_nonneg _), hroot]
  show _ = Real.sqrt m * 2 ^ (f.prec + 2) * (2 ^ (e / 2) / 2 ^ (f.prec + 2))
  field_simp

/-! ## Signs (R585, R586) and conversions (R611, R612) -/

theorem fpNeg_ordinary (ha : Ordinary f a) : fpNeg f a = fpExact (fpNegate f a) := fpScreen_pass_one (.inl ha)

theorem fpAbs_ordinary (ha : Ordinary f a) : fpAbs f a = fpExact (if fpSign f a then fpNegate f a else a) := fpScreen_pass_one (.inl ha)

theorem fpNeg_outcome (ha : Ordinary f a) : RoundedOutcome f t (-(fpValue f a : ℝ)) (fpNeg f a) := by
  rw [fpNeg_ordinary ha, ← Rat.cast_neg, ← fpValue_fpNegate]
  exact roundedOutcome_fpExact (ordinary_fpNegate_iff.2 ha)

theorem fpAbs_outcome (ha : Ordinary f a) : RoundedOutcome f t |(fpValue f a : ℝ)| (fpAbs f a) := by
  have hmag : (0 : ℝ) ≤ (fpMagnitude f a).1 * 2 ^ (fpMagnitude f a).2 := by positivity
  rw [fpAbs_ordinary ha]
  cases hs : fpSign f a with
  | true =>
    have habs : |(fpValue f a : ℝ)| = fpValue f (fpNegate f a) := by
      rw [fpValue_fpNegate, Rat.cast_neg, fpValue_cast, abs_withSign, abs_of_nonneg hmag, hs]
      exact (neg_neg _).symm
    rw [habs]
    exact roundedOutcome_fpExact (ordinary_fpNegate_iff.2 ha)
  | false =>
    have habs : |(fpValue f a : ℝ)| = fpValue f a := by
      rw [fpValue_cast, abs_withSign, abs_of_nonneg hmag, hs]
      rfl
    rw [habs]
    exact roundedOutcome_fpExact ha

theorem fpConvert_outcome {g : Fmt} (ha : Ordinary g a) : RoundedOutcome f t (fpValue g a) (fpConvert g f t a) := by
  rcases ha with ha0 | ha1
  · rw [fpValue_zero ha0, Rat.cast_zero, fpConvert, ha0]
    exact roundedOutcome_zero rfl (kindSign_fpZero f _).1
  · rw [fpValue_cast, fpConvert, ha1]
    exact roundedOutcome_fpRound _ (fpMagnitude_normal_pos ha1).ne' _

theorem fpFromInt_outcome (n : ℤ) : RoundedOutcome f t n (fpFromInt f t n) := by
  rw [fpFromInt]
  split
  · next h0 =>
    rw [h0, Int.cast_zero]
    exact roundedOutcome_zero rfl (kindSign_fpZero f _).1
  · next h =>
    have hout := roundedOutcome_fpRound_int (f := f) (t := t) h 0
    rwa [zpow_zero, mul_one] at hout

theorem fpFromL_of_mem {w : Dword} (hlow : -2 ^ 52 ≤ w.toInt) (hhigh : w.toInt ≤ 2 ^ 52 - 1) : fpFromL f t w = fpFromInt f t w.toInt := by
  rw [fpFromL, if_neg]
  simp only [Bool.or_eq_true, decide_eq_true_iff]
  omega

/-- Every operation that rounds once gives the outcome of what its exact result rounds to. -/
theorem ExactResult.outcome {o : FpOut} {r : ℝ} (h : ExactResult f t o r) : RoundedOutcome f t r o := by
  cases h with
  | add a b ha hb => exact fpAdd_outcome ha hb
  | sub a b ha hb => exact fpSub_outcome ha hb
  | mul a b ha hb => exact fpMul_outcome ha hb
  | div a b ha hb => exact fpDiv_outcome ha hb
  | sqrt a ha h0 => exact fpSqrt_outcome ha h0
  | abs a ha => exact fpAbs_outcome ha
  | neg a ha => exact fpNeg_outcome ha
  | convert g a ha => exact fpConvert_outcome ha
  | fromW a => exact fpFromInt_outcome _
  | fromL a hlow hhigh => rw [fpFromL_of_mem hlow hhigh]; exact fpFromInt_outcome _

end

end Sys2Proof.Machine
end

section
/-! SUPPORT. Denormalized numbers, NaNs, infinities, zeros and divisions by zero (O50). -/

namespace Sys2Proof.Machine

-- One thread, as in Sys2Proof/Tests: the whole text stays within the check's memory limit.
set_option Elab.async false

/-! ## No result is denormalized (spec/47_fpu_arith.md R575 (e)) -/

section
variable {f : Fmt}

theorem Plain.not_denormal {v : Dword} (h : Plain f v) : fpKind f v ≠ .denormal := by
  rcases h with (h | h) | h <;> rw [h] <;> decide

theorem plain_fpZero (f : Fmt) (neg : Bool) : Plain f (fpZero f neg) := .inl (.inl (kindSign_fpZero f neg).1)
theorem plain_fpInfinity (f : Fmt) (neg : Bool) : Plain f (fpInfinity f neg) := .inr (kindSign_fpInfinity f neg).1

theorem Overflowed.plain {rm : BitVec 2} {neg : Bool} {v : Dword} (h : Overflowed f rm neg v) : Plain f v := by
  unfold Overflowed at h
  split at h
  · exact .inr h.1
  · exact .inl (.inr h.1.1)

theorem Flushed.plain {rm : BitVec 2} {neg : Bool} {v : Dword} (h : Flushed f rm neg v) : Plain f v := by
  unfold Flushed at h
  split at h
  · exact .inl (.inr h.1.1)
  · exact .inl (.inl h.1)

theorem fpKind_fpDefaultNaN (f : Fmt) : fpKind f (fpDefaultNaN f) = .quietNaN := by cases f <;> decide

theorem fpUnimplemented_plain (f : Fmt) : Plain f fpUnimplemented.value := .inl (.inl (by cases f <;> decide))

theorem fpInvalid_not_denormal (f : Fmt) : fpKind f (fpInvalid f).value ≠ .denormal := by
  rw [fpInvalid, fpKind_fpDefaultNaN]
  decide

theorem tinyOut_plain (f : Fmt) (t : Fcr31) (neg : Bool) : Plain f (tinyOut f t neg).value := by
  have hspec := tinyOut_spec f t neg
  split at hspec
  · exact hspec.2.plain
  · rw [hspec]; exact fpUnimplemented_plain f

/-- What is encoded is a zero, a normalized number or an infinity. -/
theorem fpEncode_plain {t : Fcr31} {neg : Bool} {m : ℕ} {e : ℤ} {inexact : Bool} : Plain f (fpEncode f t neg m e inexact).value := by
  by_cases hm : m = 0
  · rw [fpEncode, if_pos hm]
    exact plain_fpZero f neg
  obtain ⟨hlow, hhigh⟩ := significand_bounds (f := f) hm
  rw [fpEncode_of_ne_zero f t neg hm]
  by_cases hover : (f.bias : ℤ) < e + m.log2
  · rw [if_pos hover]
    exact (overflowed_overflowValue f t.rm neg).plain
  by_cases htiny : e + m.log2 < 1 - (f.bias : ℤ)
  · rw [if_neg hover, if_pos htiny]
    exact tinyOut_plain f t neg
  · rw [if_neg hover, if_neg htiny]
    exact .inl (.inr (fpPattern_normal (by omega) (by rw [f.expMax_eq]; omega) hlow hhigh).1.1)

theorem fpRound_plain {t : Fcr31} {neg : Bool} {m : ℕ} {e : ℤ} {sticky : Bool} : Plain f (fpRound f t neg m e sticky).value := fpEncode_plain

/-- Screening leaves no denormalized operand to the operation. -/
theorem fpScreen_not_denormal {ops : List Dword} {k : FpOut}
    (h : (∀ v ∈ ops, fpKind f v ≠ .denormal) → fpKind f k.value ≠ .denormal) : fpKind f (fpScreen f ops k).value ≠ .denormal := by
  by_cases hE : ∃ v ∈ ops, fpKind f v = .denormal ∨ fpKind f v = .quietNaN
  · rw [fpScreen_unimplemented hE]
    exact (fpUnimplemented_plain f).not_denormal
  · have hops : ∀ v ∈ ops, fpKind f v ≠ .denormal ∧ fpKind f v ≠ .quietNaN := fun v hv =>
      ⟨fun hk => hE ⟨v, hv, .inl hk⟩, fun hk => hE ⟨v, hv, .inr hk⟩⟩
    rw [fpScreen_of_no_trap hops]
    split
    · exact fpInvalid_not_denormal f
    · exact h fun v hv => (hops v hv).1

theorem addScreened_not_denormal {t : Fcr31} {a b : Dword} : fpKind f (addScreened f t a b).value ≠ .denormal := by
  unfold addScreened
  split
  · next ha =>
    split
    · exact fpInvalid_not_denormal f
    · exact ha.trans_ne (by decide)
  split
  · next hb => exact hb.trans_ne (by decide)
  · unfold addFinite
    dsimp only
    split
    · exact (plain_fpZero f _).not_denormal
    · exact fpRound_plain.not_denormal

/-- A product is invalid, or a zero, a normalized number or an infinity. -/
theorem mulScreened_plain {t : Fcr31} {a b : Dword} : mulScreened f t a b = fpInvalid f ∨ Plain f (mulScreened f t a b).value := by
  unfold mulScreened
  dsimp only
  split
  · exact .inl rfl
  split
  · exact .inr (plain_fpInfinity f _)
  split
  · exact .inr (plain_fpZero f _)
  · exact .inr fpRound_plain

theorem mulScreened_not_denormal {t : Fcr31} {a b : Dword} : fpKind f (mulScreened f t a b).value ≠ .denormal := by
  rcases mulScreened_plain (f := f) (t := t) (a := a) (b := b) with h | h
  · rw [h]; exact fpInvalid_not_denormal f
  · exact h.not_denormal

theorem fpDiv_not_denormal (t : Fcr31) (a b : Dword) : fpKind f (fpDiv f t a b).value ≠ .denormal := by
  refine fpScreen_not_denormal fun _ => ?_
  dsimp only
  split
  · exact fpInvalid_not_denormal f
  split
  · exact (plain_fpInfinity f _).not_denormal
  split
  · exact (plain_fpInfinity f _).not_denormal
  split
  · exact (plain_fpZero f _).not_denormal
  · exact fpRound_plain.not_denormal

theorem fpSqrt_not_denormal (t : Fcr31) (a : Dword) : fpKind f (fpSqrt f t a).value ≠ .denormal := by
  refine fpScreen_not_denormal fun _ => ?_
  split
  · next ha => exact ha.trans_ne (by decide)
  split
  · exact fpInvalid_not_denormal f
  split
  · next ha => exact ha.trans_ne (by decide)
  · exact fpRound_plain.not_denormal

theorem freeInexact_value (o : FpOut) (i : Bool) : (freeInexact o i).value = o.value := by
  unfold freeInexact
  split <;> rfl

theorem fpApproximate_not_denormal {t : Fcr31} {neg i : Bool} {n m ulp r : ℕ} {e u : ℤ} {nearest : FpOut}
    (h : fpKind f nearest.value ≠ .denormal) : fpKind f (fpApproximate f t neg n m e u ulp r i nearest).value ≠ .denormal := by
  unfold fpApproximate
  dsimp only
  split
  · exact fpEncode_plain.not_denormal
  · rwa [freeInexact_value]

theorem fpRecip_not_denormal (t : Fcr31) (a : Dword) (r : ℕ) (i : Bool) : fpKind f (fpRecip f t a r i).value ≠ .denormal := by
  refine fpScreen_not_denormal fun _ => ?_
  dsimp only
  split
  · exact (plain_fpInfinity f _).not_denormal
  split
  · exact (plain_fpZero f _).not_denormal
  split
  · rw [freeInexact_value]; exact fpRound_plain.not_denormal
  · exact fpApproximate_not_denormal (fpRound_plain.not_denormal)

theorem fpRsqrt_not_denormal (t : Fcr31) (a : Dword) (r : ℕ) (i : Bool) : fpKind f (fpRsqrt f t a r i).value ≠ .denormal := by
  refine fpScreen_not_denormal fun _ => ?_
  dsimp only
  split
  · exact (plain_fpInfinity f _).not_denormal
  split
  · exact fpInvalid_not_denormal f
  split
  · exact (plain_fpZero f _).not_denormal
  · exact fpApproximate_not_denormal (fpRound_plain.not_denormal)

theorem fpMulAdd_not_denormal (t : Fcr31) (sub neg : Bool) (r a b : Dword) : fpKind f (fpMulAdd f t sub neg r a b).value ≠ .denormal := by
  refine fpScreen_not_denormal fun _ => ?_
  dsimp only
  split
  · exact mulScreened_not_denormal
  · show fpKind f (if _ then fpNegate f _ else _) ≠ _
    rw [apply_ite (fpKind f), fpKind_fpNegate, ite_self]
    exact addScreened_not_denormal

theorem fpConvert_not_denormal (g : Fmt) (t : Fcr31) (a : Dword) : fpKind f (fpConvert g f t a).value ≠ .denormal := by
  unfold fpConvert
  cases fpKind g a with
  | denormal | quietNaN => exact (fpUnimplemented_plain f).not_denormal
  | signalingNaN => exact fpInvalid_not_denormal f
  | infinity => exact (plain_fpInfinity f _).not_denormal
  | zero => exact (plain_fpZero f _).not_denormal
  | normal => exact fpRound_plain.not_denormal

theorem fpFromInt_not_denormal {t : Fcr31} {n : ℤ} : fpKind f (fpFromInt f t n).value ≠ .denormal := by
  unfold fpFromInt
  split
  · exact (plain_fpZero f _).not_denormal
  · exact fpRound_plain.not_denormal

theorem fpFromL_not_denormal (t : Fcr31) (a : Dword) : fpKind f (fpFromL f t a).value ≠ .denormal := by
  unfold fpFromL
  split
  · exact (fpUnimplemented_plain f).not_denormal
  · exact fpFromInt_not_denormal

end

/-! ## Sums with infinities, and those that cancel (R580, R581) -/

section
variable {f : Fmt} {t : Fcr31} {a b : Dword}

theorem delivers_fpExact {k : FpKind} {neg : Bool} {v : Dword} (h : KindSign f k neg v) : Delivers f (fpExact v) k neg := ⟨rfl, h⟩

theorem delivers_fpZero (f : Fmt) (neg : Bool) : Delivers f (fpExact (fpZero f neg)) .zero neg := delivers_fpExact (kindSign_fpZero f neg)

theorem delivers_fpInfinity (f : Fmt) (neg : Bool) : Delivers f (fpExact (fpInfinity f neg)) .infinity neg :=
  delivers_fpExact (kindSign_fpInfinity f neg)

theorem isInvalid_fpInvalid (f : Fmt) : IsInvalid f (fpInvalid f) := ⟨rfl, rfl⟩

theorem addScreened_infinities (ha : fpKind f a = .infinity) (hb : fpKind f b = .infinity) :
    if fpSign f a = fpSign f b then Delivers f (addScreened f t a b) .infinity (fpSign f b) else IsInvalid f (addScreened f t a b) := by
  rw [addScreened, if_pos ha, hb]
  split
  · next h => rw [h, if_neg (by simp)]; exact delivers_fpExact ⟨ha, h⟩
  · next h => rw [if_pos (by simpa using h)]; exact isInvalid_fpInvalid f

theorem addScreened_infinity_left (ha : fpKind f a = .infinity) (hb : Ordinary f b) :
    Delivers f (addScreened f t a b) .infinity (fpSign f a) := by
  rw [addScreened, if_pos ha, if_neg (by simp [hb.not_infinity])]
  exact delivers_fpExact ⟨ha, rfl⟩

theorem addScreened_infinity_right (ha : Ordinary f a) (hb : fpKind f b = .infinity) :
    Delivers f (addScreened f t a b) .infinity (fpSign f b) := by
  rw [addScreened, if_neg ha.not_infinity, if_pos hb]
  exact delivers_fpExact ⟨hb, rfl⟩

/-- An exact zero has the common sign, or the sign that the mode gives (R580). -/
theorem addFinite_cancels (h : fpValue f a = -fpValue f b) :
    Delivers f (addFinite f t a b) .zero (if fpSign f a = fpSign f b then fpSign f b else t.rm == 3) := by
  have hsum := congrArg₂ (· + ·) (scaled_mul f a (min_le_left (fpMagnitude f a).2 (fpMagnitude f b).2))
    (scaled_mul f b (min_le_right (fpMagnitude f a).2 (fpMagnitude f b).2))
  rw [← add_mul, h, Rat.cast_neg, neg_add_cancel, mul_eq_zero_iff_right (by positivity)] at hsum
  have hzero : scaled f a (min (fpMagnitude f a).2 (fpMagnitude f b).2) + scaled f b (min (fpMagnitude f a).2 (fpMagnitude f b).2) = 0 := by
    exact_mod_cast hsum
  have hsign : (if fpSign f a == fpSign f b then fpSign f a else t.rm == 3) =
      if fpSign f a = fpSign f b then fpSign f b else t.rm == 3 := by
    split <;> simp_all
  rw [addFinite, if_pos hzero, hsign]
  exact delivers_fpZero f _

/-- The special sums, once for ADD and SUB: the latter adds the opposite of its second operand. -/
theorem special_sums {o : FpOut} {sb : Bool}
    (h : o = fpAdd f t a b ∧ sb = fpSign f b ∨ o = fpSub f t a b ∧ sb = !fpSign f b) :
    (fpKind f a = .infinity → fpKind f b = .infinity → if fpSign f a = sb then Delivers f o .infinity sb else IsInvalid f o) ∧
    (fpKind f a = .infinity → Ordinary f b → Delivers f o .infinity (fpSign f a)) ∧
    (Ordinary f a → fpKind f b = .infinity → Delivers f o .infinity sb) ∧
    (Ordinary f a → Ordinary f b → fpValue f a = (if fpSign f b = sb then -fpValue f b else fpValue f b) →
      Delivers f o .zero (if fpSign f a = sb then sb else t.rm == 3)) := by
  obtain ⟨c, hkind, hsign, hvalue, ho⟩ : ∃ c, fpKind f c = fpKind f b ∧ fpSign f c = sb ∧
      (if fpSign f b = sb then -fpValue f b else fpValue f b) = -fpValue f c ∧ o = fpScreen f [a, b] (addScreened f t a c) := by
    rcases h with ⟨rfl, rfl⟩ | ⟨rfl, rfl⟩
    · exact ⟨b, rfl, rfl, if_pos rfl, rfl⟩
    · exact ⟨fpNegate f b, fpKind_fpNegate f b, fpSign_fpNegate f b, by rw [if_neg (by simp), fpValue_fpNegate, neg_neg], rfl⟩
  have hordinary : Ordinary f b ↔ Ordinary f c := by rw [Ordinary, Ordinary, hkind]
  subst hsign
  rw [hvalue, hordinary, ← hkind]
  have hpass : Plain f a → Plain f c → o = addScreened f t a c := fun ha hc =>
    ho.trans (fpScreen_pass_two ha (by rwa [Plain, hordinary, ← hkind]))
  refine ⟨fun ha hc => ?_, fun ha hc => ?_, fun ha hc => ?_, fun ha hc hcancel => ?_⟩
  · rw [hpass (.inr ha) (.inr hc)]
    exact addScreened_infinities ha hc
  · rw [hpass (.inr ha) (.inl hc)]
    exact addScreened_infinity_left ha hc
  · rw [hpass (.inl ha) (.inr hc)]
    exact addScreened_infinity_right ha hc
  · rw [hpass (.inl ha) (.inl hc), addScreened_ordinary ha hc]
    exact addFinite_cancels hcancel

/-! ## Products and quotients (R582, R583) -/

theorem mulScreened_invalid (h : fpKind f a = .infinity ∧ fpKind f b = .zero ∨ fpKind f a = .zero ∧ fpKind f b = .infinity) :
    mulScreened f t a b = fpInvalid f := by
  rcases h with ⟨ha, hb⟩ | ⟨ha, hb⟩ <;> simp [mulScreened, ha, hb]

theorem mulScreened_infinity
    (h : fpKind f a = .infinity ∧ (fpKind f b = .infinity ∨ fpKind f b = .normal) ∨ fpKind f a = .normal ∧ fpKind f b = .infinity) :
    mulScreened f t a b = fpExact (fpInfinity f (fpSign f a != fpSign f b)) := by
  rcases h with ⟨ha, hb | hb⟩ | ⟨ha, hb⟩ <;> simp [mulScreened, ha, hb]

theorem fpMul_pass (ha : Plain f a) (hb : Plain f b) : fpMul f t a b = mulScreened f t a b := fpScreen_pass_two ha hb

theorem fpDiv_invalid (h : fpKind f a = .zero ∧ fpKind f b = .zero ∨ fpKind f a = .infinity ∧ fpKind f b = .infinity) :
    fpDiv f t a b = fpInvalid f := by
  rcases h with ⟨ha, hb⟩ | ⟨ha, hb⟩
  · rw [fpDiv, fpScreen_pass_two (.inl (.inl ha)) (.inl (.inl hb))]
    simp [ha, hb]
  · rw [fpDiv, fpScreen_pass_two (.inr ha) (.inr hb)]
    simp [ha, hb]

theorem fpDiv_infinity (ha : fpKind f a = .infinity) (hb : Ordinary f b) :
    fpDiv f t a b = fpExact (fpInfinity f (fpSign f a != fpSign f b)) := by
  rw [fpDiv, fpScreen_pass_two (.inr ha) (.inl hb)]
  simp [ha, hb.not_infinity]

theorem fpDiv_by_zero (ha : fpKind f a = .normal) (hb : fpKind f b = .zero) :
    fpDiv f t a b = ⟨xZ, fpInfinity f (fpSign f a != fpSign f b)⟩ := by
  rw [fpDiv, fpScreen_pass_two (.inl (.inr ha)) (.inl (.inl hb))]
  simp [ha, hb]

theorem fpDiv_by_infinity (ha : Ordinary f a) (hb : fpKind f b = .infinity) :
    fpDiv f t a b = fpExact (fpZero f (fpSign f a != fpSign f b)) := by
  rw [fpDiv, fpScreen_pass_two (.inl ha) (.inr hb)]
  rcases ha with ha | ha <;> simp [ha, hb]

/-- The special products and quotients, all with the sign of their operands' signs. -/
theorem special_products (t : Fcr31) {neg : Bool} (hneg : neg = (fpSign f a != fpSign f b)) :
    (fpKind f a = .infinity ∧ fpKind f b = .zero ∨ fpKind f a = .zero ∧ fpKind f b = .infinity → IsInvalid f (fpMul f t a b)) ∧
    (fpKind f a = .infinity ∧ (fpKind f b = .infinity ∨ fpKind f b = .normal) ∨ fpKind f a = .normal ∧ fpKind f b = .infinity →
      Delivers f (fpMul f t a b) .infinity neg) ∧
    (fpKind f a = .zero ∧ Ordinary f b ∨ Ordinary f a ∧ fpKind f b = .zero → Delivers f (fpMul f t a b) .zero neg) ∧
    (fpKind f a = .zero ∧ fpKind f b = .zero ∨ fpKind f a = .infinity ∧ fpKind f b = .infinity → IsInvalid f (fpDiv f t a b)) ∧
    (fpKind f a = .infinity ∧ Ordinary f b → Delivers f (fpDiv f t a b) .infinity neg) ∧
    (fpKind f a = .normal ∧ fpKind f b = .zero → DividesByZero f (fpDiv f t a b) neg) ∧
    (fpKind f a = .zero ∧ fpKind f b = .normal ∨ Ordinary f a ∧ fpKind f b = .infinity → Delivers f (fpDiv f t a b) .zero neg) := by
  subst hneg
  refine ⟨fun h => ?_, fun h => ?_, fun h => ?_, fun h => ?_, fun ⟨ha, hb⟩ => ?_, fun ⟨ha, hb⟩ => ?_, fun h => ?_⟩
  · have hpass : fpMul f t a b = mulScreened f t a b := by
      rcases h with ⟨ha, hb⟩ | ⟨ha, hb⟩
      · exact fpMul_pass (.inr ha) (.inl (.inl hb))
      · exact fpMul_pass (.inl (.inl ha)) (.inr hb)
    rw [hpass, mulScreened_invalid h]
    exact isInvalid_fpInvalid f
  · have hpass : fpMul f t a b = mulScreened f t a b := by
      rcases h with ⟨ha, hb | hb⟩ | ⟨ha, hb⟩
      · exact fpMul_pass (.inr ha) (.inr hb)
      · exact fpMul_pass (.inr ha) (.inl (.inr hb))
      · exact fpMul_pass (.inl (.inr ha)) (.inr hb)
    rw [hpass, mulScreened_infinity h]
    exact delivers_fpInfinity f _
  · have hpass : fpMul f t a b = mulScreened f t a b := by
      rcases h with ⟨ha, hb⟩ | ⟨ha, hb⟩
      · exact fpMul_pass (.inl (.inl ha)) (.inl hb)
      · exact fpMul_pass (.inl ha) (.inl (.inl hb))
    rw [hpass, mulScreened_zero h]
    exact delivers_fpZero f _
  · rw [fpDiv_invalid h]
    exact isInvalid_fpInvalid f
  · rw [fpDiv_infinity ha hb]
    exact delivers_fpInfinity f _
  · rw [fpDiv_by_zero ha hb]
    exact ⟨rfl, kindSign_fpInfinity f _⟩
  · rcases h with ⟨ha, hb⟩ | ⟨ha, hb⟩
    · rw [fpDiv_zero ha hb]
      exact delivers_fpZero f _
    · rw [fpDiv_by_infinity ha hb]
      exact delivers_fpZero f _

/-! ## Operations on one operand (R584 to R588, R600, R611, R612) -/

/-- ABS and NEG of a plain operand act on its sign alone. -/
theorem fpAbs_fpNeg_plain {kind : FpKind} (ha : fpKind f a = kind) (hp : Plain f a) :
    Delivers f (fpAbs f a) kind false ∧ Delivers f (fpNeg f a) kind (!fpSign f a) := by
  constructor
  · rw [fpAbs, fpScreen_pass_one hp]
    refine delivers_fpExact ?_
    cases hs : fpSign f a with
    | true => exact ⟨(fpKind_fpNegate f a).trans ha, by simp [hs]⟩
    | false => exact ⟨ha, hs⟩
  · rw [fpNeg, fpScreen_pass_one hp]
    exact delivers_fpExact ⟨(fpKind_fpNegate f a).trans ha, fpSign_fpNegate f a⟩

/-- The conversions between the formats of zeros and infinities. -/
theorem fpConvert_special {kind : FpKind} (g : Fmt) (ha : fpKind f a = kind) (hk : kind = .zero ∨ kind = .infinity) :
    Delivers g (fpConvert f g t a) kind (fpSign f a) := by
  rw [fpConvert, ha]
  rcases hk with rfl | rfl
  · exact delivers_fpZero g _
  · exact delivers_fpInfinity g _

/-- The root and the reciprocals of a zero. -/
theorem special_of_zero (t : Fcr31) (k : ℕ) (i : Bool) (ha : fpKind f a = .zero) :
    Delivers f (fpSqrt f t a) .zero (fpSign f a) ∧ DividesByZero f (fpRecip f t a k i) (fpSign f a) ∧
      DividesByZero f (fpRsqrt f t a k i) (fpSign f a) := by
  have hp : Plain f a := .inl (.inl ha)
  refine ⟨by rw [fpSqrt_zero ha]; exact delivers_fpExact ⟨ha, rfl⟩, ?_, ?_⟩
  · rw [fpRecip, fpScreen_pass_one hp, ha]
    exact ⟨rfl, kindSign_fpInfinity f _⟩
  · rw [fpRsqrt, fpScreen_pass_one hp, ha]
    exact ⟨rfl, kindSign_fpInfinity f _⟩

/-- The roots of a negative number. -/
theorem roots_of_negative (t : Fcr31) (k : ℕ) (i : Bool) (ha : fpKind f a = .normal ∨ fpKind f a = .infinity) (hs : fpSign f a = true) :
    IsInvalid f (fpSqrt f t a) ∧ IsInvalid f (fpRsqrt f t a k i) := by
  have hp : Plain f a := ha.imp .inr id
  have hne : fpKind f a ≠ .zero := by rcases ha with ha | ha <;> rw [ha] <;> decide
  rw [fpSqrt, fpRsqrt, fpScreen_pass_one hp, fpScreen_pass_one hp, if_neg hne, if_neg hne, if_pos hs, if_pos hs]
  exact ⟨isInvalid_fpInvalid f, isInvalid_fpInvalid f⟩

/-- The roots and reciprocals of an infinity. -/
theorem special_of_infinity (t : Fcr31) (k : ℕ) (i : Bool) (ha : fpKind f a = .infinity) :
    Delivers f (fpRecip f t a k i) .zero (fpSign f a) ∧
      (fpSign f a = false → Delivers f (fpSqrt f t a) .infinity false ∧ Delivers f (fpRsqrt f t a k i) .zero false) := by
  have hp : Plain f a := .inr ha
  refine ⟨?_, fun hs => ⟨?_, ?_⟩⟩
  · rw [fpRecip, fpScreen_pass_one hp, ha]
    exact delivers_fpZero f _
  · rw [fpSqrt, fpScreen_pass_one hp, ha, hs]
    exact delivers_fpExact ⟨ha, hs⟩
  · rw [fpRsqrt, fpScreen_pass_one hp, ha, hs]
    exact delivers_fpZero f _

theorem fpToFixed_unimplemented {rm : BitVec 2} {bits : ℕ} {d : Dword}
    (ha : fpKind f a = .denormal ∨ fpKind f a = .quietNaN ∨ fpKind f a = .infinity) : fpToFixed f rm bits d a = fpUnimplemented := by
  rcases ha with ha | ha | ha <;> rw [fpToFixed, ha]

theorem fpToFixed_signalingNaN {rm : BitVec 2} {bits : ℕ} {d : Dword} (ha : fpKind f a = .signalingNaN) :
    fpToFixed f rm bits d a = ⟨xV, d⟩ := by rw [fpToFixed, ha]

theorem fpFromL_outside (t : Fcr31) {w : Dword} (h : w.toInt < -2 ^ 52 ∨ 2 ^ 52 - 1 < w.toInt) : fpFromL f t w = fpUnimplemented :=
  if_pos (by simpa using h)

/-- The operations that screen their operands, on the operands they name. -/
theorem screened_of_operation {t : Fcr31} {sub neg i : Bool} {k : ℕ} {ops : List Dword} {a b r : Dword} {o : FpOut}
    (h : ops = [a, b] ∧ (o = fpAdd f t a b ∨ o = fpSub f t a b ∨ o = fpMul f t a b ∨ o = fpDiv f t a b) ∨
      ops = [a] ∧ (o = fpSqrt f t a ∨ o = fpAbs f a ∨ o = fpNeg f a ∨ o = fpRecip f t a k i ∨ o = fpRsqrt f t a k i) ∨
      ops = [r, a, b] ∧ o = fpMulAdd f t sub neg r a b) : ∃ c, o = fpScreen f ops c := by
  rcases h with ⟨rfl, rfl | rfl | rfl | rfl⟩ | ⟨rfl, rfl | rfl | rfl | rfl | rfl⟩ | ⟨rfl, rfl⟩ <;> exact ⟨_, rfl⟩

theorem fpAbs_not_denormal (a : Dword) : fpKind f (fpAbs f a).value ≠ .denormal := by
  refine fpScreen_not_denormal fun h => ?_
  have ha := h a (List.mem_singleton.2 rfl)
  show fpKind f (if _ then fpNegate f a else a) ≠ _
  rwa [apply_ite (fpKind f), fpKind_fpNegate, ite_self]

theorem fpNeg_not_denormal (a : Dword) : fpKind f (fpNeg f a).value ≠ .denormal :=
  fpScreen_not_denormal fun h => by
    have ha := h a (List.mem_singleton.2 rfl)
    show fpKind f (fpNegate f a) ≠ _
    rwa [fpKind_fpNegate]

/-- No operation delivers a denormalized number. -/
theorem result_not_denormal {g : Fmt} {t : Fcr31} {sub neg i : Bool} {k : ℕ} {a b r : Dword} {o : FpOut}
    (h : o = fpAdd f t a b ∨ o = fpSub f t a b ∨ o = fpMul f t a b ∨ o = fpDiv f t a b ∨ o = fpSqrt f t a ∨ o = fpAbs f a ∨ o = fpNeg f a ∨
      o = fpRecip f t a k i ∨ o = fpRsqrt f t a k i ∨ o = fpMulAdd f t sub neg r a b ∨ o = fpConvert g f t a ∨ o = fpFromW f t a ∨
      o = fpFromL f t a) : fpKind f o.value ≠ .denormal := by
  rcases h with rfl | rfl | rfl | rfl | rfl | rfl | rfl | rfl | rfl | rfl | rfl | rfl | rfl
  · exact fpScreen_not_denormal fun _ => addScreened_not_denormal
  · exact fpScreen_not_denormal fun _ => addScreened_not_denormal
  · exact fpScreen_not_denormal fun _ => mulScreened_not_denormal
  · exact fpDiv_not_denormal t a b
  · exact fpSqrt_not_denormal t a
  · exact fpAbs_not_denormal a
  · exact fpNeg_not_denormal a
  · exact fpRecip_not_denormal t a k i
  · exact fpRsqrt_not_denormal t a k i
  · exact fpMulAdd_not_denormal t sub neg r a b
  · exact fpConvert_not_denormal g t a
  · exact fpFromInt_not_denormal
  · exact fpFromL_not_denormal t a

end

/-- Settles O50, operation by operation and kind by kind. -/
theorem specialOperands : Obligations.SpecialOperands := by
  refine ⟨fun f t sub neg i k ops a b r o h => ?_, fun f g t sub neg i k a b r o h _ => result_not_denormal h,
    fun f t a b o sb h => special_sums h, fun f t a b neg hneg => special_products t hneg, fun f t a k i kind hk => ?_, fun f t a => ?_⟩
  · obtain ⟨c, rfl⟩ := screened_of_operation h
    refine ⟨fun hE => by rw [fpScreen_unimplemented hE]; rfl, fun hnone hV => ?_⟩
    rw [fpScreen_invalid hnone hV]
    exact isInvalid_fpInvalid f
  · refine ⟨fun hplain => ?_, fun hzero => ?_, fun hneg hs => ?_, fun hinf => ?_, fun hE g => ?_, fun hV g => ?_, fun rm =>
      ⟨fun hE => ?_, fun hV => ?_⟩⟩
    · have hp : Plain f a := hplain.imp (fun h => .inl (hk.trans h)) hk.trans
      obtain ⟨habs, hopposite⟩ := fpAbs_fpNeg_plain hk hp
      exact ⟨habs, hopposite, fun g => fpConvert_special g hk hplain⟩
    · exact special_of_zero t k i (hk.trans hzero)
    · exact roots_of_negative t k i (hneg.imp hk.trans hk.trans) hs
    · exact special_of_infinity t k i (hk.trans hinf)
    · rcases hE with hE | hE <;> rw [fpConvert, hk.trans hE] <;> rfl
    · rw [fpConvert, hk.trans hV]
      exact isInvalid_fpInvalid g
    · rw [← hk] at hE
      rw [fpToW, fpToL, fpToFixed_unimplemented hE, fpToFixed_unimplemented hE]
      exact ⟨rfl, rfl⟩
    · rw [fpToW, fpToL, fpToFixed_signalingNaN (hk.trans hV), fpToFixed_signalingNaN (hk.trans hV)]
      exact ⟨rfl, rfl⟩
  · refine ⟨fun h => ?_, fun h => ?_, fun h => by rw [fpFromL_outside t h]; rfl⟩
    · rw [fpFromW, h]
      exact delivers_fpZero f false
    · rw [h]
      exact delivers_fpZero f false

end Sys2Proof.Machine
end

section
/-! SUPPORT. Multiply-adds on zeros, normalized numbers and infinities: the multiplication, then the addition or subtraction. -/

namespace Sys2Proof.Machine

-- One thread, as in Sys2Proof/Tests: the whole text stays within the check's memory limit.
set_option Elab.async false

/-! ## Exceptions of a product and of a sum -/

section
variable {f : Fmt} {t : Fcr31} {a b r : Dword}

/-- Nothing, Unimplemented Operation, Inexact, Overflow with Inexact or Underflow with Inexact. -/
def RoundingExceptions (x : BitVec 6) : Prop := x = 0 ∨ x = xE ∨ x = xI ∨ x = xOI ∨ x = xUI

theorem fpEncode_exceptions (neg : Bool) (m : ℕ) (e : ℤ) (inexact : Bool) : RoundingExceptions (fpEncode f t neg m e inexact).x := by
  unfold RoundingExceptions fpEncode tinyOut
  dsimp only
  split_ifs <;> simp [fpUnimplemented]

theorem addScreened_exceptions : RoundingExceptions (addScreened f t a b).x ∨ addScreened f t a b = fpInvalid f := by
  unfold addScreened
  split
  · split
    · exact .inr rfl
    · exact .inl (.inl rfl)
  split
  · exact .inl (.inl rfl)
  · unfold addFinite
    dsimp only
    split
    · exact .inl (.inl rfl)
    · exact .inl (fpEncode_exceptions _ _ _ _)

theorem mulScreened_exceptions : RoundingExceptions (mulScreened f t a b).x ∨ mulScreened f t a b = fpInvalid f := by
  unfold mulScreened
  dsimp only
  split
  · exact .inr rfl
  split
  · exact .inl (.inl rfl)
  split
  · exact .inl (.inl rfl)
  · exact .inl (fpEncode_exceptions _ _ _ _)

/-- Among these, bit 4 is Invalid Operation alone. -/
theorem invalid_bit_iff {o : FpOut} (h : RoundingExceptions o.x ∨ o = fpInvalid f) : o.x.getLsbD 4 = true ↔ o.x = xV := by
  have hbit : ∀ x : BitVec 6, RoundingExceptions x → (x.getLsbD 4 = true ↔ x = xV) := by unfold RoundingExceptions; decide
  rcases h with h | rfl
  · exact hbit _ h
  · exact iff_of_true (show xV.getLsbD 4 = true by decide) rfl

/-! ## The two steps (spec/47_fpu_arith.md R590) -/

/-- A multiply-add of operands that pass the screen. -/
theorem fpMulAdd_pass (sub neg : Bool) (hr : Plain f r) (ha : Plain f a) (hb : Plain f b) :
    fpMulAdd f t sub neg r a b =
      if fpTraps { t with cause := (mulScreened f t a b).x } || (mulScreened f t a b).x.getLsbD 4 then mulScreened f t a b
      else ⟨if (addScreened f t (mulScreened f t a b).value (if sub then fpNegate f r else r)).x = xE then xE
          else (mulScreened f t a b).x ||| (addScreened f t (mulScreened f t a b).value (if sub then fpNegate f r else r)).x,
        if neg && !(addScreened f t (mulScreened f t a b).value (if sub then fpNegate f r else r)).x.getLsbD 4
          then fpNegate f (addScreened f t (mulScreened f t a b).value (if sub then fpNegate f r else r)).value
          else (addScreened f t (mulScreened f t a b).value (if sub then fpNegate f r else r)).value⟩ :=
  fpScreen_pass (List.forall_mem_cons.2 ⟨hr, List.forall_mem_cons.2 ⟨ha, List.forall_mem_singleton.2 hb⟩⟩)

/-- ADD or SUB of operands that pass the screen. -/
theorem addOrSub_pass (sub : Bool) (ha : Plain f a) (hr : Plain f r) :
    (if sub then fpSub f t a r else fpAdd f t a r) = addScreened f t a (if sub then fpNegate f r else r) := by
  cases sub with
  | true => exact fpScreen_pass_two ha hr
  | false => exact fpScreen_pass_two ha hr

/-- A multiply-add is the multiplication, then, unless that traps or is invalid, the addition or subtraction, then the sign. -/
theorem fpMulAdd_steps {sub neg : Bool} {p q o : FpOut} (hr : Plain f r) (ha : Plain f a) (hb : Plain f b) (hp : p = fpMul f t a b)
    (hq : q = (if sub then fpSub f t p.value r else fpAdd f t p.value r)) (ho : o = fpMulAdd f t sub neg r a b) :
    (TrapsUnder t p.x ∨ p.x = xV → o = p) ∧
    (¬TrapsUnder t p.x → p.x ≠ xV → o.x = (if q.x = xE then xE else p.x ||| q.x) ∧
      o.value = if neg = true ∧ q.x ≠ xV then fpNegate f q.value else q.value) := by
  rw [fpMul_pass ha hb] at hp
  rw [fpMulAdd_pass sub neg hr ha hb, ← hp] at ho
  have hstop : (fpTraps { t with cause := p.x } || p.x.getLsbD 4) = true ↔ TrapsUnder t p.x ∨ p.x = xV := by
    have htraps : fpTraps { t with cause := p.x } = true ↔ TrapsUnder t p.x := fpTraps_iff _
    have hinvalid : p.x.getLsbD 4 = true ↔ p.x = xV := by rw [hp]; exact invalid_bit_iff mulScreened_exceptions
    rw [Bool.or_eq_true, htraps, hinvalid]
  refine ⟨fun h => by rw [ho, if_pos (hstop.2 h)], fun ht hV => ?_⟩
  have hplain : Plain f p.value := by
    rcases mulScreened_plain (f := f) (t := t) (a := a) (b := b) with h | h <;> rw [← hp] at h
    · exact absurd (congrArg FpOut.x h) hV
    · exact h
  rw [addOrSub_pass sub hplain hr] at hq
  rw [if_neg fun h => (hstop.1 h).elim ht hV, ← hq] at ho
  have hvalid : (neg && !q.x.getLsbD 4) = true ↔ neg = true ∧ q.x ≠ xV := by
    have hinvalid : q.x.getLsbD 4 = true ↔ q.x = xV := by rw [hq]; exact invalid_bit_iff addScreened_exceptions
    rw [Bool.and_eq_true, Bool.not_eq_true', ← Bool.not_eq_true, hinvalid]
  rw [ho]
  exact ⟨rfl, if_congr hvalid rfl rfl⟩

/-! ## Results that are delivered -/

/-- The fraction of a zero or normalized number is even if a digit less holds its value. -/
theorem fpFrac_even {v : Dword} (hv : Ordinary f v) (hd : Digits f.frac (fpValue f v)) : fpFrac f v % 2 = 0 := by
  rcases hv with h0 | h1
  · rw [(fpKind_zero_iff.1 h0).2]
  · have hfrac := fpFrac_lt f v
    have hd' : Digits f.frac ((2 ^ f.frac + fpFrac f v : ℕ) * (2 : ℝ) ^ (fpMagnitude f v).2) := by
      rw [fpValue_cast] at hd
      have hmag : (fpMagnitude f v).1 = 2 ^ f.frac + fpFrac f v := by rw [fpMagnitude, if_neg (fpKind_normal_iff.1 h1).1.ne']
      rw [hmag] at hd
      cases hs : fpSign f v with
      | true => rw [hs] at hd; exact digits_neg_iff.1 hd
      | false => rw [hs] at hd; exact hd
    have heven := (digits_frac_iff (Nat.le_add_right _ _) _ (by rw [f.prec_eq, pow_succ]; omega)).1 hd'
    have htwo : 2 ^ f.frac % 2 = 0 := Nat.mod_eq_zero_of_dvd (dvd_pow_self 2 f.frac_pos.ne')
    omega

/-- A zero or normalized number that a value rounds to with unbounded exponent is what it rounds to among the numbers of the format. -/
theorem RoundsFree.roundsTo {rm : BitVec 2} {v : Dword} {x : ℝ} (hv : Ordinary f v) (h : RoundsFree f rm (fpValue f v) x) :
    RoundsTo f rm v x := by
  obtain ⟨-, hnear, hzero, habove, hbelow⟩ := h
  refine ⟨hv.finite, fun hrm c _ => ?_, fun hrm => ?_, fun hrm => ?_, fun hrm => ?_⟩
  · obtain ⟨hle, htie⟩ := hnear hrm _ (digits_fpValue f c)
    exact ⟨hle, fun hne heq => fpFrac_even hv (htie (by exact_mod_cast hne) heq)⟩
  · obtain ⟨hsign, hle, hgreatest⟩ := hzero hrm
    exact ⟨hsign, hle, fun c _ hc => by exact_mod_cast hgreatest _ (digits_fpValue f c) hc⟩
  · obtain ⟨hle, hleast⟩ := habove hrm
    exact ⟨hle, fun c _ hc => by exact_mod_cast hleast _ (digits_fpValue f c) hc⟩
  · obtain ⟨hle, hgreatest⟩ := hbelow hrm
    exact ⟨hle, fun c _ hc => by exact_mod_cast hgreatest _ (digits_fpValue f c) hc⟩

/-- An outcome that signals nothing but Inexact is the rounded value as a zero or normalized number. -/
theorem OutcomeOf.delivered {y : ℝ} {inexact : Prop} {o : FpOut} (h : OutcomeOf f t y inexact o) (hx : o.x = 0 ∨ o.x = xI) :
    Ordinary f o.value ∧ (fpValue f o.value : ℝ) = y ∧ (y = 0 ∧ o.x = 0 ∨ o.x = 0 ∧ ¬inexact ∨ o.x = xI ∧ inexact) := by
  have hno : o.x ≠ xE ∧ o.x ≠ xOI ∧ o.x ≠ xUI := by rcases hx with hx | hx <;> rw [hx] <;> decide
  rcases eq_or_ne y 0 with h0 | h0
  · obtain ⟨hx0, hk⟩ := h.zero h0
    exact ⟨.inl hk, by rw [fpValue_zero hk, h0, Rat.cast_zero], .inl ⟨h0, hx0⟩⟩
  rcases lt_or_ge |y| (minNormal f : ℝ) with hlow | hlow
  · have htiny := h.tiny (abs_pos.2 h0) hlow
    split at htiny
    · exact absurd htiny.1 hno.2.2
    · exact absurd htiny hno.1
  rcases lt_or_ge (maxFinite f : ℝ) |y| with hhigh | hhigh
  · exact absurd (h.overflow hhigh).1 hno.2.1
  · obtain ⟨hexact, hk, hv⟩ := h.normal hlow hhigh
    exact ⟨.inr hk, hv, .inr hexact⟩

theorem RoundedOutcome.delivered {x : ℝ} {o : FpOut} (h : RoundedOutcome f t x o) (hx : o.x = 0 ∨ o.x = xI) :
    Ordinary f o.value ∧ RoundsTo f t.rm o.value x ∧ (o.x = 0 ↔ (fpValue f o.value : ℝ) = x) := by
  obtain ⟨y, hround, hzero, hout⟩ := h
  obtain ⟨hord, hv, hexact⟩ := hout.delivered hx
  refine ⟨hord, RoundsFree.roundsTo hord ((hround _).2 hv), ?_⟩
  rw [hv]
  rcases hexact with ⟨hy, hx0⟩ | ⟨hx0, hnot⟩ | ⟨hxI, hne⟩
  · exact iff_of_true hx0 (by rw [hy, hzero hy])
  · exact iff_of_true hx0 (not_not.1 hnot)
  · exact iff_of_false (by rw [hxI]; decide) hne

/-! ## Multiply-adds that deliver a number -/

theorem fpFinite.ordinary_or_denormal {v : Dword} (h : fpFinite f v) : Ordinary f v ∨ fpKind f v = .denormal := by
  obtain ⟨hinf, hq, hs⟩ := fpFinite_iff_kind.1 h
  unfold Ordinary
  cases hk : fpKind f v <;> simp_all

/-- Exceptions that come to nothing or to Inexact alone do so on both sides. -/
theorem exceptions_of_or {x z : BitVec 6} (h : x ||| z = 0 ∨ x ||| z = xI) :
    (x = 0 ∨ x = xI) ∧ (z = 0 ∨ z = xI) ∧ (x ||| z = 0 ↔ x = 0 ∧ z = 0) := by
  have hle : (x ||| z).toNat ≤ 1 := by rcases h with h | h <;> rw [h] <;> decide
  have hsmall : ∀ w : BitVec 6, w.toNat ≤ 1 → w = 0 ∨ w = xI := fun w hw => by
    rcases Nat.le_one_iff_eq_zero_or_eq_one.1 hw with h | h
    · exact .inl (BitVec.eq_of_toNat_eq h)
    · exact .inr (BitVec.eq_of_toNat_eq h)
  rw [BitVec.toNat_or] at hle
  exact ⟨hsmall x (Nat.left_le_or.trans hle), hsmall z (Nat.right_le_or.trans hle), BitVec.or_eq_zero_iff⟩

theorem addOrSub_outcome (sub : Bool) (ha : Ordinary f a) (hr : Ordinary f r) :
    RoundedOutcome f t ((if sub then fpValue f a - fpValue f r else fpValue f a + fpValue f r : ℚ) : ℝ)
      (if sub then fpSub f t a r else fpAdd f t a r) := by
  cases sub with
  | true =>
    rw [if_pos rfl, if_pos rfl, Rat.cast_sub]
    exact fpSub_outcome ha hr
  | false =>
    rw [if_neg Bool.false_ne_true, if_neg Bool.false_ne_true, Rat.cast_add]
    exact fpAdd_outcome ha hr

/-- A multiply-add that signals nothing but Inexact is a rounded product and a rounded sum of it. -/
theorem fpMulAdd_rounds {sub neg : Bool} {o : FpOut} (ha : fpFinite f a) (hb : fpFinite f b) (hr : fpFinite f r)
    (ho : o = fpMulAdd f t sub neg r a b) (hx : o.x = 0 ∨ (o.x = xI ∧ t.enables.getLsbD 0 = false)) :
    ∃ (p v : Dword) (w : ℚ), RoundsTo f t.rm p (fpValue f a * fpValue f b) ∧
      w = (if sub then fpValue f p - fpValue f r else fpValue f p + fpValue f r) ∧
      RoundsTo f t.rm v w ∧ fpFinite f o.value ∧ fpValue f o.value = (if neg then -fpValue f v else fpValue f v) ∧
      (o.x = 0 ↔ fpValue f p = fpValue f a * fpValue f b ∧ fpValue f v = w) := by
  have hxE : o.x ≠ xE := by rcases hx with hx | ⟨hx, -⟩ <;> rw [hx] <;> decide
  have hord : ∀ v ∈ [r, a, b], fpFinite f v → Ordinary f v := fun v hv hfin =>
    hfin.ordinary_or_denormal.resolve_right fun hd =>
      hxE (by rw [ho, fpMulAdd, fpScreen_unimplemented ⟨v, hv, .inl hd⟩]; rfl)
  have ha := hord a (by simp) ha
  have hb := hord b (by simp) hb
  have hr := hord r (by simp) hr
  obtain ⟨q, hq⟩ : ∃ q, q = if sub then fpSub f t (fpMul f t a b).value r else fpAdd f t (fpMul f t a b).value r := ⟨_, rfl⟩
  obtain ⟨hstop, hgo⟩ := fpMulAdd_steps (.inl hr) (.inl ha) (.inl hb) rfl hq ho
  have hxV : o.x ≠ xV := by rcases hx with hx | ⟨hx, -⟩ <;> rw [hx] <;> decide
  have hmask : ¬TrapsUnder t o.x := by
    rintro (hE | ⟨k, hk, hbit, henable⟩)
    · rcases hx with hx | ⟨hx, -⟩ <;> rw [hx] at hE <;> exact absurd hE (by decide)
    · rcases hx with hx | ⟨hx, hI⟩ <;> rw [hx] at hbit
      · simp at hbit
      · have honly : ∀ k < 5, xI.getLsbD k = true → k = 0 := by decide
        obtain rfl := honly k hk hbit
        exact Bool.false_ne_true (hI.symm.trans henable)
  have htraps : ¬TrapsUnder t (fpMul f t a b).x := fun h => hmask (by rw [hstop (.inl h)]; exact h)
  have hinvalid : (fpMul f t a b).x ≠ xV := fun h => hxV (by rw [hstop (.inr h)]; exact h)
  obtain ⟨hox, hvalue⟩ := hgo htraps hinvalid
  have hqE : q.x ≠ xE := fun h => hxE (by rw [hox, if_pos h])
  rw [if_neg hqE] at hox
  obtain ⟨hpx, hqx, hboth⟩ := exceptions_of_or (hox ▸ hx.imp id And.left)
  obtain ⟨hpord, hpround, hpexact⟩ := (fpMul_outcome ha hb).delivered hpx
  obtain ⟨hqord, hqround, hqexact⟩ := (hq ▸ addOrSub_outcome sub hpord hr : RoundedOutcome f t _ q).delivered hqx
  have hqV : q.x ≠ xV := by rcases hqx with h | h <;> rw [h] <;> decide
  refine ⟨_, _, _, hpround, rfl, hqround, ?_, ?_, ?_⟩
  · rw [hvalue]
    split
    · exact (ordinary_fpNegate_iff.2 hqord).finite
    · exact hqord.finite
  · rw [hvalue, if_congr (and_iff_left hqV) rfl rfl, apply_ite (fpValue f), fpValue_fpNegate]
  · rw [hox, hboth, hpexact, hqexact, ← Rat.cast_mul, Rat.cast_inj, Rat.cast_inj]

end

end Sys2Proof.Machine
end

section
/-! SUPPORT. Reciprocals and reciprocal square roots: a number within the tolerance of the exact result. -/

namespace Sys2Proof.Machine

-- One thread, as in Sys2Proof/Tests: the whole text stays within the check's memory limit.
set_option Elab.async false

/-! ## The unit in the last place of a real number -/

section
variable {f : Fmt} {u : ℤ} {x y : ℝ}

/-- The exponent of the unit in the last place. -/
def UnitAt (f : Fmt) (u : ℤ) (x : ℝ) : Prop := (2 : ℝ) ^ (u + f.frac) ≤ |x| ∧ |x| < 2 ^ (u + f.prec)

theorem UnitAt.unique {u' : ℤ} (h : UnitAt f u x) (h' : UnitAt f u' x) : u = u' := by
  obtain ⟨hlow, hhigh⟩ := h
  obtain ⟨hlow', hhigh'⟩ := h'
  have h1 := (zpow_lt_zpow_iff_right₀ (one_lt_two (α := ℝ))).1 (hlow.trans_lt hhigh')
  have h2 := (zpow_lt_zpow_iff_right₀ (one_lt_two (α := ℝ))).1 (hlow'.trans_lt hhigh)
  rw [f.prec_eq] at h1 h2
  omega

theorem unitAt_withSign {neg : Bool} : UnitAt f u (withSign neg x) ↔ UnitAt f u x := by rw [UnitAt, UnitAt, abs_withSign]

/-- A positive number rounds to one of the two multiples of its unit beside it. -/
theorem RoundsFree.within_unit_of_pos {rm : BitVec 2} (h : RoundsFree f rm y x) (hx : 0 < x) (hu : UnitAt f u x) : |y - x| ≤ 2 ^ u := by
  obtain ⟨hlow, hhigh⟩ := hu
  have hpos : (0 : ℝ) < 2 ^ u := by positivity
  rw [abs_of_pos hx, zpow_add₀ two_ne_zero, mul_comm, zpow_natCast] at hlow hhigh
  have hle := Nat.floor_le (div_pos hx hpos).le
  have hlt := Nat.lt_floor_add_one (x / 2 ^ u)
  rw [le_div_iff₀ hpos] at hle
  rw [div_lt_iff₀ hpos] at hlt
  have hq : 2 ^ f.frac ≤ ⌊x / 2 ^ u⌋₊ := Nat.le_floor (by rw [le_div_iff₀ hpos]; exact_mod_cast hlow)
  have hq' : ⌊x / 2 ^ u⌋₊ < 2 ^ f.prec := (Nat.floor_lt (div_pos hx hpos).le).2 (by rw [div_lt_iff₀ hpos]; exact_mod_cast hhigh)
  have hb : x < (⌊x / 2 ^ u⌋₊ + 1 : ℕ) * (2 : ℝ) ^ u := by exact_mod_cast hlt
  obtain ⟨hup, hdown⟩ := (neighbours hq hq' u).roundsFree_iff (y := y) hle hb rm
  push_cast at hup hb
  rw [add_mul, one_mul] at hup hb
  rw [abs_le]
  by_cases hru : RoundsUp rm (⌊x / 2 ^ u⌋₊ % 2 == 1) (⌊x / 2 ^ u⌋₊ * (2 : ℝ) ^ u) (⌊x / 2 ^ u⌋₊ * (2 : ℝ) ^ u + 2 ^ u) x
  · have hy := (hup hru).1 h
    constructor <;> linarith
  · rw [Nat.cast_succ, add_mul, one_mul] at hdown
    have hy := (hdown hru).1 h
    constructor <;> linarith

theorem RoundsFree.within_unit {rm : BitVec 2} (h : RoundsFree f rm y x) (hu : UnitAt f u x) : |y - x| ≤ 2 ^ u := by
  have hne : x ≠ 0 := fun h0 => by
    have := hu.1
    rw [h0, abs_zero] at this
    exact absurd (show (0 : ℝ) < 2 ^ (u + f.frac) by positivity) this.not_gt
  rcases lt_or_gt_of_ne hne with hneg | hpos
  · have hu' : UnitAt f u (-x) := by rwa [UnitAt, abs_neg]
    have hw := h.neg.within_unit_of_pos (neg_pos.2 hneg) hu'
    rwa [neg_sub_neg, abs_sub_comm] at hw
  · exact h.within_unit_of_pos hpos hu

/-- The exponent the model computes is that of the unit in the last place. -/
theorem unitAt_unitExponent {q : ℕ} {e : ℤ} {sticky : Bool} (hq : 2 ^ f.prec ≤ q) (hx : Stands q e sticky x) :
    UnitAt f (unitExponent f q e) x := by
  obtain ⟨hlow, hhigh⟩ := hx.bounds
  have hq0 : q ≠ 0 := ((Nat.two_pow_pos _).trans_le hq).ne'
  have hlog : f.prec ≤ q.log2 := (Nat.le_log2 hq0).2 hq
  have hself : (2 : ℝ) ^ q.log2 ≤ q := by exact_mod_cast Nat.log2_self_le hq0
  have hnext : (q : ℝ) + 1 ≤ 2 ^ (q.log2 + 1) := by exact_mod_cast Nat.lt_log2_self (n := q)
  have hpos : (0 : ℝ) ≤ x := le_trans (by positivity) hlow
  have hunit : unitExponent f q e = e + (q.log2 + 1 - f.prec : ℕ) := rfl
  rw [UnitAt, abs_of_nonneg hpos, hunit]
  constructor
  · calc (2 : ℝ) ^ (e + (q.log2 + 1 - f.prec : ℕ) + f.frac) = 2 ^ q.log2 * 2 ^ e := by
          rw [← zpow_natCast, ← zpow_add₀ two_ne_zero]
          congr 1
          rw [f.prec_eq] at hlog ⊢
          omega
      _ ≤ x := le_trans (by gcongr) hlow
  · calc x < (q + 1) * 2 ^ e := hhigh
      _ ≤ 2 ^ (q.log2 + 1) * 2 ^ e := by gcongr
      _ = (2 : ℝ) ^ (e + (q.log2 + 1 - f.prec : ℕ) + f.prec) := by
          rw [← zpow_natCast, ← zpow_add₀ two_ne_zero]
          congr 1
          omega

end

/-! ## The model's approximation (spec/47_fpu_arith.md R587, R588) -/

section
variable {f : Fmt} {t : Fcr31} {x y r : ℝ} {o : FpOut}

/-- The test that an inverse root stands between two bounds. -/
theorem bounds_of_inverseRootWithin {n m lo hi : ℕ} {e g : ℤ} (hn : n ≠ 0) (hm : 0 < m) (hx : 0 ≤ x)
    (hroot : x ^ n * (m * 2 ^ e) = 1) (h : inverseRootWithin n m e lo hi g = true) :
    lo * (2 : ℝ) ^ g ≤ x ∧ x ≤ hi * (2 : ℝ) ^ g := by
  have htest : lo ^ n * m * 2 ^ (n * g + e).toNat ≤ 2 ^ (-(n * g + e)).toNat ∧
      2 ^ (-(n * g + e)).toNat ≤ hi ^ n * m * 2 ^ (n * g + e).toNat := by simpa [inverseRootWithin] using h
  have hscale : (2 : ℝ) ^ (n * g + e) * 2 ^ (-(n * g + e)).toNat = 2 ^ (n * g + e).toNat := by
    rw [← zpow_natCast, ← zpow_natCast, ← zpow_add₀ two_ne_zero]
    congr 1
    omega
  have hpow : ∀ c : ℝ, (c * 2 ^ g) ^ n * (m * 2 ^ e) * 2 ^ (-(n * g + e)).toNat = c ^ n * m * 2 ^ (n * g + e).toNat := fun c => by
    rw [← hscale, mul_pow, ← zpow_natCast (2 ^ g : ℝ), ← zpow_mul, zpow_add₀ two_ne_zero, mul_comm g]
    ring
  have hM : (0 : ℝ) < m * 2 ^ e := mul_pos (by exact_mod_cast hm) (by positivity)
  have hP : (0 : ℝ) < 2 ^ (-(n * g + e)).toNat := by positivity
  obtain ⟨hlo, hhi⟩ := htest
  constructor
  · refine (pow_le_pow_iff_left₀ (by positivity) hx hn).1 ?_
    rw [← mul_le_mul_iff_left₀ hM, ← mul_le_mul_iff_left₀ hP, hpow, hroot, one_mul]
    exact_mod_cast hlo
  · refine (pow_le_pow_iff_left₀ hx (by positivity) hn).1 ?_
    rw [← mul_le_mul_iff_left₀ hM, ← mul_le_mul_iff_left₀ hP, hpow, hroot, one_mul]
    exact_mod_cast hhi

/-- An outcome whose Inexact is left open. -/
theorem OutcomeOf.freeInexact {inexact : Prop} (h : OutcomeOf f t y inexact o) (hy : y ≠ 0) (i : Bool) :
    ∃ inexact', OutcomeOf f t y inexact' (freeInexact o i) := by
  unfold Machine.freeInexact
  split
  · next hx =>
    have hx : o.x = 0 ∨ o.x = xI := by simpa using hx
    have hno : o.x ≠ xE ∧ o.x ≠ xOI ∧ o.x ≠ xUI := by rcases hx with hx | hx <;> rw [hx] <;> decide
    refine ⟨i = true, fun h0 => absurd h0 hy, fun hlow hhigh => ⟨?_, (h.normal hlow hhigh).2⟩,
      fun hover => absurd (h.overflow hover).1 hno.2.1, fun hpos hlow => ?_⟩
    · cases i <;> simp
    · have htiny := h.tiny hpos hlow
      split at htiny
      · exact absurd htiny.1 hno.2.2
      · exact absurd htiny hno.1
  · exact ⟨inexact, h⟩

/-- The outcome of a number within the tolerance of the exact value `r`. -/
def ApproximateOutcome (f : Fmt) (t : Fcr31) (ulp : ℕ) (r : ℝ) (o : FpOut) : Prop :=
  ∃ y inexact, Digits f.prec y ∧ OutcomeOf f t y inexact o ∧ ∀ u : ℤ, UnitAt f u r → |y - r| ≤ (max 1 ulp : ℕ) * (2 : ℝ) ^ u

/-- The rounded value is within one unit. -/
theorem approximateOutcome_nearest (ulp : ℕ) (i : Bool) (hr : r ≠ 0) (h : RoundedOutcome f t r o) :
    ApproximateOutcome f t ulp r (freeInexact o i) := by
  obtain ⟨y, hround, hzero, hout⟩ := h
  obtain ⟨inexact, hfree⟩ := hout.freeInexact (fun h0 => hr (hzero h0)) i
  have hy := (hround y).2 rfl
  refine ⟨y, inexact, hy.1, hfree, fun u hu => (hy.within_unit hu).trans ?_⟩
  have hmax : (1 : ℝ) ≤ (max 1 ulp : ℕ) := by exact_mod_cast le_max_left 1 ulp
  exact le_mul_of_one_le_left (by positivity) hmax

theorem abs_withSign_sub (neg : Bool) (c x : ℝ) : |withSign neg c - withSign neg x| = |c - x| := by
  cases neg with
  | true => exact (congrArg abs (neg_sub_neg c x)).trans (abs_sub_comm x c)
  | false => rfl

/-- A magnitude counted in a smaller unit. -/
theorem rescale (c : ℕ) {d g : ℤ} (h : g ≤ d) : ((c * 2 ^ (d - g).toNat : ℕ) : ℝ) * 2 ^ g = c * 2 ^ d := by
  obtain ⟨k, rfl⟩ : ∃ k : ℕ, d = k + g := ⟨(d - g).toNat, by omega⟩
  rw [Int.add_sub_cancel, Int.toNat_natCast, zpow_add₀ two_ne_zero, zpow_natCast]
  push_cast
  ring

theorem sub_le_cast_sub (m n : ℕ) : (m : ℝ) - n ≤ ((m - n : ℕ) : ℝ) := by
  rw [sub_le_iff_le_add]
  exact_mod_cast le_tsub_add

/-- The number that the free value names is within the tolerance, or the rounded value is taken. -/
theorem approximateOutcome_fpApproximate {neg i : Bool} {n m k ulp : ℕ} {e u : ℤ} (hn : n ≠ 0) (hm : 0 < m) (hx : 0 < x)
    (hroot : x ^ n * (m * 2 ^ e) = 1) (hu : UnitAt f u x) (ho : RoundedOutcome f t (withSign neg x) o) :
    ApproximateOutcome f t ulp (withSign neg x) (fpApproximate f t neg n m e u ulp k i o) := by
  have hne : withSign neg x ≠ 0 := by rw [← abs_pos, abs_withSign, abs_pos]; exact hx.ne'
  unfold fpApproximate
  dsimp only
  obtain ⟨c, hc⟩ : ∃ c, c = 2 ^ f.frac + k % 2 ^ f.frac := ⟨_, rfl⟩
  obtain ⟨d, hd⟩ : ∃ d : ℤ, d = u + (k / 2 ^ f.frac % 4096 : ℕ) - 2048 := ⟨_, rfl⟩
  rw [← hc, ← hd]
  split
  · next hwithin =>
    obtain ⟨hlow, hhigh⟩ := bounds_of_inverseRootWithin hn hm hx.le hroot hwithin
    have hc0 : c ≠ 0 := by have := Nat.two_pow_pos f.frac; omega
    have hfit : c ≤ 2 ^ f.prec := by
      have := Nat.mod_lt k (Nat.two_pow_pos f.frac)
      rw [f.prec_eq, pow_succ]
      omega
    have hdigits : Digits f.prec (withSign neg (c * 2 ^ d)) := by
      cases neg with
      | true => exact (digits_of_le d (Nat.succ_pos _) hfit).neg
      | false => exact digits_of_le d (Nat.succ_pos _) hfit
    refine ⟨_, _, hdigits, fpEncode_outcome t neg hc0 hfit d i, fun u' hu' => ?_⟩
    obtain rfl := hu.unique (unitAt_withSign.1 hu')
    have hlow' := (mul_le_mul_of_nonneg_right (sub_le_cast_sub _ _) (by positivity)).trans hlow
    rw [sub_mul, rescale c (min_le_left d u), rescale ulp (min_le_right d u)] at hlow'
    rw [Nat.cast_add, add_mul, rescale c (min_le_left d u), rescale ulp (min_le_right d u)] at hhigh
    have hulp : (ulp : ℝ) * 2 ^ u ≤ (max 1 ulp : ℕ) * 2 ^ u := by gcongr; exact le_max_right 1 ulp
    rw [abs_withSign_sub, abs_le]
    constructor <;> linarith
  · exact approximateOutcome_nearest ulp i hne ho

/-! ## RECIP (R587) -/

section
variable {a : Dword} (ha : fpKind f a = .normal) (k : ℕ) (i : Bool)
include ha

/-- The reciprocal of a significand at the exponent at which the model divides, with its sign. -/
theorem one_div_fpValue :
    1 / (fpValue f a : ℝ) = withSign (fpSign f a)
      (((2 ^ (2 * f.prec + 1) : ℕ) / (fpMagnitude f a).1 : ℝ) * 2 ^ (-(fpMagnitude f a).2 - (2 * f.prec + 1 : ℕ))) := by
  have hone : (1 : ℝ) = withSign false 1 := rfl
  have hm : ((fpMagnitude f a).1 : ℝ) ≠ 0 := by exact_mod_cast (fpMagnitude_normal_pos ha).ne'
  rw [fpValue_cast, hone, withSign_div, Bool.false_bne]
  congr 1
  rw [zpow_sub₀ two_ne_zero, zpow_neg, zpow_natCast]
  push_cast
  field_simp

/-- The quotient that RECIP rounds, of a normalized number. -/
def recipNearest (f : Fmt) (t : Fcr31) (a : Dword) : FpOut :=
  fpRound f t (fpSign f a) (2 ^ (2 * f.prec + 1) / (fpMagnitude f a).1) (-(fpMagnitude f a).2 - (2 * f.prec + 1 : ℕ))
    (2 ^ (2 * f.prec + 1) % (fpMagnitude f a).1 != 0)

theorem fpRecip_normal :
    fpRecip f t a k i = if 2 ^ (2 * f.prec + 1) % (fpMagnitude f a).1 = 0 then freeInexact (recipNearest f t a) i
      else fpApproximate f t (fpSign f a) 1 (fpMagnitude f a).1 (fpMagnitude f a).2
        (unitExponent f (2 ^ (2 * f.prec + 1) / (fpMagnitude f a).1) (-(fpMagnitude f a).2 - (2 * f.prec + 1 : ℕ)))
        Config.recipUlp k i (recipNearest f t a) := by
  rw [fpRecip, fpScreen_pass_one (.inl (.inr ha)), ha]
  dsimp only
  rw [if_neg (by decide), if_neg (by decide)]
  exact if_congr beq_iff_eq rfl rfl

theorem recip_bits : 2 ^ f.prec ≤ 2 ^ (2 * f.prec + 1) / (fpMagnitude f a).1 := by
  rw [Nat.le_div_iff_mul_le (fpMagnitude_normal_pos ha)]
  calc 2 ^ f.prec * (fpMagnitude f a).1 ≤ 2 ^ f.prec * 2 ^ f.prec := Nat.mul_le_mul_left _ (fpMagnitude_normal ha).2.1.le
    _ ≤ _ := by rw [← Nat.pow_add]; exact Nat.pow_le_pow_right (by decide) (by omega)

theorem recipNearest_outcome : RoundedOutcome f t (1 / fpValue f a) (recipNearest f t a) := by
  rw [one_div_fpValue ha]
  exact roundedOutcome_fpRound_sticky _ (recip_bits ha) (stands_quotient _ (fpMagnitude_normal_pos ha) _)

theorem fpRecip_outcome : ApproximateOutcome f t Config.recipUlp (1 / fpValue f a) (fpRecip f t a k i) := by
  have hnearest := recipNearest_outcome (t := t) ha
  rw [fpRecip_normal ha]
  split
  · exact approximateOutcome_nearest _ i (one_div_ne_zero (by exact_mod_cast fpValue_ne_zero ha)) hnearest
  · have hm : (0 : ℝ) < (fpMagnitude f a).1 := by exact_mod_cast fpMagnitude_normal_pos ha
    have hunit := unitAt_unitExponent (recip_bits ha) (stands_quotient (2 ^ (2 * f.prec + 1)) (fpMagnitude_normal_pos ha)
      (-(fpMagnitude f a).2 - (2 * f.prec + 1 : ℕ)))
    rw [one_div_fpValue ha] at hnearest ⊢
    refine approximateOutcome_fpApproximate one_ne_zero (fpMagnitude_normal_pos ha) (by positivity) ?_ hunit hnearest
    rw [pow_one, zpow_sub₀ two_ne_zero, zpow_neg, zpow_natCast]
    push_cast
    field_simp

/-- If the reciprocal is a number of the format, the significand is a power of two, and the division leaves nothing. -/
theorem recip_divides {c : Dword} (hv : (fpValue f c : ℝ) = 1 / fpValue f a) :
    2 ^ (2 * f.prec + 1) % (fpMagnitude f a).1 = 0 := by
  have hprod : |(fpValue f c : ℝ)| * |(fpValue f a : ℝ)| = 1 := by
    rw [hv, ← abs_mul, one_div_mul_cancel (by exact_mod_cast fpValue_ne_zero ha), abs_one]
  rw [fpValue_cast, fpValue_cast, abs_withSign, abs_withSign, abs_of_nonneg (by positivity), abs_of_nonneg (by positivity)] at hprod
  obtain ⟨h, hh⟩ : ∃ h, h = (fpMagnitude f c).2 + (fpMagnitude f a).2 := ⟨_, rfl⟩
  have hscale : (2 : ℝ) ^ h * 2 ^ (-h).toNat = 2 ^ h.toNat := by
    rw [← zpow_natCast, ← zpow_natCast, ← zpow_add₀ two_ne_zero]
    congr 1
    omega
  have hreal : ((fpMagnitude f a).1 : ℝ) * ((fpMagnitude f c).1 * 2 ^ h.toNat) = 2 ^ (-h).toNat := by
    calc ((fpMagnitude f a).1 : ℝ) * ((fpMagnitude f c).1 * 2 ^ h.toNat)
        = (fpMagnitude f c).1 * 2 ^ (fpMagnitude f c).2 * ((fpMagnitude f a).1 * 2 ^ (fpMagnitude f a).2) * 2 ^ (-h).toNat := by
          rw [← hscale, hh, zpow_add₀ two_ne_zero]
          ring
      _ = 2 ^ (-h).toNat := by rw [hprod, one_mul]
  have hdvd : (fpMagnitude f a).1 ∣ 2 ^ (-h).toNat := ⟨_, by exact_mod_cast hreal.symm⟩
  obtain ⟨j, -, hj⟩ := (Nat.dvd_prime_pow Nat.prime_two).1 hdvd
  have hlt := (fpMagnitude_normal ha).2.1
  rw [hj] at hlt ⊢
  have hj' := (Nat.pow_lt_pow_iff_right (by decide)).1 hlt
  exact Nat.mod_eq_zero_of_dvd (Nat.pow_dvd_pow 2 (by omega))

/-- A quotient that is a number of the format is delivered. -/
theorem fpRecip_exact {c : Dword} (hc : fpKind f c = .normal) (hv : (fpValue f c : ℝ) = 1 / fpValue f a) :
    ((fpRecip f t a k i).x = 0 ∨ (fpRecip f t a k i).x = xI) ∧ fpFinite f (fpRecip f t a k i).value ∧
      (fpValue f (fpRecip f t a k i).value : ℝ) = 1 / fpValue f a := by
  obtain ⟨y, hround, -, hout⟩ := recipNearest_outcome (t := t) ha
  obtain rfl := (hround _).1 ((roundsFree_iff_of_digits (hv ▸ digits_fpValue f c)).2 rfl)
  obtain ⟨hmin, hmax⟩ := abs_fpValue_normal hc
  rw [hv] at hmin hmax
  obtain ⟨hx, hkind, hvalue⟩ := hout.normal hmin hmax
  have hx : (recipNearest f t a).x = 0 ∨ (recipNearest f t a).x = xI := hx.imp And.left And.left
  rw [fpRecip_normal ha, if_pos (recip_divides ha hv), freeInexact_value]
  refine ⟨?_, Ordinary.finite (.inr hkind), hvalue⟩
  rw [freeInexact, if_pos (by simpa using hx)]
  cases i
  · exact .inl rfl
  · exact .inr rfl

end

/-! ## RSQRT (R588) -/

/-- The root of a quotient, of which the square says whether it is exact. -/
theorem stands_root_quotient (N : ℕ) {m : ℕ} (hm : 0 < m) (e : ℤ) :
    Stands (N / m).sqrt e ((N / m).sqrt * (N / m).sqrt * m != N) (Real.sqrt (N / m) * 2 ^ e) := by
  have he : (0 : ℝ) < 2 ^ e := by positivity
  have hm' : (0 : ℝ) < m := by exact_mod_cast hm
  have hlow : ((N / m).sqrt : ℝ) ≤ Real.sqrt (N / m) := Real.le_sqrt_of_sq_le (by
    rw [le_div_iff₀ hm']
    exact_mod_cast (Nat.le_div_iff_mul_le hm).1 (Nat.sqrt_le' (N / m)))
  have hhigh : Real.sqrt (N / m) < (N / m).sqrt + 1 := by
    rw [Real.sqrt_lt' (by positivity), div_lt_iff₀ hm']
    exact_mod_cast (Nat.div_lt_iff_lt_mul hm).1 (Nat.lt_succ_sqrt' (N / m))
  refine stands_of_bounds (by gcongr) (by gcongr) ?_
  rw [bne_iff_ne, not_iff_not, mul_left_inj' he.ne', Real.sqrt_eq_iff_mul_self_eq (by positivity) (Nat.cast_nonneg _), div_eq_iff hm'.ne']
  exact_mod_cast eq_comm

section
variable {a : Dword} (ha : fpKind f a = .normal) (hs : fpSign f a = false) (k : ℕ) (i : Bool)
include ha

/-- The root that RSQRT computes, before it is rounded. -/
def rsqrtRoot (f : Fmt) (a : Dword) : ℕ := isqrt (2 ^ (4 * f.prec) / (evenExponent (fpMagnitude f a)).1) (2 * f.prec) 0

/-- The exponent of that root. -/
def rsqrtExponent (f : Fmt) (a : Dword) : ℤ := -((evenExponent (fpMagnitude f a)).2 / 2) - 2 * f.prec

/-- The root that RSQRT rounds, of a normalized number. -/
def rsqrtNearest (f : Fmt) (t : Fcr31) (a : Dword) : FpOut :=
  fpRound f t false (rsqrtRoot f a) (rsqrtExponent f a)
    (rsqrtRoot f a * rsqrtRoot f a * (evenExponent (fpMagnitude f a)).1 != 2 ^ (4 * f.prec))

theorem evenExponent_normal_pos : 0 < (evenExponent (fpMagnitude f a)).1 := (Nat.two_pow_pos _).trans_le (evenExponent_normal ha).1

theorem rsqrtRoot_eq : rsqrtRoot f a = (2 ^ (4 * f.prec) / (evenExponent (fpMagnitude f a)).1).sqrt := by
  refine isqrt_zero_eq_sqrt ?_
  rw [show 2 * (2 * f.prec) = 4 * f.prec by omega]
  refine Nat.div_lt_self (Nat.two_pow_pos _) (lt_of_lt_of_le ?_ (evenExponent_normal ha).1)
  exact Nat.one_lt_two_pow f.frac_pos.ne'

theorem rsqrt_bits : 2 ^ f.prec ≤ rsqrtRoot f a := by
  rw [rsqrtRoot_eq ha, Nat.le_sqrt, Nat.le_div_iff_mul_le (evenExponent_normal_pos ha), ← Nat.pow_add]
  calc 2 ^ (f.prec + f.prec) * (evenExponent (fpMagnitude f a)).1 ≤ 2 ^ (f.prec + f.prec) * 2 ^ (f.prec + 1) :=
        Nat.mul_le_mul_left _ (evenExponent_normal ha).2.le
    _ ≤ _ := by rw [← Nat.pow_add]; exact Nat.pow_le_pow_right (by decide) (by rw [f.prec_eq]; omega)

include hs in
theorem fpRsqrt_normal :
    fpRsqrt f t a k i = fpApproximate f t false 2 (evenExponent (fpMagnitude f a)).1 (evenExponent (fpMagnitude f a)).2
      (unitExponent f (rsqrtRoot f a) (rsqrtExponent f a)) Config.rsqrtUlp k i (rsqrtNearest f t a) := by
  rw [fpRsqrt, fpScreen_pass_one (.inl (.inr ha)), ha, hs]
  rfl

include hs in
/-- The inverse root at the exponent at which the model computes it. -/
theorem one_div_sqrt_fpValue :
    1 / Real.sqrt (fpValue f a) =
      Real.sqrt ((2 ^ (4 * f.prec) : ℕ) / (evenExponent (fpMagnitude f a)).1) * 2 ^ rsqrtExponent f a := by
  obtain ⟨heven, hvalue, -⟩ := evenExponent_spec (fpMagnitude f a)
  have hm : (0 : ℝ) < (evenExponent (fpMagnitude f a)).1 := by exact_mod_cast evenExponent_normal_pos ha
  have hroot := Real.sqrt_ne_zero'.2 hm
  have hpow : Real.sqrt ((2 ^ (4 * f.prec) : ℕ) : ℝ) = 2 ^ (2 * f.prec) := by
    push_cast
    rw [show 4 * f.prec = 2 * f.prec * 2 by omega, pow_mul (2 : ℝ) (2 * f.prec), Real.sqrt_sq (by positivity)]
  have hsplit : (2 : ℝ) ^ rsqrtExponent f a = (2 ^ ((evenExponent (fpMagnitude f a)).2 / 2))⁻¹ / 2 ^ (2 * f.prec) := by
    rw [rsqrtExponent, zpow_sub₀ two_ne_zero, zpow_neg, ← zpow_natCast]
    push_cast
    rfl
  rw [fpValue_cast, hs]
  show 1 / Real.sqrt ((fpMagnitude f a).1 * 2 ^ (fpMagnitude f a).2) = _
  rw [← hvalue, Real.sqrt_mul hm.le, sqrt_two_zpow heven, Real.sqrt_div (Nat.cast_nonneg _), hpow, hsplit]
  field_simp

include hs in
theorem fpRsqrt_outcome : ApproximateOutcome f t Config.rsqrtUlp (1 / Real.sqrt (fpValue f a)) (fpRsqrt f t a k i) := by
  have hstands := stands_root_quotient (2 ^ (4 * f.prec)) (evenExponent_normal_pos ha) (rsqrtExponent f a)
  rw [← rsqrtRoot_eq ha, ← one_div_sqrt_fpValue ha hs] at hstands
  have hvalue : (0 : ℝ) < fpValue f a := by
    have hneg := (fpSign_iff_fpValue_neg ha).not.1 (by rw [hs]; decide)
    exact_mod_cast (not_lt.1 hneg).lt_of_ne (fpValue_ne_zero ha).symm
  have hroot : (1 / Real.sqrt (fpValue f a)) ^ 2 *
      ((evenExponent (fpMagnitude f a)).1 * 2 ^ (evenExponent (fpMagnitude f a)).2) = 1 := by
    have hmag : ((evenExponent (fpMagnitude f a)).1 : ℝ) * 2 ^ (evenExponent (fpMagnitude f a)).2 = fpValue f a := by
      rw [(evenExponent_spec (fpMagnitude f a)).2.1, fpValue_cast, hs]
      rfl
    rw [hmag, div_pow, one_pow, Real.sq_sqrt hvalue.le, one_div_mul_cancel hvalue.ne']
  rw [fpRsqrt_normal ha hs]
  exact approximateOutcome_fpApproximate two_ne_zero (evenExponent_normal_pos ha) (one_div_pos.2 (Real.sqrt_pos.2 hvalue)) hroot
    (unitAt_unitExponent (rsqrt_bits ha) hstands) (roundedOutcome_fpRound_sticky false (rsqrt_bits ha) hstands)

end

end

end Sys2Proof.Machine
end

section
/-! SUPPORT. Conversions to fixed point; the results on zeros and normalized numbers (O49). -/

namespace Sys2Proof.Machine

-- One thread, as in Sys2Proof/Tests: the whole text stays within the check's memory limit.
set_option Elab.async false

/-! ## Rounding to an integer (spec/47_fpu_arith.md R600) -/

section
variable {n : ℤ} {r : ℚ}

theorem roundsToInt_nearest : RoundsToInt 0 n r ↔ |n - r| ≤ 1 / 2 ∧ (|n - r| = 1 / 2 → n % 2 = 0) := by simp [RoundsToInt]
theorem roundsToInt_towardZero : RoundsToInt 1 n r ↔ 0 ≤ n * r ∧ |(n : ℚ)| ≤ |r| ∧ |r| < |(n : ℚ)| + 1 := by simp [RoundsToInt]
theorem roundsToInt_above : RoundsToInt 2 n r ↔ r ≤ n ∧ n < r + 1 := by simp [RoundsToInt]
theorem roundsToInt_below : RoundsToInt 3 n r ↔ n ≤ r ∧ r < n + 1 := by simp [RoundsToInt]

end

/-- An integer rounds to itself. -/
theorem roundsToInt_self (rm : BitVec 2) (n : ℤ) : RoundsToInt rm n n :=
  ⟨fun _ => ⟨by norm_num, fun h => by norm_num at h⟩, fun _ => ⟨mul_self_nonneg _, le_rfl, lt_add_one _⟩, fun _ => ⟨le_rfl, lt_add_one _⟩,
    fun _ => ⟨le_rfl, lt_add_one _⟩⟩

theorem RoundsToInt.neg {rm : BitVec 2} {n : ℤ} {r : ℚ} (h : RoundsToInt rm n r) : RoundsToInt (oppositeMode rm) (-n) (-r) := by
  have habs : |((-n : ℤ) : ℚ) - -r| = |n - r| := by rw [Int.cast_neg, neg_sub_neg, abs_sub_comm]
  rcases roundingMode_cases rm with rfl | rfl | rfl | rfl
  · show RoundsToInt 0 (-n) (-r)
    obtain ⟨hle, htie⟩ := roundsToInt_nearest.1 h
    rw [roundsToInt_nearest, habs]
    exact ⟨hle, fun heq => by have := htie heq; omega⟩
  · show RoundsToInt 1 (-n) (-r)
    rw [roundsToInt_towardZero, Int.cast_neg, neg_mul_neg, abs_neg, abs_neg]
    exact roundsToInt_towardZero.1 h
  · show RoundsToInt 3 (-n) (-r)
    obtain ⟨hle, hlt⟩ := roundsToInt_above.1 h
    rw [roundsToInt_below, Int.cast_neg]
    constructor <;> linarith
  · show RoundsToInt 2 (-n) (-r)
    obtain ⟨hle, hlt⟩ := roundsToInt_below.1 h
    rw [roundsToInt_above, Int.cast_neg]
    constructor <;> linarith

/-- The integers beside `q + θ`, by mode. -/
theorem roundsToInt_beside {q : ℕ} {θ : ℚ} (h0 : 0 ≤ θ) (h1 : θ < 1) :
    (RoundsToInt 0 q (q + θ) ↔ θ < 1 / 2 ∨ θ = 1 / 2 ∧ q % 2 = 0) ∧
      (RoundsToInt 0 (q + 1) (q + θ) ↔ 1 / 2 < θ ∨ θ = 1 / 2 ∧ q % 2 = 1) ∧
      RoundsToInt 1 q (q + θ) ∧ RoundsToInt 3 q (q + θ) ∧ (θ = 0 → RoundsToInt 2 q (q + θ)) ∧ (0 < θ → RoundsToInt 2 (q + 1) (q + θ)) := by
  have hq : (0 : ℚ) ≤ q := Nat.cast_nonneg q
  have hbelow : |((q : ℤ) : ℚ) - (q + θ)| = θ := by
    rw [Int.cast_natCast, sub_add_cancel_left, abs_neg, abs_of_nonneg h0]
  have habove : |((q + 1 : ℤ) : ℚ) - (q + θ)| = 1 - θ := by
    push_cast
    rw [add_sub_add_left_eq_sub, abs_of_pos (by linarith)]
  rw [roundsToInt_nearest, roundsToInt_nearest, roundsToInt_towardZero, roundsToInt_below, roundsToInt_above, roundsToInt_above, hbelow,
    habove, le_iff_lt_or_eq, le_iff_lt_or_eq]
  push_cast
  rw [abs_of_nonneg hq, abs_of_nonneg (by linarith)]
  refine ⟨⟨?_, ?_⟩, ⟨?_, ?_⟩, ⟨by positivity, by linarith, by linarith⟩, ⟨by linarith, by linarith⟩, fun h => ⟨by linarith, by linarith⟩,
    fun h => ⟨by linarith, by linarith⟩⟩
  · rintro ⟨hlt | heq, heven⟩
    · exact .inl hlt
    · exact .inr ⟨heq, by have := heven heq; omega⟩
  · rintro (hlt | ⟨heq, heven⟩)
    · exact ⟨.inl hlt, fun h => absurd h hlt.ne⟩
    · exact ⟨.inr heq, fun _ => by omega⟩
  · rintro ⟨hlt | heq, hodd⟩
    · exact .inl (by linarith)
    · exact .inr ⟨by linarith, by have := hodd heq; omega⟩
  · rintro (hlt | ⟨heq, hodd⟩)
    · exact ⟨.inl (by linarith), fun h => by linarith⟩
    · exact ⟨.inr (by linarith), fun _ => by omega⟩

/-- A magnitude `q + rem / 2 ^ k` rounds to `q` or the next integer as the model's rule says; it is exact if nothing is dropped. -/
theorem roundsToInt_roundsUp (rm : BitVec 2) (q k : ℕ) {rem : ℕ} (hrem : rem < 2 ^ k) :
    RoundsToInt rm (if roundsUp rm false (q % 2 == 1) rem (2 ^ k) false then q + 1 else q : ℕ) (q + rem / 2 ^ k) ∧
      (((if roundsUp rm false (q % 2 == 1) rem (2 ^ k) false then q + 1 else q : ℕ) : ℚ) ≠ q + rem / 2 ^ k ↔ rem ≠ 0) := by
  obtain ⟨θ, hθ⟩ : ∃ θ : ℚ, θ = rem / 2 ^ k := ⟨_, rfl⟩
  have hpow : (0 : ℚ) < 2 ^ k := by positivity
  have hcast : (rem : ℚ) = θ * 2 ^ k := by rw [hθ]; field_simp
  have h0 : 0 ≤ θ := by rw [hθ]; positivity
  have h1 : θ < 1 := by rw [hθ, div_lt_one hpow]; exact_mod_cast hrem
  have hsome : rem ≠ 0 ↔ 0 < θ := by rw [hθ, div_pos_iff_of_pos_right hpow, Nat.cast_pos, Nat.pos_iff_ne_zero]
  have hmore : 2 ^ k < 2 * rem ↔ 1 / 2 < θ := by
    rw [← Nat.cast_lt (α := ℚ)]
    push_cast
    rw [hcast]
    constructor <;> intro h <;> nlinarith
  have hhalf : 2 * rem = 2 ^ k ↔ θ = 1 / 2 := by
    rw [← Nat.cast_inj (R := ℚ)]
    push_cast
    rw [hcast, ← mul_assoc, mul_eq_right₀ hpow.ne']
    constructor <;> intro h <;> linarith
  obtain ⟨hdown, hup, htoward, hbelow, hexact, habove⟩ := roundsToInt_beside (q := q) h0 h1
  have hnearest : roundsUp 0 false (q % 2 == 1) rem (2 ^ k) false = true ↔ 1 / 2 < θ ∨ θ = 1 / 2 ∧ q % 2 = 1 := by
    rw [← hmore, ← hhalf]
    simp [roundsUp]
  have hceil : roundsUp 2 false (q % 2 == 1) rem (2 ^ k) false = true ↔ 0 < θ := by
    rw [← hsome]
    simp [roundsUp]
  rw [← hθ, hsome]
  split
  · next h =>
    have hpos : 0 < θ := by
      rcases roundingMode_cases rm with rfl | rfl | rfl | rfl
      · rcases hnearest.1 h with hlt | ⟨heq, -⟩ <;> linarith
      · simp [roundsUp] at h
      · exact hceil.1 h
      · simp [roundsUp] at h
    push_cast
    refine ⟨?_, iff_of_true (fun h => by linarith) hpos⟩
    rcases roundingMode_cases rm with rfl | rfl | rfl | rfl
    · exact hup.2 (hnearest.1 h)
    · simp [roundsUp] at h
    · exact habove hpos
    · simp [roundsUp] at h
  · next h =>
    refine ⟨?_, ?_⟩
    · rcases roundingMode_cases rm with rfl | rfl | rfl | rfl
      · rw [hnearest] at h
        rcases lt_trichotomy θ (1 / 2) with hlt | heq | hgt
        · exact hdown.2 (.inl hlt)
        · exact hdown.2 (.inr ⟨heq, (Nat.mod_two_eq_zero_or_one q).resolve_right fun hodd => h (.inr ⟨heq, hodd⟩)⟩)
        · exact absurd (.inl hgt) h
      · exact htoward
      · exact hexact (le_antisymm (not_lt.1 fun hpos => h (hceil.2 hpos)) h0)
      · exact hbelow
    · rw [ne_eq, left_eq_add, lt_iff_le_and_ne, eq_comm]
      exact ⟨fun hne => ⟨h0, hne⟩, And.right⟩

/-! ## The model's conversion (R600) -/

section
variable {f : Fmt} {rm : BitVec 2} {a : Dword}

/-- An integer with a sign. -/
def signedInt (neg : Bool) (n : ℕ) : ℤ := if neg then -n else n

theorem roundInteger_true (rm : BitVec 2) (m : ℕ) (e : ℤ) : roundInteger rm true m e = roundInteger (oppositeMode rm) false m e := by
  unfold roundInteger
  dsimp only
  rw [roundsUp_true]

theorem roundInteger_positive (rm : BitVec 2) (m : ℕ) (e : ℤ) :
    RoundsToInt rm (roundInteger rm false m e).1 (m * (2 : ℚ) ^ e) ∧
      (((roundInteger rm false m e).1 : ℚ) ≠ m * (2 : ℚ) ^ e ↔ (roundInteger rm false m e).2 = true) := by
  unfold roundInteger
  dsimp only
  split
  · next he =>
    obtain ⟨k, rfl⟩ := Int.eq_ofNat_of_zero_le he
    have hvalue : (m : ℚ) * 2 ^ (k : ℤ) = ((m * 2 ^ k : ℕ) : ℤ) := by push_cast; rw [zpow_natCast]
    rw [hvalue, Int.toNat_natCast]
    exact ⟨roundsToInt_self rm _, iff_of_false (fun h => h rfl) Bool.false_ne_true⟩
  · next he =>
    obtain ⟨k, hk⟩ : ∃ k : ℕ, k = (-e).toNat := ⟨_, rfl⟩
    obtain rfl : e = -k := by omega
    have hvalue : (m : ℚ) * 2 ^ (-k : ℤ) = (m / 2 ^ k : ℕ) + (m % 2 ^ k : ℕ) / 2 ^ k := by
      have hsplit : (m : ℚ) = 2 ^ k * (m / 2 ^ k : ℕ) + (m % 2 ^ k : ℕ) := by exact_mod_cast (Nat.div_add_mod m (2 ^ k)).symm
      rw [zpow_neg, zpow_natCast, ← div_eq_mul_inv]
      nth_rewrite 1 [hsplit]
      field_simp
    rw [← hk, hvalue, bne_iff_ne]
    exact roundsToInt_roundsUp rm (m / 2 ^ k) k (Nat.mod_lt m (Nat.two_pow_pos k))

/-- A magnitude with its sign rounds to the integer of the model, which is exact unless the model says otherwise. -/
theorem roundInteger_spec (rm : BitVec 2) (neg : Bool) (m : ℕ) (e : ℤ) :
    RoundsToInt rm (signedInt neg (roundInteger rm neg m e).1) ((if neg then -1 else 1) * m * (2 : ℚ) ^ e) ∧
      ((signedInt neg (roundInteger rm neg m e).1 : ℚ) ≠ (if neg then -1 else 1) * m * (2 : ℚ) ^ e ↔
        (roundInteger rm neg m e).2 = true) := by
  cases neg with
  | false =>
    rw [if_neg Bool.false_ne_true, one_mul]
    exact roundInteger_positive rm m e
  | true =>
    obtain ⟨hround, hexact⟩ := roundInteger_positive (oppositeMode rm) m e
    rw [roundInteger_true, if_pos rfl, neg_one_mul, neg_mul, ← hexact, signedInt, if_pos rfl, Int.cast_neg, Int.cast_natCast, ne_eq,
      ne_eq, neg_inj]
    have hneg := hround.neg
    rw [oppositeMode_oppositeMode] at hneg
    exact ⟨hneg, Iff.rfl⟩

theorem fpToFixed_ordinary (rm : BitVec 2) (bits : ℕ) (d : Dword) (ha : Ordinary f a) :
    fpToFixed f rm bits d a =
      if signedInt (fpSign f a) (roundInteger rm (fpSign f a) (fpMagnitude f a).1 (fpMagnitude f a).2).1 < -(2 ^ bits) ||
        2 ^ bits - 1 < signedInt (fpSign f a) (roundInteger rm (fpSign f a) (fpMagnitude f a).1 (fpMagnitude f a).2).1 then fpUnimplemented
      else ⟨if (roundInteger rm (fpSign f a) (fpMagnitude f a).1 (fpMagnitude f a).2).2 then xI else 0,
        BitVec.ofInt 64 (signedInt (fpSign f a) (roundInteger rm (fpSign f a) (fpMagnitude f a).1 (fpMagnitude f a).2).1)⟩ := by
  rcases ha with ha | ha <;> rw [fpToFixed, ha] <;> rfl

theorem outside_iff (n : ℤ) (bits : ℕ) :
    (decide (n < -(2 ^ bits)) || decide (2 ^ bits - 1 < n)) = true ↔ ¬(-2 ^ bits ≤ n ∧ n ≤ 2 ^ bits - 1) := by
  rw [Bool.or_eq_true, decide_eq_true_iff, decide_eq_true_iff, not_and_or, not_le, not_le]

/-- A conversion to fixed point gives the integer that the value rounds to, if it is in range. -/
theorem fpToFixed_rounds (rm : BitVec 2) (bits : ℕ) (d : Dword) (ha : Ordinary f a) :
    ∃ n : ℤ, RoundsToInt rm n (fpValue f a) ∧
      if -2 ^ bits ≤ n ∧ n ≤ 2 ^ bits - 1 then fpToFixed f rm bits d a = ⟨if n = fpValue f a then 0 else xI, BitVec.ofInt 64 n⟩
      else (fpToFixed f rm bits d a).x = xE := by
  obtain ⟨hround, hexact⟩ := roundInteger_spec rm (fpSign f a) (fpMagnitude f a).1 (fpMagnitude f a).2
  rw [← fpValue] at hround hexact
  refine ⟨_, hround, ?_⟩
  rw [fpToFixed_ordinary rm bits d ha]
  split
  · next hin =>
    rw [if_neg fun h => (outside_iff _ bits).1 h hin]
    refine congrArg (FpOut.mk · _) ?_
    by_cases hinexact : (roundInteger rm (fpSign f a) (fpMagnitude f a).1 (fpMagnitude f a).2).2 = true
    · rw [if_pos hinexact, if_neg (hexact.2 hinexact)]
    · rw [if_neg hinexact, if_pos (not_not.1 fun hne => hinexact (hexact.1 hne))]
  · next hout =>
    rw [if_pos ((outside_iff _ bits).2 hout)]
    rfl

end

/-! ## The results on zeros and normalized numbers -/

/-- The outcome of an operation that rounds once is that of whatever its exact result rounds to. -/
theorem ExactResult.outcomeOf {f : Fmt} {t : Fcr31} {o : FpOut} {r y : ℝ} (h : ExactResult f t o r) (hy : RoundsFree f t.rm y r) :
    OutcomeOf f t y (y ≠ r) o := by
  obtain ⟨y', hround, -, hout⟩ := h.outcome
  obtain rfl := (hround y).1 hy
  exact hout

/-- Settles O49: operation by operation, through what each rounds. -/
theorem roundedArithmetic : Obligations.RoundedArithmetic := by
  refine ⟨fun f t o r y h hy => h.outcomeOf hy, fun f t sub neg a b r p q o hplain hp hq ho => ?_,
    fun f t sub neg a b r o ha hb hr ho hx => fpMulAdd_rounds ha hb hr ho hx, fun f t a k ulp i o r ha h => ⟨?_, fun c ho hr hc hv => ?_⟩,
    fun f rm a bits o ha h => ?_⟩
  · exact fpMulAdd_steps (hplain r (by simp)) (hplain a (by simp)) (hplain b (by simp)) hp hq ho
  · have hout : ApproximateOutcome f t ulp r o := by
      rcases h with ⟨rfl, rfl, rfl⟩ | ⟨rfl, hs, rfl, rfl⟩
      · exact fpRecip_outcome ha k i
      · exact fpRsqrt_outcome ha hs k i
    obtain ⟨y, inexact, hdigits, houtcome, hnear⟩ := hout
    exact ⟨y, inexact, hdigits, houtcome, fun u hlow hhigh => hnear u ⟨hlow, hhigh⟩⟩
  · subst ho hr
    exact fpRecip_exact ha k i hc hv
  · rcases h with ⟨rfl, rfl⟩ | ⟨rfl, rfl⟩
    · exact fpToFixed_rounds rm 31 _ ha
    · exact fpToFixed_rounds rm 53 _ ha

end Sys2Proof.Machine
end

section
/-! SUPPORT. The computational and conversion instructions of the floating-point unit (O46). -/

namespace Sys2Proof.Machine

-- One thread, as in Sys2Proof/Tests: the whole text stays within the check's memory limit.
set_option Elab.async false

/-! ## Floating-point operations (spec/48_fpu_exceptions.md R651) -/

/-- Behind its gates every computational and conversion instruction is one operation; an approximation draws its free values first. -/
theorem exec_fpOperation {i : Instr} {s : State} {f : FpForm} (h : fpForm s i = some f) (h1 : Cp1Ok s) (h4 : f.mips4 = true → Mips4Ok s)
    (hn : FprsOk (f.fd :: f.srcs) s) :
    ∃ busy n, exec i s = finish (fpComplete busy f.out.x (writeFpr f.f f.fd f.out.value) (s.drawn n)) := by
  suffices ∃ busy n, exec i s = finish (needCp1 s (if f.mips4
      then needMips4 s (evenFprs (f.fd :: f.srcs) s (fpComplete busy f.out.x (writeFpr f.f f.fd f.out.value) (s.drawn n)))
      else evenFprs (f.fd :: f.srcs) s (fpComplete busy f.out.x (writeFpr f.f f.fd f.out.value) (s.drawn n)))) by
    simpa only [needCp1_ok h1, gate_ok h4, evenFprs_ok hn] using this
  cases i with
  | addS | addD | subS | subD | mulS | mulD | divS | divD | sqrtS | sqrtD | maddS | maddD | msubS | msubD | nmaddS | nmaddD | nmsubS
  | nmsubD | roundWS | roundWD | truncWS | truncWD | ceilWS | ceilWD | floorWS | floorWD | cvtWS | cvtWD | roundLS | roundLD | truncLS
  | truncLD | ceilLS | ceilLD | floorLS | floorLD | cvtLS | cvtLD | cvtSD | cvtSW | cvtSL | cvtDS | cvtDW | cvtDL =>
    cases h; exact ⟨true, 0, rfl⟩
  | absS | absD | negS | negD => cases h; exact ⟨false, 0, rfl⟩
  | recipS | recipD | rsqrtS | rsqrtD => cases h; exact ⟨true, 2, rfl⟩
  | _ => cases h

/-- The state in which an operation that does not trap writes its result: the exceptions collected, the operation in flight. -/
def collected (busy : Bool) (n : Nat) (x : BitVec 6) (s : State) : State :=
  ((s.drawn n).setFcr31 (fcr31After s x)).setFpBusy (s.fpBusy || busy)

section
variable {busy : Bool} {n : Nat} {x : BitVec 6} {s t : State}

theorem sameFprs_collected : SameFprs s (collected busy n x s) :=
  ⟨fun _ => rfl, congrArg (·.status.fr) (seen_cp0_congr .fpRegs (s := s) (t := collected busy n x s) rfl rfl rfl)⟩

/-- What is outside the floating-point unit does not tell whether exceptions were collected. -/
theorem FpuOnly.of_collected (h : FpuOnly (collected busy n x s) t) : FpuOnly s t where
  cpu := { h.cpu with }
  system := ⟨h.system.cp0, h.system.tlb, h.system.link, { h.system.platform with }⟩
  memory := { h.memory with }
  control := h.control

end

/-- Settles O46: behind its gates each instruction is one operation, which traps with Cause written or collects its exceptions and writes its
result. -/
theorem fpOperations : Obligations.FpOperations := by
  intro i s f hf h1 h4 hn
  obtain ⟨busy, n, hexec⟩ := exec_fpOperation hf h1 h4 hn
  refine ⟨fun ht => ⟨n, ?_⟩, fun ht => ?_⟩
  · rw [hexec, fpComplete_of_traps (s := s.drawn n) ht, finish_exc]
    rfl
  · rw [hexec, fpComplete_of_not_traps (s := s.drawn n) ht, finish_goOn]
    refine ⟨_, rfl, ?_, advance_writeFpr_fcr31 _ _ _ (collected busy n f.out.x s),
      (fpuOnly_writeFpr _ _ _ (collected busy n f.out.x s)).of_collected⟩
    exact (writesFpr_writeFpr f.f f.fd f.out.value (collected busy n f.out.x s)).between sameFprs_collected (sameFprs_advance .seq _)

end Sys2Proof.Machine
end

section
/-! SUPPORT. Taking an exception: the general entry (O54), the registers of the TLB exceptions and the Cache Error entry (O55). -/

namespace Sys2Proof.Machine

-- One thread, as in Sys2Proof/Tests: the whole text stays within the check's memory limit.
set_option Elab.async false

/-! ## What every entry leaves alone (spec/60_exceptions.md R760) -/

/-- An entry that no pending write is held back from enters with Status and Context as they are. -/
theorem takeException_settled {s : State} (h : Settled s) (e : Exc) : takeException e s = enter e s.cp0.status s := by
  rw [takeException, seen_settled h, State.withPTEBase]
  split <;> rfl

theorem takeException_pc {s : State} (h : Settled s) (e : Exc) : (takeException e s).pc = vectorOf s.cp0.status e := by
  rw [takeException_settled h]
  rfl

theorem takeException_cp0 {s : State} (h : Settled s) (e : Exc) : (takeException e s).cp0 = entryCp0 e s.cp0.status.exl s := by
  rw [takeException_settled h]
  rfl

theorem sameCpu_takeException (e : Exc) (s : State) : SameCpu s (takeException e s) :=
  ⟨readGpr_congr (takeException_gpr e s), takeException_hi e s, takeException_lo e s⟩

theorem sameFpu_takeException (e : Exc) (s : State) : SameFpu s (takeException e s) :=
  ⟨readFgr_congr (takeException_fgr e s), takeException_fcr31 e s⟩

theorem sameLink_takeException (e : Exc) (s : State) : SameLink s (takeException e s) :=
  ⟨takeException_llBit e s, takeException_linkAddr e s, takeException_linkKnown e s⟩

/-- The platform is as before but for the record of the entry. -/
theorem samePlatform_takeException (e : Exc) (s : State) : SamePlatform { s with entered := true } (takeException e s) := by
  constructor <;> simp [takeException_entered]

theorem sameMemory_takeException (e : Exc) (s : State) : SameMemory s (takeException e s) := by
  constructor <;> simp

/-! ## The general entry (R761) -/

/-- The X bit of a region, the region given by the address as a number. -/
theorem regionX_eq (t : StatusReg) (va : Dword) :
    regionX t va = if va.toNat / 2 ^ 62 = 0 then t.ux
      else if va.toNat / 2 ^ 62 = 1 ∨ (0xFFFFFFFFC0000000 ≤ va ∧ va ≤ 0xFFFFFFFFDFFFFFFF) then t.sx else t.kx := by
  have hregion : (va.extractLsb' 62 2).toNat = va.toNat / 2 ^ 62 := by
    rw [BitVec.extractLsb'_toNat, Nat.shiftRight_eq_div_pow]
    have hlt := va.isLt
    omega
  rw [regionX]
  simp only [Bool.or_eq_true, beq_iff_eq, inSseg_iff, ← BitVec.toNat_inj, hregion]
  rfl

/-- The vector of every exception but TLB Refill and Cache Error. -/
theorem vectorOf_general {e : Exc} (hc : ∀ info, e ≠ .cacheError info) (hr : ∀ store va, e ≠ .tlbRefill store va) (t : StatusReg) :
    vectorOf t e = if t.bev then 0xFFFFFFFFBFC00380 else 0xFFFFFFFF80000180 := by
  cases e with
  | cacheError info => exact absurd rfl (hc info)
  | tlbRefill store va => exact absurd rfl (hr store va)
  | _ =>
    show (if t.bev then _ else _) + 0x180 = _
    cases t.bev <;> rfl

/-- The general entry writes of CP0 what R760 lists, and what an exception of an address loads. -/
theorem generalEntry_takeException {e : Exc} {s : State} (hc : ∀ info, e ≠ .cacheError info) (h : Settled s) :
    GeneralEntry e s (takeException e s) := by
  have hcp0 : (takeException e s).cp0 = generalCp0 e s.cp0.status.exl s := by
    rw [takeException_cp0 h, entryCp0_general hc]
  exact {
    epc := by
      rw [hcp0]
      cases e <;> rfl
    bd := fun hexl => by
      rw [hcp0, hexl]
      rfl
    unit := fun z he => by
      rw [hcp0, he]
      rfl
    status := by
      rw [hcp0]
      cases e <;> rfl
    cp0 := by
      rw [hcp0]
      cases e <;> rfl
    address := fun ha => by
      rw [hcp0]
      cases e with
      | addressError | tlbRefill | tlbInvalid | tlbModified => cases ha
      | _ => rfl
    delay := rfl
    cpu := sameCpu_takeException e s
    fpu := sameFpu_takeException e s
    tlb := takeException_tlb e s
    link := sameLink_takeException e s
    platform := samePlatform_takeException e s
    memory := sameMemory_takeException e s }

/-- Settles O54: the codes exception by exception; the entry by what it writes of CP0; the vector by whether the exception is a TLB Refill. -/
theorem generalExceptionEntry : Obligations.GeneralExceptionEntry := by
  refine ⟨fun s va z code hcode => ?_, fun e s hc h => ⟨generalEntry_takeException hc h, fun hr => ?_, fun store va he => ?_⟩⟩
  · subst hcode
    exact ⟨rfl, rfl, rfl, rfl, rfl, rfl, rfl, rfl, rfl, rfl, rfl, rfl, rfl, rfl, rfl, rfl, rfl⟩
  · rw [takeException_pc h, vectorOf_general hc hr]
  · subst he
    rw [takeException_pc h, ← regionX_eq]
    rfl

/-! ## The registers of the TLB exceptions (R774), Cache Error (R762) -/

/-- CP0 after a TLB exception: the registers it loads, and those of the general entry; Context.PTEBase as the entry sees it. -/
theorem takeException_tlb_cp0 {e : Exc} {va : Dword} {store : Bool}
    (he : e = .tlbRefill store va ∨ e = .tlbInvalid store va ∨ e = .tlbModified va) (s : State) :
    ∃ epc cause status, (takeException e s).cp0 =
      { loadTlbRegs (s.setCp0 { s.cp0 with contextPTEBase := (seen .excEntry s).cp0.contextPTEBase }) va with
        epc := epc, cause := cause, status := status } := by
  rcases he with rfl | rfl | rfl <;> exact ⟨_, _, _, rfl⟩

/-- Settles O55: the three TLB exceptions load the same registers; the Cache Error entry by the vector BEV selects. -/
theorem exceptionRegisters : Obligations.ExceptionRegisters := by
  refine ⟨fun e s t va store he ht => ?_, fun info s t h ht => ?_⟩
  · obtain ⟨epc, cause, status, hcp0⟩ := takeException_tlb_cp0 he s
    rw [ht, hcp0]
    exact ⟨rfl, rfl, rfl, rfl, rfl, rfl, rfl, rfl⟩
  · subst ht
    have hpc : (takeException (.cacheError info) s).pc = if s.cp0.status.bev then 0xFFFFFFFFBFC00300 else 0xFFFFFFFFA0000100 := by
      rw [takeException_pc h]
      show (if s.cp0.status.bev then _ else _) + 0x100 = _
      cases s.cp0.status.bev <;> rfl
    exact ⟨takeException_cp0 h _, hpc, rfl, sameCpu_takeException _ s, sameFpu_takeException _ s, takeException_tlb _ s,
      sameLink_takeException _ s, sameMemory_takeException _ s⟩

end Sys2Proof.Machine
end

section
/-! SUPPORT. The interrupt requests (O56), the interrupt taken in place of an instruction (O57); modes and widths (O44). -/

namespace Sys2Proof.Machine

-- One thread, as in Sys2Proof/Tests: the whole text stays within the check's memory limit.
set_option Elab.async false

/-! ## Interrupt requests (spec/60_exceptions.md R790) -/

/-- The pending bits by their place: two software bits, five lines, IP7. -/
theorem getLsbD_pendingBits (s : State) (k : Nat) :
    (pendingBits s).getLsbD k = if k < 2 then s.cp0.cause.ipSw.getLsbD k
      else if k - 2 < 5 then s.intReg.getLsbD (k - 2) || s.intPin.getLsbD (k - 2)
      else (bit (if s.boot.tmrIntEn then s.intReg.getLsbD 5 || s.intPin.getLsbD 5 else s.timerInt)).getLsbD (k - 2 - 5) := by
  have hline : ∀ n < 6, (s.intReg.extractLsb' 0 6 ||| s.intPin).getLsbD n = (s.intReg.getLsbD n || s.intPin.getLsbD n) := fun n hn => by
    rw [BitVec.getLsbD_or, BitVec.getLsbD_extractLsb', Nat.zero_add, decide_eq_true hn, Bool.true_and]
  rw [pendingBits, BitVec.getLsbD_append, BitVec.getLsbD_append, hline 5 (by decide)]
  refine ite_congr rfl (fun _ => rfl) fun _ => ite_congr rfl (fun hk => ?_) fun _ => rfl
  rw [BitVec.getLsbD_extractLsb', Nat.zero_add, decide_eq_true hk, Bool.true_and, hline _ (by omega)]

/-- Where no pending write is held back the request is that of the registers themselves. -/
theorem interruptRequest_settled_iff {s : State} (h : Settled s) :
    interruptRequest s = true ↔ (∃ n < 8, (pendingBits s).getLsbD n = true ∧ s.cp0.status.im.getLsbD n = true) ∧
      s.cp0.status.ie = true ∧ s.cp0.status.exl = false ∧ s.cp0.status.erl = false := by
  rw [interruptRequest, seen_settled h]
  simp only [Bool.and_eq_true, Bool.not_eq_true', and_bne_zero_iff, and_assoc]

/-- Settles O56: each request by its place among the pending bits, and their mask. -/
theorem interruptRequests : Obligations.InterruptRequests := by
  refine fun s => ⟨⟨getLsbD_pendingBits s 0, getLsbD_pendingBits s 1⟩, fun n hn => ?_, ?_, interruptRequest_settled_iff⟩
  · rw [getLsbD_pendingBits, if_neg (by omega), Nat.add_sub_cancel, if_pos hn]
  · rw [getLsbD_pendingBits, if_neg (by decide), if_neg (by decide)]
    exact BitVec.getLsbD_ofBool _ _

/-! ## The interrupt in place of an instruction (R752, R791) -/

/-- A step that no reset, NMI or Standby takes is the instruction's, or the interrupt's in its place. -/
theorem step_of_ready {s u : State} (h : Ready s u) : step s = aged (withInterrupt u (runFetched u)) := by
  obtain ⟨t, hext, hreset, hnmi, hstandby, hmode, rfl⟩ := h
  have hstep : step s = afterReset t := by simp only [step, cycle, hext, hreset]
  have hboundary : afterReset t = boundary (t.setStandby false) := by simp [afterReset, hnmi, hstandby]
  rw [hstep, hboundary, boundary, if_neg]
  exact Bool.eq_false_iff.1 hmode

/-- An interrupt that is requested and not deferred takes the place of what completes. -/
theorem withInterrupt_next {s t : State} (h : interruptRequest s = true) (hd : s.inp.deferInt = false) :
    withInterrupt s (.next t) = .next (if t.entered then t else takeException .interrupt s) := by
  cases he : t.entered <;> simp [withInterrupt, h, hd, he]

/-- Retiring an instruction tells whether it entered an exception, and leaves one that did as it is. -/
theorem retire_next (i : Instr) (t : State) :
    ∃ u, retire i (.next t) = .next u ∧ u.entered = t.entered ∧ (t.entered = true → u = t) := by
  refine ⟨_, rfl, ?_, fun h => by rw [h]; rfl⟩
  split <;> rfl

/-- Settles O57: by whether the instruction entered an exception. -/
theorem interruptTaken : Obligations.InterruptTaken := by
  intro s u v t bs i hr hf hd hi hdefer hexec
  obtain ⟨w, hretire, hentered, hkept⟩ := retire_next i t
  have hstep : step s = .next (age (if w.entered then w else takeException .interrupt u)) := by
    rw [step_of_ready hr, runFetched, hf]
    show aged (withInterrupt u (runBytes bs v)) = _
    rw [runBytes_of_ok hd, hexec, hretire, withInterrupt_next hi hdefer]
    rfl
  rw [hstep, hentered]
  exact ⟨fun h => by rw [h]; rfl, fun h => by rw [h, hkept h]; rfl⟩

/-! ## Modes and widths (R820, R821) -/

section
variable (t : StatusReg)

theorem modeOf_of_level (h : t.exl = true ∨ t.erl = true) : modeOf t = .kernel := by
  rcases h with h | h <;> simp [modeOf, h]

/-- With EXL and ERL clear KSU gives the mode. -/
theorem modeOf_of_ksu (hexl : t.exl = false) (herl : t.erl = false) :
    modeOf t = if t.ksu = 0 then .kernel else if t.ksu = 1 then .supervisor else .user := by
  simp [modeOf, hexl, herl]

/-- The three modes, by EXL, ERL and KSU. -/
theorem modeOf_iff :
    (modeOf t = .kernel ↔ t.ksu = 0 ∨ t.exl = true ∨ t.erl = true) ∧
    (modeOf t = .supervisor ↔ t.ksu = 1 ∧ t.exl = false ∧ t.erl = false) ∧
    (noMode t = false → (modeOf t = .user ↔ t.ksu = 2 ∧ t.exl = false ∧ t.erl = false)) := by
  by_cases h : t.exl = true ∨ t.erl = true
  · rw [modeOf_of_level t h]
    rcases h with h | h <;> simp [h]
  · obtain ⟨hexl, herl⟩ : t.exl = false ∧ t.erl = false := by simpa using h
    rw [modeOf_of_ksu t hexl herl, noMode, hexl, herl]
    generalize t.ksu = ksu
    revert ksu
    decide

theorem is64_iff :
    is64 t = true ↔ modeOf t = .kernel ∨ modeOf t = .supervisor ∧ t.sx = true ∨ modeOf t = .user ∧ t.ux = true := by
  cases hm : modeOf t <;> simp [is64, hm]

theorem extendedAddressing_iff :
    extendedAddressing t = true ↔
      modeOf t = .kernel ∧ t.kx = true ∨ modeOf t = .supervisor ∧ t.sx = true ∨ modeOf t = .user ∧ t.ux = true := by
  cases hm : modeOf t <;> simp [extendedAddressing, hm]

end

/-- Settles O44: the modes by EXL, ERL and KSU, the widths mode by mode. -/
theorem modesAndWidths : Obligations.ModesAndWidths := by
  intro t
  obtain ⟨hkernel, hsupervisor, huser⟩ := modeOf_iff t
  exact ⟨hkernel, hsupervisor, huser, is64_iff t, extendedAddressing_iff t⟩

end Sys2Proof.Machine
end

section
/-! SUPPORT. NMI and Soft Reset (O58), the Reset exception (O59), Count and the Interrupt register (O60). -/

namespace Sys2Proof.Machine

-- One thread, as in Sys2Proof/Tests: the whole text stays within the check's memory limit.
set_option Elab.async false

/-! ## The step that a reset or an NMI takes -/

section
variable {s t : State} (hext : applyExts (nextInput s).ext (arrived s) = .ok () t)
include hext

/-- A reset comes before anything else; it may find the instruction cut off (log entry 9). -/
theorem step_of_reset {k : ResetKind} (h : t.inp.reset = some k) :
    step s = resetEntry k (if t.inp.resetMidway then cutOff t else t) := by
  simp only [step, cycle, hext, h]

/-- An NMI to be taken comes before Standby and the instruction. -/
theorem step_of_nmi (h : t.inp.reset = none) (hn : t.nmiPending ≠ 0) : step s = .next (nmiEntry t) := by
  simp [step, cycle, hext, h, afterReset, hn]

end

/-! ## Soft Reset and NMI (spec/60_exceptions.md R764, spec/70_reset_and_hazards.md R852, R853) -/

/-- The registers that Soft Reset and NMI keep or save. -/
structure Registers where
  gpr : Vector Dword 32
  hiLo : Dword × Dword
  control : Dword × Option Dword
  cp0 : Cp0
  tlb : Vector TlbEntry 48
  fgr : Vector Dword 32
  fcr31 : Fcr31
  link : Bool × PAddr × Bool

/-- Those of a state. -/
def registers (s : State) : Registers :=
  ⟨s.gpr, (s.hi, s.lo), (s.pc, s.delay), s.cp0, s.tlb, s.fgr, s.fcr31, (s.llBit, s.linkAddr, s.linkKnown)⟩

/-- The transfer, entered with the registers of `s`. -/
theorem softEntered_softEntry {s t : State} (h : registers t = registers s) : SoftEntered s (softEntry t) := by
  simp only [registers, Registers.mk.injEq, Prod.mk.injEq] at h
  obtain ⟨hgpr, ⟨hhi, hlo⟩, ⟨hpc, hdelay⟩, hcp0, htlb, hfgr, hfcr31, hlink⟩ := h
  refine ⟨?_, ?_, ⟨rfl, rfl, rfl⟩, ⟨readGpr_congr hgpr, hhi, hlo⟩, ⟨readFgr_congr hfgr, hfcr31⟩, htlb, hlink⟩
  · show restartPc t = _
    rw [restartPc, hpc, hdelay]
  · rw [← hcp0]
    rfl

theorem registers_abandon (ts : List (PAddr × Nat)) (s : State) : registers (abandon ts s) = registers s := by
  obtain ⟨m, n, he, -⟩ := abandon_eq ts s
  rw [he]
  rfl

theorem registers_abandonWrites (s : State) : registers (abandonWrites s) = registers s := registers_abandon _ s

/-- An instruction cut off has its registers as before it (R852). -/
theorem registers_cutOff (s : State) : registers (cutOff s) = registers s := by
  unfold cutOff
  split
  · rfl
  · split
    · exact registers_abandon _ _
    · rfl
    · rfl

theorem softEntered_warmReset {s t : State} (h : registers t = registers s) : SoftEntered s (warmReset t) :=
  softEntered_softEntry ((registers_abandonWrites t).trans h)

theorem softEntered_nmiEntry (s : State) : SoftEntered s (nmiEntry s) := by
  refine softEntered_softEntry ?_
  cases s.inp.nmiEmptiesBuffer with
  | true => exact registers_abandonWrites s
  | false => rfl

@[simp] theorem softEntry_wb (s : State) : (softEntry s).wb = s.wb := rfl
@[simp] theorem softEntry_icache (s : State) : (softEntry s).icache = s.icache := rfl
@[simp] theorem softEntry_icacheRest (s : State) : (softEntry s).icacheRest = s.icacheRest := rfl
@[simp] theorem softEntry_dcache (s : State) : (softEntry s).dcache = s.dcache := rfl
@[simp] theorem softEntry_dcacheRest (s : State) : (softEntry s).dcacheRest = s.dcacheRest := rfl
@[simp] theorem softEntry_scache (s : State) : (softEntry s).scache = s.scache := rfl
@[simp] theorem softEntry_scacheRest (s : State) : (softEntry s).scacheRest = s.scacheRest := rfl
@[simp] theorem softEntry_mem (s : State) : (softEntry s).mem = s.mem := rfl

/-- An NMI keeps memory, caches and write buffer where the environment has it keep the buffer (R853). -/
theorem sameMemory_nmiEntry {s : State} (h : s.inp.nmiEmptiesBuffer = false) : SameMemory s (nmiEntry s) := by
  rw [nmiEntry, h]
  constructor <;> simp

/-- Where it has it emptied, the caches are kept, and so is every byte that no buffered write names (spec/10_state.md R128). -/
theorem nmiEntry_emptied {s : State} (h : s.inp.nmiEmptiesBuffer = true) :
    (nmiEntry s).wb = [] ∧ SameICache s (nmiEntry s) ∧ SameDCache s (nmiEntry s) ∧ SameSCache s (nmiEntry s) ∧
      (Memory.wf s.mem → ∀ a, (∀ e ∈ s.wb, ∀ k < (entryTarget e).2, ((entryTarget e).1.toNat + k) % memSize ≠ a) →
        memRead (nmiEntry s).mem a = memRead s.mem a) := by
  obtain ⟨m, n, habandoned, hm⟩ := abandonWrites_eq s
  rw [nmiEntry, h, if_pos rfl, habandoned]
  refine ⟨by simp, isetAt_congr (by simp) (by simp), dsetAt_congr (by simp) (by simp), slineAt_congr (by simp) (by simp), ?_⟩
  simpa using fun hw => (hm hw).2

/-- Settles O58: the rise as the look counts it; the NMI by what the environment does with the buffer; a warm reset finds the registers as they
were, also where it cuts an instruction off. -/
theorem nmiAndSoftReset : Obligations.NmiAndSoftReset := by
  refine ⟨fun s => ⟨rfl, ?_⟩, fun s t hext hreset hn => ?_, fun s t hext hreset => ?_⟩
  · show s.nmiPending + _ = _
    simp only [nmiRequest, Bool.and_eq_true, Bool.not_eq_true']
  · have hone : (nmiEntry t).nmiPending + 1 = t.nmiPending := Nat.sub_add_cancel (Nat.pos_of_ne_zero hn)
    exact ⟨_, step_of_nmi hext hreset hn, softEntered_nmiEntry t, hone, sameMemory_nmiEntry, nmiEntry_emptied⟩
  · refine ⟨_, step_of_reset hext hreset, softEntered_warmReset ?_, rfl, rfl⟩
    split
    · exact registers_cutOff t
    · rfl

/-! ## The Reset exception (spec/70_reset_and_hazards.md R851) -/

/-- What a cold reset leaves in the fields that R851 gives. -/
theorem coldReset_status (b : BootMode) (s : State) :
    (coldReset b s).cp0.status.bev = true ∧ (coldReset b s).cp0.status.sr = false ∧ (coldReset b s).cp0.status.erl = true := by
  rw [coldReset_cp0]
  exact ⟨rfl, rfl, rfl⟩

/-- Settles O59: the fields of a cold reset, and those of the state after reset. -/
theorem resetExceptionAndState : Obligations.ResetExceptionAndState := by
  refine ⟨fun s t b hext hreset hlegal => ?_, rfl, rfl, rfl, rfl, rfl, rfl, rfl, rfl, rfl, rfl⟩
  set v := if t.inp.resetMidway then cutOff t else t
  have hstep : step s = .next (coldReset b v) := by
    rw [step_of_reset hext hreset]
    exact if_pos hlegal
  obtain ⟨hbev, hsr, herl⟩ := coldReset_status b v
  exact ⟨_, hstep, by rw [coldReset_cp0]; rfl, by rw [coldReset_cp0]; rfl, by rw [coldReset_cp0]; rfl, hbev, hsr, herl, rfl, rfl, rfl,
    coldReset_wb b v, rfl, modeOf_of_level _ (.inr herl)⟩

/-! ## Count and the Interrupt register (spec/60_exceptions.md R800, spec/49_system_interface.md R715) -/

/-- A bit of the Interrupt register after an external write: the new one where it is enabled. -/
theorem getLsbD_writeIntReg (data : Dword) (s : State) {n : Nat} (hn : n < 7) :
    (writeIntReg data s).intReg.getLsbD n = if data.getLsbD (16 + n) then data.getLsbD n else s.intReg.getLsbD n := by
  show ((s.intReg &&& ~~~data.extractLsb' 16 7) ||| (data.extractLsb' 0 7 &&& data.extractLsb' 16 7)).getLsbD n = _
  cases hen : data.getLsbD (16 + n) <;> simp [hn, hen]

/-- SysAD[6:4] as a number. -/
theorem extractLsb'_4_3_beq_zero (address : Dword) : (address.extractLsb' 4 3 == 0#3) = decide (address.toNat / 16 % 8 = 0) := by
  rw [Bool.eq_iff_iff, beq_iff_eq, decide_eq_true_iff, ← BitVec.toNat_inj, BitVec.extractLsb'_toNat, Nat.shiftRight_eq_div_pow]
  rfl

/-- Settles O60: the step of Count is one equation; an external write by its size and address. -/
theorem countAndInterruptRegister : Obligations.CountAndInterruptRegister := by
  refine ⟨fun s => ⟨BitVec.toNat_add _ _, ?_, rfl⟩,
    fun s address data size => ⟨fun hsize haddr => ?_, fun hsize haddr => ?_, fun hsize => ?_⟩⟩
  · show (s.timerInt || _) = true ↔ _
    rw [Bool.or_eq_true, beq_iff_eq]
    rfl
  · have hwrite : applyExt (.write address size data) s = .ok () (sampleNmi (writeIntReg data s)) := by
      simp [applyExt, hsize, extractLsb'_4_3_beq_zero, haddr]
    exact ⟨_, hwrite, fun n hn => getLsbD_writeIntReg data s hn, rfl, ⟨fun _ => rfl, rfl, rfl⟩, ⟨fun _ => rfl, rfl⟩,
      ⟨fun _ => rfl, rfl, ⟨rfl, rfl⟩, ⟨rfl, rfl⟩, ⟨rfl, rfl⟩⟩, rfl⟩
  · simp [applyExt, hsize, extractLsb'_4_3_beq_zero, haddr]
  · simp [applyExt, hsize]

end Sys2Proof.Machine
end
